-- ==== Sys2Proof/Word.lean ====
section
/-! DEFINITION. The word types of the model and their plainest arithmetic (00_scope.md, "Notation"). -/
namespace Sys2Proof

/-- One byte of a letter, a frame or memory. -/
abbrev Byte := BitVec 8

/-- A 32-bit register word (R34). -/
abbrev Word := BitVec 32

/-- A postmark: the count of 12.5 ns steps (00_scope.md, "Physical units"). -/
abbrev Postmark := Nat

end Sys2Proof
end

