-- ==== Sys2Proof/Syntax.lean ====
section
/-! DEFINITION. The commands of the VG63 as a block: one constructor per row of spec/opcode_table.json, with its operands. -/
namespace Sys2Proof

/-- Where a letter of ports 1 and 2 came from (R48, R49): the CAN controller of arrival and the sender's number. Letters of the
other ports have 0 in both. -/
structure Addr where
  ctrl : Fin 3
  node : Fin 64
deriving DecidableEq, Repr

/-- The header of a letter (R55) as it stands when the letter is served; `dt` is the time in postmark counts since the
previous command. The opcode is the row's. -/
structure Head where
  /-- Postmark counts since the previous command. -/
  dt : Nat
  /-- Port of arrival, and byte 6 of the letter (R48). -/
  port : Fin 6
  /-- Class, bits [15:12] of bytes 0-1. -/
  cls : Fin 4
  /-- Sequence number. -/
  seq : BitVec 16
  /-- Flag bit 0. -/
  quiet : Bool
  /-- Flag bit 1. -/
  finalOnly : Bool
  /-- Deadline in ticks, 0 none. -/
  deadline : BitVec 32
  /-- The authentication tag of a class 3 letter; 0 in the other classes. -/
  tag : BitVec 64
  /-- The sender's address: its receipts go there (R48). -/
  src : Addr := ⟨0, 0⟩
deriving DecidableEq, Repr

/-- A letter: its header and its payload (R55). -/
structure Letter extends Head where
  payload : List Byte
deriving DecidableEq, Repr

/-- A sample of the inputs of an encoder channel (R196, R198, R199): how many 5 ns before the command's instant it was taken,
the levels of the A and B comparators, the A and B voltages in mV, and the Hall sector 1-6, 0 for state 0b000 and 7 for 0b111. -/
structure EncSample where
  age : Nat
  a : Bool
  b : Bool
  x : Int
  y : Int
  hall : Fin 8
deriving DecidableEq, Repr

/-- What an encoder channel shows up to a tick instant (R196, R198, R199): its samples since the command before, oldest first,
and whether the receivers find no open or shorted pair. -/
structure EncIn where
  samples : List EncSample
  lineOk : Bool
deriving DecidableEq, Repr

/-- What comes from outside the block at a tick instant (R192): the encoder channels, the bits of each modulator since the
command before, oldest first (R211), the codes of each converter channel received during the tick, newest last, counted in steps
from the low end of the range (R214), whether the heartbeat arrives at the keeper (R362), and whether the active lane's firmware
has serviced its watchdog since the tick instant before (R350). -/
structure TickIn where
  enc : Vector EncIn 3
  sd : Vector (List Bool) 3
  adc : Vector (List (Fin 4096)) 16
  heartbeat : Bool
  service : Bool
deriving DecidableEq, Repr

/-- A tape frame (R203): the data line was high at the start, the data bits, the status bits, the parity bit. -/
structure SsiIn where
  lineHigh : Bool
  data : Nat
  status : Nat
  parity : Bool
deriving DecidableEq, Repr

/-- What a field-link frame from the field die carries besides the inputs (R21, R438, R450): output currents in mA, group
currents in mA, the hottest driver in °C. -/
structure DiagIn where
  amps : Vector Nat 32
  groupA : Nat
  groupB : Nat
  hottest : Int
deriving DecidableEq, Repr

/-- What comes from outside at an interlock evaluation: the tap voltages in mV as the latest field-link frame has them
(R325), the position of the UCM source read from its counts (R329), and how far the result of evaluator E2 deviates from
its image by a fault of that evaluator (R318). -/
structure EvalIn where
  taps : Vector Nat 12
  ucmPos : Int
  devTerm : BitVec 64
  devPermit : BitVec 15
deriving DecidableEq, Repr

/-- What comes from outside at a current sample (R173, R192): the bits of the modulators and the samples of ENC0 since the
command before, oldest first. -/
structure CurIn where
  sd : Vector (List Bool) 3
  enc : List EncSample
deriving DecidableEq, Repr

/-- What the field die measures for a door modulator update: VDOOR in mV, stage temperature in °C, the three phase currents
in mA (phases A and B in modes 2 and 4), and the samples of ENC2 since the command before (R199, R226, R228, R246). -/
structure DoorIn where
  vdoor : Nat
  temp : Int
  cur : Vector Int 3
  enc : List EncSample
deriving DecidableEq, Repr

/-- The fields of the own status slot that the lane's stop scheduling writes (R272): car state, landing, direction, car
position in mm, load in %, IN_SERVICE. -/
structure CarIn where
  state : Nat
  landing : Nat
  dir : Nat
  pos : Nat
  load : Nat
  inService : Bool
deriving DecidableEq, Repr

/-- The fields of a status slot (R271); its CRC is a function of the rest. -/
structure SlotMsg where
  round : Nat
  state : Nat
  mute : Bool
  inService : Bool
  leaving : Bool
  resync : Bool
  busA : Bool
  busB : Bool
  landing : Nat
  dir : Nat
  /-- Entry count A. -/
  count : Nat
  refused : Nat
  pending : Nat
  entries : List Word
  tag : Word
  digest : Word
  pos : Nat
  load : Nat
deriving DecidableEq, Repr

/-- A bell stroke received without error (R268): the bell's car number, the data, the bus it came on first, the counts from
its start of frame to now, and the same for the stroke on the other bus, if there is one. -/
structure StrokeIn where
  sender : Nat
  round : Nat
  /-- Bytes 4-8: T_round and T_bell, T_slot in 10 µs, SLOTS. -/
  tRound : Nat
  tBell : Nat
  tSlot : Nat
  slots : Nat
  prevValid : Bool
  refDig : Word
  void : BitVec 64
  /-- Group time. -/
  time : Nat
  busB : Bool
  age : Nat
  other : Option Nat
deriving DecidableEq, Repr

/-- A CAN frame (R459). -/
structure CanFrame where
  id : Nat
  xtd : Bool
  fdf : Bool
  brs : Bool
  esi : Bool
  rtr : Bool
  dlc : Nat
  data : List Byte
deriving DecidableEq, Repr

/-- What a frame leaves in a controller by ISO 11898-1: the error counters after it, the kinds of error seen as in
CANx_ERRSEEN, the loop delay measured (R455, R472). -/
structure BusIn where
  txc : Nat
  rxc : Nat
  seen : BitVec 13
  loopDly : Nat
deriving DecidableEq, Repr

/-- How an attempt to transmit ends (R466, R467, R471). -/
inductive TxEnd where
  | sent
  | lostArbitration
  /-- A bit error detected in the data field. -/
  | dataBitError
  | error
deriving DecidableEq, Repr

/-- The supply that ends a module reset (R503): VKEEP, mains being lost, or else VLOG; its voltage in mV; the postmark from which it has
met its threshold. -/
structure SupplyIn where
  fromVkeep : Bool
  mv : Nat
  since : Nat
deriving DecidableEq, Repr

/-- Mains back (R516): MAINS_SENSE is high; the postmark from which VLOG, and MAINS_SENSE where it is used, have met R516. -/
structure MainsIn where
  senseHigh : Bool
  since : Nat
deriving DecidableEq, Repr

/-- The bits of a modulator since the command before, oldest first (R211). -/
structure SdIn where
  k : Fin 3
  bits : List Bool
deriving DecidableEq, Repr

/-- An edge of STEPIN, into its active state or out of it, with DIRIN in the same sample (R233). -/
structure LegacyIn where
  stepActive : Bool
  dirActive : Bool
deriving DecidableEq, Repr

/-- A fault report of a lane: a lockstep mismatch, or the uncorrectable word of its private memory (R349). -/
structure LaneFaultIn where
  laneB : Bool
  word : Option Nat
deriving DecidableEq, Repr

/-- What the new lane's replay and reads find: the CRC of an entry fails; the words with a new uncorrectable error (R363, R366). -/
structure ReplayIn where
  bad : Bool
  errs : List Nat
deriving DecidableEq, Repr

/-- A car-number twin (R302): of a claim (0) or a slot (1) that ends in TWIN in a transmit buffer of a group bus, or of the own number
seen from elsewhere (2). -/
structure TwinIn where
  kind : Fin 3
  bus : Fin 2
  buf : Fin 8
deriving DecidableEq, Repr

/-- A cycle instant of the car link: `dt`, and the door request of the lane's stop scheduling (R491). -/
structure CycleIn where
  dt : Nat
  req : Fin 4
deriving DecidableEq, Repr

/-- A received car-link frame, destination address to frame check sequence, and the counts since it was received (R489). -/
structure LinkFrameIn where
  age : Nat
  frame : List Byte
deriving DecidableEq, Repr

/-- An output at its current limit since a postmark (R438). -/
structure OverIn where
  k : Fin 32
  since : Nat
deriving DecidableEq, Repr

/-- An output group above its current limit since a postmark (R438). -/
structure GroupOverIn where
  groupB : Bool
  since : Nat
deriving DecidableEq, Repr

/-- The commands of the block: one constructor per row of spec/opcode_table.json. A letter row carries the letter as its
sender composed it (the row is its opcode); a register-write row carries the head of the REG_WRITE letter and the value;
an event row carries the time since the previous command and whatever comes from outside the block. -/
inductive Instr where
  /-- POWER_ON_RESET (R504): Both supplies fall below 8.0 V and return, so the always-on domain stops and the next start is a power-on reset with postmark 0 and cause POR. -/
  | powerOnReset (dt : Nat)
  /-- BROWN_OUT (R504): The supply in use and the other supply both fall below 9.5 V, so the VG63 asserts module reset with cause BROWNOUT. -/
  | brownOut (dt vlog vkeep : Nat)
  /-- RESET_PIN (R522): RESET_N is held low for at least 10 µs, which makes a module reset with cause PIN. -/
  | resetPin (dt : Nat)
  /-- SUPPLY_STABLE (R503): The supply in use has met its threshold for 10 ms without a break, so the control die is let out of module reset.
`mv`: its voltage; `since`: the instant from which it has met the threshold. -/
  | supplyStable (dt : Nat) (x : SupplyIn)
  /-- MODULE_RESET_SEQUENCE (R524): A module reset turns off all outputs within 1 µs, zeroises SRAM, reads the straps three times and releases lane A at 0.312 ms. -/
  | moduleResetSequence (dt : Nat) (straps : Vector (BitVec 2) 3)
  /-- BOOT (R527): Lane A's boot ROM checks the firmware, selects a bank and a configuration copy, and loads the register record or enters recovery service. -/
  | boot (dt : Nat) (imageBad aFails : Bool)
  /-- BOOT_DONE (R529): The charge of the last stored letter is used up, so PWR_BOOT.DONE is set and BOOT_DONE is posted with the boot time. -/
  | bootDone (dt : Nat)
  /-- SERVO_TICK (R22): At each tick instant, sensing is latched, ramp units emit set-points and the tick-rate loop slots run. -/
  | servoTick (dt : Nat) (x : TickIn)
  /-- PARCEL_SEAL (R356): At T_tick − 4 µs, the active lane seals its policy state into the older parcel slot. -/
  | parcelSeal (dt : Nat) (units : Fin 512)
  /-- CURRENT_SAMPLE (R173): At each carrier peak and valley, currents and angle are taken, the vector transforms and current-rate slots run, and duties are written. -/
  | currentSample (dt : Nat) (x : CurIn)
  /-- OVERCURRENT (R180): A decimator phase current above TRIP sets the six hoist outputs inactive within 0.5 µs and latches TRIP. -/
  | overcurrent (dt : Nat) (k : Fin 3) (bits : List Bool)
  /-- LOOP_SAT (R143): An emitted output that stays at a limit for SATTIME is posted. -/
  | loopSat (dt : Nat) (l : Fin 16)
  /-- BRAKE_PICK_END (R182): PICKTIME expires, so the brake profile changes from PICK to HOLD. -/
  | brakePickEnd (dt : Nat) (b : Fin 2)
  /-- LETTER_ARRIVAL (R72): The letterbox checks framing, CRC, opcode, arguments, room and deadline, and queues the letter or answers its refusal. -/
  | letterArrival (dt : Nat) (port : Fin 6) (bytes : List Byte)
  /-- HP_POST (R53): A write of LENGTH to HP_POST posts the letter in the inbox. -/
  | hpPost (dt : Nat) (length : Fin 8192)
  /-- HP_TAKE (R54): A write of 1 discards the outbox receipt and moves the next waiting receipt in. -/
  | hpTake (dt : Nat) (take : Bool)
  /-- HP_EVIDX_WRITE (R54): A write of RD marks event records as read or unread, if it is not ahead of WR. -/
  | hpEvidxWrite (dt : Nat) (rd : Fin 512)
  /-- CAN_LETTER_SEGMENT (R50): A letter segment frame is added to its sender's reassembly, or discards it when out of sequence. -/
  | canLetterSegment (dt : Nat) (ctrl : Fin 3) (sender : Fin 64) (dest : Fin 4096) (data : List Byte)
  /-- CAN_REASSEMBLY_TIMEOUT (R50): More than 10 ms between two segments discards the letter under reassembly as a dead letter. -/
  | canReassemblyTimeout (dt : Nat) (ctrl : Fin 3) (sender : Fin 64)
  /-- UART_LETTER (R51): A letter after the start mark on the service UART is delivered to the letterbox. `bytes` are the bytes that
  came in on the UART, start marks and noise included. -/
  | uartLetter (dt : Nat) (bytes : List Byte)
  /-- UART_GAP_TIMEOUT (R51): An inter-byte gap above 1 ms discards the letter without a receipt. -/
  | uartGapTimeout (dt : Nat)
  /-- NOP (R71): Does nothing and answers DONE. -/
  | nop (l : Letter)
  /-- IDENTIFY (R71): Returns a 32-byte tail with the ordering code, generation, role, life-cycle state and bank versions. -/
  | identify (l : Letter)
  /-- REG_READ (R34): Reads an aligned 32-bit word and clears any RC field it read. -/
  | regRead (l : Letter)
  /-- REG_WRITE (R16): Writes an aligned 32-bit word to a register that has no row of its own, or to memory, under the access-type and privilege rules. -/
  | regWrite (l : Letter)
  /-- REG_MODIFY (R570): Reads a word and writes only its masked bits, returning the old value. -/
  | regModify (l : Letter)
  /-- MODULE_RESET (R522): Kind 1 answers DONE and then makes a module reset with cause LETTER. -/
  | moduleReset (l : Letter)
  /-- MODULE_RESET_LANE (R372): Kind 2 starts a lane reset of the lane that does not hold the active role. -/
  | moduleResetLane (l : Letter)
  /-- CONFIG_SAVE (R530): Writes the older configuration copy of a bank, with the register record, the stored letters and the LOCK image, and reads it back. -/
  | configSave (l : Letter)
  /-- TABLE_WRITE (R36): Writes n bytes to table space or mill memory, unless the range is in use. -/
  | tableWrite (l : Letter)
  /-- TABLE_READ (R71): Returns n bytes of memory as a tail. -/
  | tableRead (l : Letter)
  /-- TABLE_CHECK (R71): Returns the CRC-32C of n bytes of memory. -/
  | tableCheck (l : Letter)
  /-- TABLE_FILL (R71): Fills n bytes with a 32-bit pattern, unless the range is in use. -/
  | tableFill (l : Letter)
  /-- MOVE_RUN (R99): Checks a segment table and, if it passes, starts the unit playing it. -/
  | moveRun (l : Letter)
  /-- MOVE_TRAP (R108): Starts a trapezoid move to an absolute or relative target. -/
  | moveTrap (l : Letter)
  /-- MOVE_TAIL (R104): Checks a tail table and arms it to replace the running table from segment f. -/
  | moveTail (l : Letter)
  /-- MOVE_STOP (R117): Starts a ramp or hard stop of the unit at the next tick instant. -/
  | moveStop (l : Letter)
  /-- SET_LIMITS (R94): Sets the five motion limits of a unit, in force from the next tick instant. -/
  | setLimits (l : Letter)
  /-- HOME (R126): Starts the homing procedure that searches for the reference edge and moves the position frame. -/
  | home (l : Letter)
  /-- GEAR_SET (R131): Loads a ratio-point table and master source, or turns gearing off. -/
  | gearSet (l : Letter)
  /-- DOOR_MODE (R222): Sets the door stage mode at the next tick instant, after its requirements are checked. -/
  | doorMode (l : Letter)
  /-- DOOR_OPEN (R236): Makes the sequencer open the door with a profile and hold time, as the door state allows. -/
  | doorOpen (l : Letter)
  /-- DOOR_CLOSE (R236): Makes the sequencer close or nudge the door, or make a homing close, as the door state allows. -/
  | doorClose (l : Letter)
  /-- DOOR_STOP (R254): Stops the door, cancels holds and automatic closes, and ends outstanding door letters FAILED. -/
  | doorStop (l : Letter)
  /-- DOOR_LIMITS (R252): Sets the closing force limit and kinetic energy limit, in force from the next tick. -/
  | doorLimits (l : Letter)
  /-- LOOP_CONFIG (R134): Copies a slot descriptor into a slot, leaving it configured and OFF, or unconfigures the slot. -/
  | loopConfig (l : Letter)
  /-- LOOP_MODE (R149): Sets a slot's mode at its next sample, with a hand-over where required. -/
  | loopMode (l : Letter)
  /-- COEF_BANK (R157): Copies a coefficient set into a slot's bank, with a preset if the bank is in use. -/
  | coefBank (l : Letter)
  /-- SCHED_SET (R159): Sets up or turns off the gain schedule over a slot mask from a region table. -/
  | schedSet (l : Letter)
  /-- INJECT (R184): Adds a sequence of table values to one slot at an injection point, one per sample. -/
  | inject (l : Letter)
  /-- CAPTURE (R186): Arms a capture of the selected signals from a trigger into the capture buffer. -/
  | capture (l : Letter)
  /-- GROUP_JOIN (R301): Starts joining the group with a car number and bus mask, beginning with the listen step. -/
  | groupJoin (l : Letter)
  /-- GROUP_LEAVE (R303): Sends the next slot with LEAVING set and then leaves the group. -/
  | groupLeave (l : Letter)
  /-- POLICY_SET (R288): Checks and stages a policy table for a later seal. -/
  | policySet (l : Letter)
  /-- FLIGHT_SET (R288): Checks and stages a flight-time table for a later seal. -/
  | flightSet (l : Letter)
  /-- CALL_ENTER (R278): Queues a request frame for the next open window, or forwards it over the car link in a car station. -/
  | callEnter (l : Letter)
  /-- CALL_CANCEL (R278): Queues a cancel frame for the next open window, or forwards it over the car link. -/
  | callCancel (l : Letter)
  /-- LOCK_LOAD (R338): Checks an interlock image and holds it as pending. -/
  | lockLoad (l : Letter)
  /-- LOCK_COMMIT (R339): Copies the pending image to both evaluators when parked and checks its CRC. -/
  | lockCommit (l : Letter)
  /-- LOCK_TEST_BRIDGE (R328): Test 1 waits for the next bridging test to pass or fail and reports its outcome. -/
  | lockTestBridge (l : Letter)
  /-- LOCK_TEST_STO (R332): Test 2 starts the four-step safe torque off path test against the drive feedback. -/
  | lockTestSto (l : Letter)
  /-- WATCH_CHANGE (R376): Starts a changing of the watch at once, if the VG63 is ready. -/
  | watchChange (l : Letter)
  /-- WATCH_SET (R375): Sets the minute of day and the enable of the daily watch change. -/
  | watchSet (l : Letter)
  /-- MILL_START_TICK (R396): Start code 0 sets the entry address and arms the mill as a tick program in TICK_IDLE. -/
  | millStartTick (l : Letter)
  /-- MILL_START_ONCE (R396): Start code 1 sets the entry address and runs the program once, in state ONCE. -/
  | millStartOnce (l : Letter)
  /-- MILL_STOP (R399): Stops the mill in the next cycle and leaves it in STOPPED. -/
  | millStop (l : Letter)
  /-- MILL_FETCH (R394): Sets the fetch arrangement of the mills, if no affected mill is running. -/
  | millFetch (l : Letter)
  /-- OUT_SET (R436): Writes the commanded values of the masked outputs together. -/
  | outSet (l : Letter)
  /-- IN_READ (R430): Returns the input image and validity bits. -/
  | inRead (l : Letter)
  /-- OUT_RESTORE_GROUP (R443): Kind 0 restores a shed group once the shed threshold is no longer entered. -/
  | outRestoreGroup (l : Letter)
  /-- OUT_RESTORE_CHANNEL (R439): Kind 1 restores a latched-off channel once its cause has ended. -/
  | outRestoreChannel (l : Letter)
  /-- COUNTER_CONFIG (R432): Sets input 0–7 to sampled, counter or frequency mode at the next tick instant. -/
  | counterConfig (l : Letter)
  /-- CAN_MODE (R452): Sets a CAN controller to initialisation, normal, listen-only or off. -/
  | canMode (l : Letter)
  /-- CAN_FILTER (R462): Writes a filter element of a controller in initialisation. -/
  | canFilter (l : Letter)
  /-- CAN_TX (R466): Loads a frame into a transmit buffer and makes it pending. -/
  | canTx (l : Letter)
  /-- CAN_CANCEL (R468): Requests cancellation of a pending transmit buffer and reports whether it was late. -/
  | canCancel (l : Letter)
  /-- CAN_READ (R465): Returns a buffer or FIFO head record, clearing NEW and LOST or removing the FIFO frame. -/
  | canRead (l : Letter)
  /-- LINK_MODE_START (R494): Action 1 starts the car link through PHY_WAIT and SYNC to UP. -/
  | linkModeStart (l : Letter)
  /-- LINK_MODE_STOP (R494): Action 0 stops the car-link frames at the next cycle instant. -/
  | linkModeStop (l : Letter)
  /-- POWER_MODE (R510): Checks and accepts entry into DOZE, PARK or SLEEP with a wake source mask. -/
  | powerMode (l : Letter)
  /-- RESCUE_START (R520): Chooses a rescue direction and landing and starts the rescue move under mains loss. -/
  | rescueStart (l : Letter)
  /-- IMAGE_WRITE (R532): Programs firmware-section bytes of a bank that is not running. -/
  | imageWrite (l : Letter)
  /-- IMAGE_VERIFY (R533): Checks a bank's firmware and configuration copies and sets VERIFIED. -/
  | imageVerify (l : Letter)
  /-- IMAGE_ACTIVATE (R533): Writes the activation record for a verified bank, in force from the next module reset. -/
  | imageActivate (l : Letter)
  /-- LC_TRANSITION (R536): Writes the new life-cycle state and makes a module reset with cause LIFECYCLE. -/
  | lcTransition (l : Letter)
  /-- ABORT (R82): Addresses an action by port and sequence number, to be halted at the end of the tick. -/
  | abort (l : Letter)
  /-- ABORT_TAKES_EFFECT (R83): At t(k + 1), the target is halted or completion wins, and both receipts are decided. -/
  | abortTakesEffect (dt : Nat)
  /-- SESSION_OPEN_CHALLENGE (R64): Step 1 issues a fresh random challenge for the port. -/
  | sessionOpenChallenge (l : Letter)
  /-- SESSION_OPEN_PROVE (R64): Step 2 checks the tag over the challenge and opens or restarts the privileged session. -/
  | sessionOpenProve (l : Letter)
  /-- SESSION_OPEN_CLOSE (R67): Step 3 closes the session. -/
  | sessionOpenClose (l : Letter)
  /-- SESSION_TIMEOUT (R67): No class 3 letter answered DONE for TIMEOUT seconds ends the session. -/
  | sessionTimeout (dt : Nat)
  /-- SESSION_LOCKOUT_END (R68): The 60 s lockout after three tag failures ends. -/
  | sessionLockoutEnd (dt : Nat)
  /-- SYS_BGEN_WRITE (R9): A write of GEN_NEXT is stored in the next-value record for the next module reset. -/
  | sysBgenWrite (h : Head) (v : Word)
  /-- SYS_TICK_WRITE (R26): A write of PERIOD_NEXT is checked and stored in the next-value record. -/
  | sysTickWrite (h : Head) (v : Word)
  /-- LETTER_BUDGET_WRITE (R531): A write of BUDGET_NEXT is stored in the next-value record, and WINDOW takes effect. -/
  | letterBudgetWrite (h : Head) (v : Word)
  /-- LETTER_SHARE_WRITE (R86): A share write is refused if the sum of shares would exceed the budget. -/
  | letterShareWrite (h : Head) (p : Fin 6) (v : Word)
  /-- POSITION_HI_WRITE (R91): Writing the _HI half of a 64-bit position puts the pending low half and the high half in force together. -/
  | positionHiWrite (h : Head) (lo : Fin 18) (v : Word)
  /-- ENC_FAULT_CLEAR (R201): A write of 1 to ENCk_STAT.FAULT clears it only if its cause is absent. -/
  | encFaultClear (h : Head) (k : Fin 3) (v : Word)
  /-- SSI0_CONFIG_WRITE (R204): A write to SSI0_CFG or SSI0_TIMING is checked against the read-timing rule when it leaves EN set. -/
  | ssi0ConfigWrite (h : Head) (timing : Bool) (v : Word)
  /-- SENSE_LAND_COUNT_WRITE (R210): A write of COUNT copies and checks the landing-level table. -/
  | senseLandCountWrite (h : Head) (v : Word)
  /-- LOOP_BANK_WRITE (R158): Changing LOOPs_CTL.BANK switches the bank at the next sample, with a preset. -/
  | loopBankWrite (h : Head) (n : Fin 16) (v : Word)
  /-- COEF_WRITE (R164): A single coefficient write is applied at once or queued, one per sample, after a stability check. -/
  | coefWrite (h : Head) (n : Fin 16) (b : Fin 2) (k : Fin 42) (v : Word)
  /-- NOTCH_EN_WRITE (R167): Setting or clearing NOTCH_CFG.EN is checked and places the notch on a section. -/
  | notchEnWrite (h : Head) (v : Word)
  /-- HOIST_K_WRITE (R172): A write of the carrier factor K is checked for validity and for OFF current slots. -/
  | hoistKWrite (h : Head) (v : Word)
  /-- HOIST_TRIP_CLEAR (R180): A write of 1 to HOIST_STAT.TRIP clears it only while every current-rate slot is OFF. -/
  | hoistTripClear (h : Head) (v : Word)
  /-- COG_ADDR_WRITE (R170): A new cogging table address takes effect at the next sample and frees the old range. -/
  | cogAddrWrite (h : Head) (v : Word)
  /-- LOOP_MILL_WRITE (R185): Setting LOOPs_CTL.MILL assigns a mill injection to the slot, unless an INJECT is active. -/
  | loopMillWrite (h : Head) (n : Fin 16) (v : Word)
  /-- LOOP_CAPSEL_WRITE (R188): A capture signal code is checked and selected, unless a capture is running. -/
  | loopCapselWrite (h : Head) (k : Fin 16) (v : Word)
  /-- DOOR_FAULT_CLEAR (R257): A write of 1 to DOOR_STAT.FAULT clears it only if the stage fault's cause is absent. -/
  | doorFaultClear (h : Head) (v : Word)
  /-- DOOR_POSITION_WRITE (R225): Writing the _HI half of POS_CLOSED or POS_OPEN is checked for the travel range. -/
  | doorPositionWrite (h : Head) (opened : Bool) (v : Word)
  /-- LOCK_CAUSE_CLEAR (R324): A write of 1 to a latched cause bit clears it if its conditions hold, and posts SAFE_STOP_CLEARED. -/
  | lockCauseClear (h : Head) (v : Word)
  /-- LANE_TKSTOP_WRITE (R369): A write of 0 clears cause TAKEOVER if every ramp unit is at standstill and the stile is in state 0 or 1. -/
  | laneTkstopWrite (h : Head) (v : Word)
  /-- MILL_FLAGS_CLEAR (R408): A write of 1 clears the mill's sticky flags. -/
  | millFlagsClear (h : Head) (m : Fin 4) (v : Word)
  /-- MILL_SIG_WRITE (R413): A write of 1 raises the SIG event source of a running mill. -/
  | millSigWrite (h : Head) (m : Fin 4) (v : Word)
  /-- MILL_EVVEC_WRITE (R424): Sets the event handler address of a mill that is not running. -/
  | millEvvecWrite (h : Head) (m : Fin 4) (v : Word)
  /-- FIO_LINKOFF_CLEAR (R444): A write of 1 clears LINKOFF once field-link frames have resumed. -/
  | fioLinkoffClear (h : Head) (v : Word)
  /-- CAN_LOCK_WRITE (R463): Releasing a buffer lock moves a full shadow's frame into the buffer. -/
  | canLockWrite (h : Head) (c : Fin 3) (w : Fin 8) (v : Word)
  /-- CAN_BIT_TIMING_WRITE (R454): A write of CANx_NBT or CANx_DBT is checked against the bit-timing ranges. -/
  | canBitTimingWrite (h : Head) (c : Fin 3) (data : Bool) (v : Word)
  /-- GROUP_CFG_WRITE (R266): A write of GROUP_CFG or GROUP_TIMING is checked against the round-layout inequality and GROUP state. -/
  | groupCfgWrite (h : Head) (timing : Bool) (v : Word)
  /-- SYS_KEYCTL_WRITE (R534): A CRC written to KEYCTL stores the staged privileged key if it matches, and clears the staging. -/
  | sysKeyctlWrite (h : Head) (v : Word)
  /-- ENC_PWR_RESTORE (R505): Writing ENCPWR 0 and then 1 switches ENC_PWR on again after a fault. -/
  | encPwrRestore (h : Head) (v : Word)
  /-- LIMIT_STOP (R123): An accepted limit edge in the guarded direction starts the configured stop and fails the move. -/
  | limitStop (dt : Nat) (u : Fin 4) (k : Fin 4)
  /-- HOME_REARM_END (R126): After backing off the reference, standstill and the re-arm window both passing start the search of step 3. -/
  | homeRearmEnd (dt : Nat) (u : Fin 4)
  /-- HOME_CAPTURE (R126): The first reference edge captures position and postmark and starts a ramp stop. -/
  | homeCapture (dt : Nat) (u : Fin 4) (cap : Int)
  /-- HOME_ADJUST (R126): At standstill after the capture, the offset and held position are moved by HOMEPOS − capture, and the creep move starts. -/
  | homeAdjust (dt : Nat) (u : Fin 4)
  /-- HOME_SEARCH_EXHAUSTED (R126): Step 3 travelling HOMEMAX without an edge makes a ramp stop and fails HOME. -/
  | homeSearchExhausted (dt : Nat) (u : Fin 4)
  /-- HOME_LIMIT (R127): A limit edge during homing starts a hard stop and fails HOME. -/
  | homeLimit (dt : Nat) (u : Fin 4) (input : Fin 48)
  /-- ENC_FAULT (R200): An encoder amplitude, count, Z, line, range or Hall fault sets FAULT and makes the source invalid. -/
  | encFault (dt : Nat) (k : Fin 3) (samples : List EncSample) (lineOk : Bool)
  /-- ENC_ABS_ANGLE_SET (R197): After 50 µs of C/D reading at enabling, the absolute angle origin is set. -/
  | encAbsAngleSet (dt : Nat) (c d : Int)
  /-- ENC_Z_SYNC (R197): The first Z mark with ABS 2 corrects the angle once and sets ZSYNC. -/
  | encZSync (dt : Nat) (k : Fin 3) (enc : List EncSample)
  /-- SSI_READ (R203): An SSI read completes and is checked, and the tape position and speed are updated from it. -/
  | ssiRead (dt : Nat) (x : SsiIn)
  /-- SD_FAULT (R213): A modulator data line stuck for 512 clocks makes the channel invalid. -/
  | sdFault (dt : Nat) (x : SdIn)
  /-- POSITION_MISMATCH (R209): |D| above the window for TIME ticks sets MISMATCH. -/
  | positionMismatch (dt : Nat)
  /-- DOOR_MODULATOR_UPDATE (R226): Every 8 µs, the door modulator computes the duties of H1–H4 from the motor model. -/
  | doorModulatorUpdate (dt : Nat) (x : DoorIn)
  /-- LEGACY_STEP (R233): A step edge on STEPIN changes the legacy target count by ±Δ. -/
  | legacyStep (dt : Nat) (x : LegacyIn)
  /-- DOOR_OBSTRUCTED (R245): An obstruction input active during a close hard-stops the door and sets REVERSING. -/
  | doorObstructed (dt : Nat) (k : Fin 4)
  /-- DOOR_STALL (R248): F_r at or above F_OBS for OBSTIME reverses or stops the door. -/
  | doorStall (dt : Nat)
  /-- DOOR_OPEN_TIMEOUT (R238): An open not complete within OPEN_TIME ramp-stops the door and fails DOOR_OPEN. -/
  | doorOpenTimeout (dt : Nat)
  /-- DOOR_CLOSE_TIMEOUT (R240): A close not locked within CLOSE_TIME ramp-stops the door and fails DOOR_CLOSE. -/
  | doorCloseTimeout (dt : Nat)
  /-- DOOR_REOPEN (R245): At standstill after a reversal or time-out, the sequencer opens the door with the close's profile. -/
  | doorReopen (dt : Nat)
  /-- DOOR_HOLD_EXPIRY (R241): The hold time expires and an automatic close starts, or the hold restarts. -/
  | doorHoldExpiry (dt : Nat)
  /-- DOOR_NUDGE (R241): NUDGE_AFTER expiring without a locked close makes later automatic closes nudges. -/
  | doorNudge (dt : Nat)
  /-- STAGE_FAULT (R256): A stage overcurrent, I²t, overtemperature or supply fault switches the stage off and latches FAULT. -/
  | stageFault (dt : Nat) (kind : Fin 6) (value : Int)
  /-- INTERLOCK_EVALUATION (R311): Every 8 µs, both evaluators take a snapshot and evaluate terms, permits and monitors, and gate the outputs. -/
  | interlockEvaluation (dt : Nat) (x : EvalIn)
  /-- BRIDGE_FAIL (R327): BRIDGE_TIME expiring with the trigger still true latches cause BRIDGE. -/
  | bridgeFail (dt : Nat)
  /-- LOCK_DISCREPANCY (R314): Discrepancy inputs differing for TIME latch the element. -/
  | lockDiscrepancy (dt : Nat) (k : Fin 16)
  /-- DELAY_ELEMENT_EXPIRY (R314): An on-delay or off-delay element reaches TIME and changes its output. -/
  | delayElementExpiry (dt : Nat) (k : Fin 16)
  /-- LOCK_DISAGREE (R318): The evaluators disagreeing in two consecutive evaluations latches cause DISAGREE. -/
  | lockDisagree (dt : Nat)
  /-- SAFETY_CHAIN_OPEN (R325): An alarm tap de-energises after FILT agreeing samples, putting cause CHAIN in force. -/
  | safetyChainOpen (dt : Nat) (k : Fin 12)
  /-- LOCK_IMAGE_CHECK (R321): At least once a second, each evaluator recomputes the CRC of its image. -/
  | lockImageCheck (dt : Nat) (bad1 : Bool) (bad2 : Bool)
  /-- LOCK_COMMITTED (R339): At the first evaluation at which both evaluators hold the committed image, they switch to it if the VG63 is still parked. -/
  | lockCommitted (dt : Nat) (bad : Bool)
  /-- STO_TEST_STEP (R332): At the end of each T_FB step, the feedback is checked and the next step of the STO test starts. -/
  | stoTestStep (dt : Nat)
  /-- STO_TEST_DUE (R333): DUE hours pass without a passed test, and condition 118 becomes false. -/
  | stoTestDue (dt : Nat)
  /-- LANE_FAULT (R349): A lockstep mismatch or uncorrectable private-memory word in the active lane is reported to the stile and starts a takeover. -/
  | laneFault (dt : Nat) (x : LaneFaultIn)
  /-- WDOG_EXPIRED (R350): WDT tick instants without a watchdog service report a fault to the stile. -/
  | wdogExpired (dt : Nat)
  /-- TAKEOVER (R365): The new lane finishes boot, decision, load and replay, and is granted the active role. -/
  | takeover (dt : Nat) (bad0 bad1 : Bool) (replay : ReplayIn)
  /-- PARCEL_STALE (R363): Three tick instants without an accepted heartbeat make the standby's view stale. -/
  | parcelStale (dt : Nat)
  /-- STANDBY_READY (R370): A lane reset completes and its keeper accepts a heartbeat, or the lane is found unfit. -/
  | standbyReady (dt : Nat) (laneB : Bool) (failed : Fin 4)
  /-- STILE_FAULT (R353): The stile's two arbiters disagree, so every output enable is withdrawn until a module reset. -/
  | stileFault (dt : Nat)
  /-- WATCH_DUE (R376): The scheduled minute of day begins and the watch change becomes due. -/
  | watchDue (dt : Nat)
  /-- WATCH_CHANGE_START (R377): At the first tick instant at which the VG63 is ready, a planned hand-over starts after the seal. -/
  | watchChangeStart (dt : Nat)
  /-- WATCH_CHANGED (R377): The incoming lane is granted the active role and the outgoing lane receives a lane reset. -/
  | watchChanged (dt : Nat)
  /-- WATCH_SKIPPED (R376): WINDOW minutes pass without readiness, and the change waits for the next scheduled minute. -/
  | watchSkipped (dt : Nat)
  /-- MILL_TICK_START (R397): At 10 µs after a tick instant, each mill in TICK_IDLE enters TICK_RUN at its entry address. -/
  | millTickStart (dt : Nat)
  /-- MILL_EVENT_ENTRY (R414): A pending mill event is taken at an allowed instruction boundary and the handler starts in bank 1. -/
  | millEventEntry (m : Fin 4)
  /-- MILL_NOP (R418): Does nothing. -/
  | millNop (m : Fin 4) (stall : Nat)
  /-- MILL_HALT (R397): Ends the run. -/
  | millHalt (m : Fin 4) (stall : Nat)
  /-- MILL_MOV (R418): d := a. -/
  | millMov (m : Fin 4) (stall : Nat)
  /-- MILL_ADD (R405): d := a + b, with optional saturation, setting the flags. -/
  | millAdd (m : Fin 4) (stall : Nat)
  /-- MILL_SUB (R405): d := a − b, with optional saturation, setting the flags. -/
  | millSub (m : Fin 4) (stall : Nat)
  /-- MILL_NEG (R405): d := −a. -/
  | millNeg (m : Fin 4) (stall : Nat)
  /-- MILL_ABS (R405): d := |a|. -/
  | millAbs (m : Fin 4) (stall : Nat)
  /-- MILL_MIN (R418): d := the smaller of a and b, signed. -/
  | millMin (m : Fin 4) (stall : Nat)
  /-- MILL_MAX (R418): d := the larger of a and b, signed. -/
  | millMax (m : Fin 4) (stall : Nat)
  /-- MILL_AND (R418): Bitwise and. -/
  | millAnd (m : Fin 4) (stall : Nat)
  /-- MILL_OR (R418): Bitwise or. -/
  | millOr (m : Fin 4) (stall : Nat)
  /-- MILL_XOR (R418): Bitwise exclusive or. -/
  | millXor (m : Fin 4) (stall : Nat)
  /-- MILL_NOT (R418): Bitwise complement. -/
  | millNot (m : Fin 4) (stall : Nat)
  /-- MILL_SHL (R405): Shift left, with optional saturation. -/
  | millShl (m : Fin 4) (stall : Nat)
  /-- MILL_ASR (R418): Arithmetic shift right. -/
  | millAsr (m : Fin 4) (stall : Nat)
  /-- MILL_LSR (R418): Logical shift right. -/
  | millLsr (m : Fin 4) (stall : Nat)
  /-- MILL_CMP (R405): Sets the flags from a − b. -/
  | millCmp (m : Fin 4) (stall : Nat)
  /-- MILL_MOVI (R418): d := imm16, sign-extended. -/
  | millMovi (m : Fin 4) (stall : Nat)
  /-- MILL_MOVU (R418): d := imm16, zero-extended. -/
  | millMovu (m : Fin 4) (stall : Nat)
  /-- MILL_LDX (R401): Loads d from X memory at a generated address. -/
  | millLdx (m : Fin 4) (stall : Nat)
  /-- MILL_LDY (R401): Loads d from Y memory at a generated address. -/
  | millLdy (m : Fin 4) (stall : Nat)
  /-- MILL_STX (R401): Stores d to X memory or the window at a generated address. -/
  | millStx (m : Fin 4) (stall : Nat)
  /-- MILL_STY (R401): Stores d to Y memory at a generated address. -/
  | millSty (m : Fin 4) (stall : Nat)
  /-- MILL_MOVAI (R402): Sets the pointer of An from imm16. -/
  | millMovai (m : Fin 4) (stall : Nat)
  /-- MILL_SETB (R402): Sets BASEn. -/
  | millSetb (m : Fin 4) (stall : Nat)
  /-- MILL_SETL (R402): Sets LENn. -/
  | millSetl (m : Fin 4) (stall : Nat)
  /-- MILL_MOVDA (R418): Sets the pointer of An from a data register. -/
  | millMovda (m : Fin 4) (stall : Nat)
  /-- MILL_MOVAD (R418): d := the pointer of An. -/
  | millMovad (m : Fin 4) (stall : Nat)
  /-- MILL_MPY (R406): ac := a × b. -/
  | millMpy (m : Fin 4) (stall : Nat)
  /-- MILL_MAC (R406): ac := ac + a × b. -/
  | millMac (m : Fin 4) (stall : Nat)
  /-- MILL_MSU (R406): ac := ac − a × b. -/
  | millMsu (m : Fin 4) (stall : Nat)
  /-- MILL_MACXY (R404): ac := ac + X × Y from two generated addresses. -/
  | millMacxy (m : Fin 4) (stall : Nat)
  /-- MILL_MSUXY (R404): ac := ac − X × Y from two generated addresses. -/
  | millMsuxy (m : Fin 4) (stall : Nat)
  /-- MILL_CLRA (R418): ac := 0. -/
  | millClra (m : Fin 4) (stall : Nat)
  /-- MILL_ACCLD (R406): ac := a × 2^sh. -/
  | millAccld (m : Fin 4) (stall : Nat)
  /-- MILL_ACCADD (R406): ac := ac + a × 2^sh. -/
  | millAccadd (m : Fin 4) (stall : Nat)
  /-- MILL_EXT (R407): d := ac / 2^sh, rounded and optionally saturated. -/
  | millExt (m : Fin 4) (stall : Nat)
  /-- MILL_B (R411): Branch if the condition holds, with two delay slots. -/
  | millB (m : Fin 4) (stall : Nat)
  /-- MILL_CALL (R411): Call if the condition holds, writing the link into D15. -/
  | millCall (m : Fin 4) (stall : Nat)
  /-- MILL_RET (R411): Return to D15 if the condition holds. -/
  | millRet (m : Fin 4) (stall : Nat)
  /-- MILL_LOOP (R412): Starts a hardware loop over the following len words. -/
  | millLoop (m : Fin 4) (stall : Nat)
  /-- MILL_ENDL (R412): Removes the innermost loop. -/
  | millEndl (m : Fin 4) (stall : Nat)
  /-- MILL_RTE (R415): Returns from an event handler to EPC in bank 0. -/
  | millRte (m : Fin 4) (stall : Nat)
  /-- MILL_CLRF (R408): Clears the sticky flags in the mask. -/
  | millClrf (m : Fin 4) (stall : Nat)
  /-- MILL_MOVL (R418): d := imm32. -/
  | millMovl (m : Fin 4) (stall : Nat)
  /-- MILL_ADDL (R405): d := a + imm32. -/
  | millAddl (m : Fin 4) (stall : Nat)
  /-- MILL_ANDL (R418): d := a and imm32. -/
  | millAndl (m : Fin 4) (stall : Nat)
  /-- MILL_CMPL (R405): Sets the flags from a − imm32. -/
  | millCmpl (m : Fin 4) (stall : Nat)
  /-- MILL_LDXA (R418): Loads d from an absolute X word. -/
  | millLdxa (m : Fin 4) (stall : Nat)
  /-- MILL_LDYA (R418): Loads d from an absolute Y word. -/
  | millLdya (m : Fin 4) (stall : Nat)
  /-- MILL_STXA (R390): Stores d to an absolute X word, including injection and OUT words. -/
  | millStxa (m : Fin 4) (stall : Nat)
  /-- MILL_STYA (R418): Stores d to an absolute Y word. -/
  | millStya (m : Fin 4) (stall : Nat)
  /-- BELL_STROKE_TX (R476): The bell sends its stroke at the nominal instant, carrying its postmark at start of frame. -/
  | bellStrokeTx (dt : Nat)
  /-- BELL_STROKE (R280): The first valid stroke of a round seals the postbag, runs the sorting office, composes the own slot and steers group time. -/
  | bellStroke (dt : Nat) (x : StrokeIn)
  /-- STATUS_SLOT_TX (R273): At the start of its own slot, the station loads its status slot for transmission. -/
  | statusSlotTx (dt : Nat) (x : CarIn)
  /-- SLOT_LATE_CANCEL (R273): A status slot not started by T_slot − 125 µs is cancelled and counted. -/
  | slotLateCancel (dt : Nat)
  /-- STATUS_SLOT_RX (R274): A received status slot is checked and recorded for the round. -/
  | statusSlotRx (dt : Nat) (busB : Bool) (sender : Fin 64) (qual : Fin 4096) (data : List Byte)
  /-- CAR_NUMBER_TWIN (R302): The own car number is seen from elsewhere, or a slot or claim ends in TWIN, so the station stops sending. -/
  | carNumberTwin (dt : Nat) (x : TwinIn)
  /-- REFERENCE_DIGEST (R295): At the end of the last slot, the reference digest and P are fixed, and mute states follow. -/
  | referenceDigest (dt : Nat)
  /-- REQUEST_FRAME (R280): A request frame ending in the open window is collected for the next seal. -/
  | requestFrame (dt : Nat) (busB : Bool) (panel : Fin 4096) (sender : Fin 64) (data : BitVec 64)
  /-- CANCEL_FRAME (R280): A cancel frame is collected for the next seal. -/
  | cancelFrame (dt : Nat) (busB : Bool) (panel : Fin 4096) (sender : Fin 64) (data : BitVec 64)
  /-- CALL_FRAME_TX_DROP (R278): A queued request frame not started by the quiet gap is dropped and counted. -/
  | callFrameTxDrop (dt : Nat)
  /-- JOIN_LISTEN_TIMEOUT (R301): No stroke within 3 × T_round while listening makes the station found a bell. -/
  | joinListenTimeout (dt : Nat)
  /-- JOIN_CLAIM (R301): After two heard rounds, the joining station sends its join claim in the open window. -/
  | joinClaim (dt : Nat)
  /-- BELL_MISSING (R481): No valid stroke by t_0 + T_round + 500 µs enters HOLDOVER and ranks a replacement bell. -/
  | bellMissing (dt : Nat)
  /-- BELL_YIELDED (R482): A bell whose stroke loses arbitration to a valid stroke stops being the bell. -/
  | bellYielded (dt : Nat) (x : StrokeIn)
  /-- GROUP_BUS_LOST (R305): A group bus that is bus-off, or without strokes for two rounds, is lost. -/
  | groupBusLost (dt : Nat) (bus : Fin 2)
  /-- RESYNC_REQUEST (R297): A resync request makes the source snapshot its postbag at its next seal and send it. -/
  | resyncRequest (dt : Nat) (car : Fin 64)
  /-- RESYNC_DATA (R299): A received resync data frame adds to the snapshot, or restarts the resync on a gap. -/
  | resyncData (dt : Nat) (sender : Fin 64) (car : Fin 64) (data : List Byte)
  /-- RESYNC_REPLAY (R299): In each open window, the mute station replays up to 8 logged rounds from the snapshot. -/
  | resyncReplay (dt : Nat)
  /-- CAN_FRAME_RX (R463): A received frame is given to fixed takers and filters and stored in a buffer, shadow or FIFO. -/
  | canFrameRx (dt : Nat) (c : Fin 3) (f : CanFrame) (ok : Bool) (age : Nat) (x : BusIn)
  /-- CAN_TX_CHOICE (R467): At start of frame, the controller chooses one pending buffer to send. -/
  | canTxChoice (dt : Nat) (c : Fin 3)
  /-- CAN_TX_END (R466): A transmitted frame ends in success, a lost arbitration or an error, and its CAN_TX ends or is retried. -/
  | canTxEnd (dt : Nat) (c : Fin 3) (r : TxEnd) (x : BusIn)
  /-- TWIN (R471): TWINMAX consecutive data-field bit errors post TWIN and may stop the buffer. -/
  | twin (dt : Nat) (c : Fin 3) (b : Fin 256)
  /-- BUS_OFF (R472): The controller enters bus-off and cancels its pending buffers. -/
  | busOff (dt : Nat) (c : Fin 3) (x : BusIn)
  /-- BUS_OFF_RECOVERY_START (R473): BODELAY expires and the recovery sequence starts. -/
  | busOffRecoveryStart (dt : Nat) (c : Fin 3)
  /-- BUS_RECOVERED (R472): The recovery sequence completes and the controller is error active. -/
  | busRecovered (dt : Nat) (c : Fin 3) (seqs : Nat)
  /-- CAN_INTEGRATION_DONE (R452): 11 recessive bits end the integration wait and the controller takes part on the bus. -/
  | canIntegrationDone (dt : Nat) (c : Fin 3)
  /-- CAR_LINK_CYCLE (R489): At each cycle instant, a frame is sent and missed cycles are counted. -/
  | carLinkCycle (x : CycleIn)
  /-- CAR_LINK_FRAME_RX (R492): A received car-link frame is checked and its data, time echoes and letter segment are taken. -/
  | carLinkFrameRx (dt : Nat) (x : LinkFrameIn)
  /-- CAR_LINK_DOWN (R495): A third consecutive missed cycle makes the link DOWN. -/
  | carLinkDown (dt : Nat)
  /-- PHY_STATUS_POLL (R488): Every 1 ms, the PHY's link status is read. -/
  | phyStatusPoll (dt : Nat) (up : Bool)
  /-- LINK_PHY_TIMEOUT (R494): No PHY link within 5 s fails the start. -/
  | linkPhyTimeout (dt : Nat)
  /-- LINK_SYNC_TIMEOUT (R494): No UP within 5 s of PHY link fails the start. -/
  | linkSyncTimeout (dt : Nat)
  /-- BLIND_LEVELLING (R496): At the next letter window after CAR_LINK_DOWN, the machine station stops at the next reachable landing on ENC0. -/
  | blindLevelling (dt : Nat) (f : BitVec 16) (addr : Word) (segs : List Byte)
  /-- LINK_OPEN_ON_LOSS (R497): With the link down, 1 s at low tape speed in the zone with the open permit opens the door. -/
  | linkOpenOnLoss (dt : Nat)
  /-- LINK_DOOR_HOLD_EXPIRY (R497): LINK_DOOR.HOLD expires and the door opened on loss closes. -/
  | linkDoorHoldExpiry (dt : Nat)
  /-- FIELD_LINK_FRAME (R21): Every 8 µs, a checked field-link frame carries commands and permits or inputs and diagnostics. -/
  | fieldLinkFrame (dt : Nat) (toField : Bool) (ok : Bool) (x : DiagIn)
  /-- FIELD_LINK_FAULT (R21): Three periods without a valid frame switch off every output and the door stage. -/
  | fieldLinkFault (dt : Nat)
  /-- INPUT_SAMPLE (R426): A bank's sampling window ends, and each input's raw sample is debounced into the image. -/
  | inputSample (dt : Nat) (bank : Fin 6) (mv : Vector Int 8)
  /-- COUNTER_EDGE (R433): An edge into the active state of a counter or frequency input is counted and postmarked. -/
  | counterEdge (dt : Nat) (n : Fin 8) (high : Bool)
  /-- COUNTER_GATE_END (R433): A frequency gate ends and f is computed from its edges. -/
  | counterGateEnd (dt : Nat) (n : Fin 8)
  /-- OUTPUT_DIAG_CHECK (R438): A check of an output that is off tests for backfeed and open load. -/
  | outputDiagCheck (dt : Nat) (k : Fin 32) (mv : Nat) (temp : Int)
  /-- OVERLOAD (R438): An output at current limit for OVLTIME is latched off. -/
  | overload (dt : Nat) (x : OverIn)
  /-- DRIVER_OVERTEMP (R438): A driver above 160 °C is latched off within 10 µs. -/
  | driverOvertemp (dt : Nat) (k : Fin 32) (temp : Int)
  /-- GROUP_OVERCURRENT (R438): A group current above 4.0 A for GRPTIME latches off its highest-current channel. -/
  | groupOvercurrent (dt : Nat) (x : GroupOverIn)
  /-- VFIELD_SAMPLE (R440): Every 8 µs, VFIELD is measured against the low, shed and input thresholds. -/
  | vfieldSample (dt : Nat) (mv : Nat)
  /-- FIELD_SHED (R442): Shed groups switch off at entry and then one per SHEDSTEP. -/
  | fieldShed (dt : Nat)
  /-- FIELD_RESTORED (R443): After RESTTIME at or above 17.5 V, one AUTO shed group is restored per RESTTIME. -/
  | fieldRestored (dt : Nat)
  /-- STANDBY_IDLE_EXPIRY (R445): The idle time reaches LIGHT_IDLE or VENT_IDLE and those outputs are held off. -/
  | standbyIdleExpiry (dt : Nat)
  /-- SCRUBBER_PASS (R40): The scrubber reads a memory word, correcting or acting on any error found. -/
  | scrubberPass (dt : Nat) (addr : Nat) (error : Fin 3)
  /-- EVT_LOST (R45): When the ring next has room after overwrites, EVT_LOST is posted with the count. -/
  | evtLost (dt : Nat)
  /-- MAINS_LOSS (R517): Mains lost switches to VKEEP, enters RUN and sheds SHEDMASK groups.
`vlog`, `low`: VLOG in mV and whether MAINS_SENSE is low in the four latest 8 µs samples; `vkeep` in mV. -/
  | mainsLoss (dt : Nat) (vlog : Vector Nat 4) (vkeep : Nat) (low : Vector Bool 4)
  /-- MAINS_RESTORED (R518): Mains present again switches back to VLOG and schedules restoration.
`since`: the instant from which VLOG and MAINS_SENSE have met R516. -/
  | mainsRestored (dt vlog : Nat) (x : MainsIn)
  /-- VKEEP_LOW (R571): VKEEP crossing below VKEEPLOW is posted; `mv`: the four latest 8 µs samples. -/
  | vkeepLow (dt : Nat) (mv : Vector Nat 4)
  /-- RESCUE_AUTO_START (R519): DELAY seconds after mains loss, out of level at standstill, the lane posts RESCUE_START. -/
  | rescueAutoStart (dt : Nat)
  /-- RESCUE_LEVEL_CHECK (R521): After the rescue MOVE_TRAP ends, RESCUE_START ends DONE at level or FAILED after 1 s. -/
  | rescueLevelCheck (dt : Nat)
  /-- POWER_MODE_ENTRY (R511): At the end of the seal interval, the VG63 enters DOZE, PARK or SLEEP, stopping the link and CAN as required. -/
  | powerModeEntry (dt : Nat)
  /-- WAKE (R514): A wake source in force raises the VG63 to RUN. -/
  | wake (dt : Nat) (src : Fin 14)
  /-- IDLE_TIMEOUT (R515): The parked idle time reaches PWR_IDLE.IDLE and a POWER_MODE is posted. -/
  | idleTimeout (dt : Nat)
  /-- CLOCK_FAULT (R507): A crystal or PLL fault makes a module reset or clears XTAL32_OK. -/
  | clockFault (dt : Nat) (source : Fin 3)
  /-- ENC_PWR_FAULT (R505): ENC_PWR above 350 mA is switched off. -/
  | encPwrFault (dt ma : Nat)
  /-- OVERTEMP (R541): A die passing 115 °C is posted. -/
  | overtemp (dt : Nat) (fieldDie : Bool) (temp : Int)
  /-- FLASH_PROGRAM_DONE (R532): Flash programming after IMAGE_WRITE ends and FLASHBUSY clears. -/
  | flashProgramDone (dt : Nat)
  /-- SD_VALID (R193): A sigma-delta channel becomes valid again after 3M modulator clocks without its cause, and SENSOR_VALID is posted with 0x10 + k. -/
  | sdValid (dt : Nat) (x : SdIn)
  /-- VKEEP_RECOVERED (R571): VKEEP lies at or above VKEEPLOW plus 0.5 V in four consecutive 8 µs samples, which re-arms VKEEP_LOW detection. -/
  | vkeepRecovered (dt : Nat) (mv : Vector Nat 4)
  /-- INBOX_WRITE (R53): A host write to the inbox stores letter bytes, or is ignored and sets POST_ERR while INBOX_READY is 0.
  `offset` is an offset of the host window (R52), so that the row carries the writes of HP_STATUS and HP_IRQEN as well. -/
  | inboxWrite (dt : Nat) (offset : Fin 65536) (bytes : List Byte)
  /-- CONFIG_SAVE_DONE (R530): The flash write and read-back of the configuration copy end, and CONFIG_SAVE ends DONE or FAILED with detail 0xEA. -/
  | configSaveDone (dt : Nat) (ok : Bool)
  /-- IMAGE_VERIFY_DONE (R533): Verification of a bank's firmware and configuration copies ends, sets VERIFIED, and ends IMAGE_VERIFY DONE or FAILED with detail 0xE2–0xE6. -/
  | imageVerifyDone (dt : Nat)
  /-- LC_RECORD_WRITTEN (R536): The life-cycle record write ends, LC_TRANSITION is answered DONE, and a module reset with cause LIFECYCLE follows. -/
  | lcRecordWritten (dt : Nat)
deriving DecidableEq, Repr

end Sys2Proof
end

