-- ==== Sys2Proof/Config.lean ====
section
/-! DEFINITION. What an implementation fixes and the free values: constants without a body, so that nothing can be proved
of their values. -/
namespace Sys2Proof.Config

/-- A fresh unconstrained 32-bit value per use, indexed by the counter of State (notes/assumptions/4.md): the random
challenge of R64, the join nonce of R301. -/
opaque freeWord : Nat → Word

/-- A fresh unconstrained natural number per use, indexed by the counter of State (notes/assumptions/4.md); a use that the
spec bounds takes it modulo the bound. -/
opaque freeNat : Nat → Nat

/-- A fresh unconstrained truth value per use, indexed by the counter of State (notes/assumptions/4.md). -/
opaque freeBool : Nat → Bool

/-- Whether an ECDSA P-256 signature over a hash verifies (R41, R527, R533): the arguments are the signed bytes and the
signature bytes (notes/assumptions/9.md). -/
opaque signatureOk : List Byte → List Byte → Bool

/-- SYS_BGEN.GEN_MAX, which the spec gives as "silicon" (00_scope.md): at least generation 1. -/
opaque genMaxLess1 : Nat

/-- The highest generation that the silicon supports: 1 or more, at most 255. -/
def genMax : Nat := genMaxLess1 % 255 + 1

/-- The bytes of the firmware image programmed at manufacture, which the spec does not give (notes/assumptions/12.md). -/
opaque factoryByte : Nat → Byte

/-- The 16 bytes of the serial number, SYS_SERIAL0-3, which the spec gives as "silicon" (R534). -/
opaque serial : Nat → Byte

/-- The DC-link voltage V_dc in mV that a converter reading in mV stands for: the ratio of the divider on the board, which
the spec does not give (R175, R214; notes/assumptions/17.md). -/
opaque dcLink : Int → Nat

/-- One step of the first-order low-pass filter of R246, whose discrete form the spec does not give: the filtered value
before, the input, the tick length in 1.25 µs, the time constant in ms (notes/assumptions/18.md). -/
opaque lowPass : Int → Int → Nat → Nat → Int

/-- The time in ns that a group frame of so many data bytes takes with a bit timing (CANx_NBT, CANx_DBT) other than the
default rates, for which R267 states it; the spec gives no formula (notes/assumptions/29.md). -/
opaque frameNs : Nat → Nat → Nat → Nat

/-- The flight time over a distance in mm on a curve that the flight-time table in force does not hold (R286, R287;
notes/assumptions/30.md). -/
opaque noCurve : Nat → Nat → Nat

/-- The height in mm of a landing that the flight-time table in force does not hold (R287; notes/assumptions/30.md). -/
opaque noHeight : Nat → Nat

/-- The ride time T of R292 from the ETAs at the destination and at the origin, where the route comes to the destination first: the
spec's arithmetic is unsigned and states no result (notes/assumptions/30.md). -/
opaque rideBefore : Nat → Nat → Nat

/-- Whether a value that the spec holds or shows with a stated resolution, and whose rounding it does not state, is rounded
up from a numerator and denominator that do not divide (R477, R478; notes/assumptions/31.md). -/
opaque roundUp : Int → Nat → Bool

/-- The bytes of a parcel body, the firmware's own record of its policy (R358), and of the header of a parcel cut short: slot,
epoch of the tick in which it was written, offset (notes/assumptions/35.md). -/
opaque parcelByte : Nat → Nat → Nat → Byte

/-- What LANE_STAT shows as ACTIVE (bit 0) and STANDBY (bits 2 and 1) while no lane holds or receives the active role, which
the spec does not state, by postmark (notes/assumptions/36.md). -/
opaque noHolder : Nat → Nat

/-- The counts from a cycle instant to the start-of-frame delimiter of its car-link frame at the RMII, which the spec does not give
(R489, R490; notes/assumptions/96.md). -/
opaque sfdDelay : Nat

/-- The comparator thresholds of a field input of this part, rising and falling, in mV above the least that R425 allows
(notes/assumptions/98.md). -/
opaque inputRise : Nat → Nat
@[inherit_doc inputRise] opaque inputFall : Nat → Nat

end Sys2Proof.Config
end

