-- ==== Sys2Proof/Machine/Assoc.lean ====
section
/-! DEFINITION. Sparse maps in one canonical form: keys strictly rising, no entry equal to what its key reads as when
unlisted. Memory and the register file are such lists. -/
namespace Sys2Proof.Machine

/-- The value at key `k`: the listed one, or the default `d k`. -/
def aget {α : Type} (d : Nat → α) (k : Nat) : List (Nat × α) → α
  | [] => d k
  | (j, v) :: l => if j = k then v else aget d k l

/-- The list without key `k`. -/
def adel {α : Type} (k : Nat) : List (Nat × α) → List (Nat × α)
  | [] => []
  | (j, v) :: l => if j = k then l else (j, v) :: adel k l

/-- The list with `v` at key `k`, in its place in the rising order. -/
def aput {α : Type} (k : Nat) (v : α) : List (Nat × α) → List (Nat × α)
  | [] => [(k, v)]
  | (j, w) :: l =>
    if j = k then (k, v) :: l
    else if k < j then (k, v) :: (j, w) :: l
    else (j, w) :: aput k v l

/-- A write that keeps the canonical form: the default value is not listed. -/
def aset {α : Type} [DecidableEq α] (d : Nat → α) (k : Nat) (v : α) (l : List (Nat × α)) : List (Nat × α) :=
  if v = d k then adel k l else aput k v l

/-- The canonical form: keys strictly rising and above `b`, no listed value equal to its default. -/
def awfFrom {α : Type} [DecidableEq α] (d : Nat → α) : Option Nat → List (Nat × α) → Bool
  | _, [] => true
  | b, (j, v) :: l =>
    (match b with | none => true | some b => decide (b < j)) && decide (v ≠ d j) && awfFrom d (some j) l

/-- The canonical form of a whole list. -/
def awf {α : Type} [DecidableEq α] (d : Nat → α) (l : List (Nat × α)) : Bool := awfFrom d none l

end Sys2Proof.Machine
end

