-- ==== Sys2Proof/Machine/Bits.lean ====
section
/-! DEFINITION. Bit fields, byte order (R12), sign extension (R13, R14), rounding and CRC-32C (R62). -/
namespace Sys2Proof.Machine

/-- The `len` bits of `n` from bit `lo` up. -/
def bitsAt (n lo len : Nat) : Nat := (n >>> lo) % 2 ^ len

/-- Bit `i` of `n`. -/
def bitAt (n i : Nat) : Bool := n.testBit i

/-- `n` with its `len` bits from bit `lo` up replaced by `v`. -/
def putBits (n lo len v : Nat) : Nat :=
  n - (bitsAt n lo len) * 2 ^ lo + (v % 2 ^ len) * 2 ^ lo

/-- 1 for true, 0 for false. -/
def b2n (b : Bool) : Nat := if b then 1 else 0

/-- A word of the low 32 bits. -/
def word (n : Nat) : Word := BitVec.ofNat 32 n

/-- The two's complement word of an integer. -/
def iword (i : Int) : Word := BitVec.ofInt 32 i

/-- The `n` little-endian bytes of `v` (R12). -/
def bytesLE : Nat → Nat → List Byte
  | 0, _ => []
  | n + 1, v => BitVec.ofNat 8 v :: bytesLE n (v / 256)

/-- The `n` big-endian bytes of `v` (R12, R489). -/
def bytesBE (n v : Nat) : List Byte := (bytesLE n v).reverse

/-- The value of little-endian bytes (R12). -/
def natLE : List Byte → Nat
  | [] => 0
  | b :: bs => b.toNat + 256 * natLE bs

/-- The signed value of the low `w` bits of `n`. -/
def sext (w n : Nat) : Int :=
  if n % 2 ^ w < 2 ^ (w - 1) then (n % 2 ^ w : Nat) else ((n % 2 ^ w : Nat) : Int) - (2 ^ w : Nat)

/-- The `w`-bit two's complement code of `i`. -/
def ucode (w : Nat) (i : Int) : Nat := (i % ((2 ^ w : Nat) : Int)).toNat

/-- The value `i` held between `lo` and `hi`. -/
def clamp (lo hi i : Int) : Int := if i < lo then lo else if hi < i then hi else i

/-- Saturation to a signed number of `w` bits. -/
def satS (w : Nat) (i : Int) : Int := clamp (-(2 ^ (w - 1) : Nat)) ((2 ^ (w - 1) : Nat) - 1) i

/-- `n + k`, saturating at `m`. -/
def satAdd (m n k : Nat) : Nat := if n + k ≤ m then n + k else m

/-- `a / b` rounded up. -/
def ceilDiv (a b : Nat) : Nat := (a + b - 1) / b

/-- `a / b` rounded to the nearest integer, a half toward plus infinity. -/
def roundUpHalf (a : Int) (b : Nat) : Int := (2 * a + b) / (2 * b)

/-- `a / b` rounded to the nearest integer, a half away from zero. -/
def roundAway (a : Int) (b : Nat) : Int :=
  if 0 ≤ a then (2 * a + b) / (2 * b) else -((2 * (-a) + b) / (2 * b))

/-- `a / b` rounded to the nearest integer, a half to the even neighbour. -/
def roundEven (a : Int) (b : Nat) : Int :=
  let q := a / (b : Int)
  let r := a % (b : Int)
  if 2 * r < b then q else if (b : Int) < 2 * r then q + 1 else if q % 2 = 0 then q else q + 1

/-- `a / b` truncated toward zero. -/
def truncDiv (a : Int) (b : Nat) : Int := if 0 ≤ a then a / b else -((-a) / b)

/-- Whether a 64-bit position field is sign-extended from bit 39 (R14). -/
def posOk (n : Nat) : Bool := decide (bitsAt n 39 25 = 0 ∨ bitsAt n 39 25 = 2 ^ 25 - 1)

/-- The integer square root rounded down, by bisection with fuel. -/
def isqrtFuel : Nat → Nat → Nat → Nat → Nat
  | 0, lo, _, _ => lo
  | k + 1, lo, hi, n =>
    if hi ≤ lo + 1 then lo
    else if ((lo + hi) / 2) * ((lo + hi) / 2) ≤ n then isqrtFuel k ((lo + hi) / 2) hi n
    else isqrtFuel k lo ((lo + hi) / 2) n

/-- ⌊√n⌋ for n below 2^512. -/
def isqrt (n : Nat) : Nat := isqrtFuel 300 0 (2 ^ 256) n

/-- One bit step of a reflected 32-bit CRC register with the polynomial `p`. -/
def crcBit (p r : Word) : Word := if r.getLsbD 0 then (r >>> 1) ^^^ p else r >>> 1

/-- One byte step of a reflected 32-bit CRC. -/
def crcByte (p r : Word) (b : Byte) : Word :=
  let f := crcBit p
  f (f (f (f (f (f (f (f (r ^^^ b.setWidth 32))))))))

/-- A reflected CRC of `bs` over 32 bits, from all ones and complemented at the end. -/
def crc32 (p : Word) (bs : List Byte) : Word := bs.foldl (crcByte p) 0xFFFFFFFF#32 ^^^ 0xFFFFFFFF#32

/-- CRC-32C of `bs` with the parameters of R62. -/
def crc32c (bs : List Byte) : Word := crc32 0x82F63B78#32 bs

/-- The IEEE 802.3 frame check sequence of `bs`; its polynomial is that standard's, which the spec names (R488, R489;
notes/assumptions/95.md). -/
def fcs32 (bs : List Byte) : Word := crc32 0xEDB88320#32 bs

/-- Bytes `o … o + n − 1` of a payload, absent bytes 0. -/
def slice (p : List Byte) (o n : Nat) : List Byte :=
  (List.range n).map fun i => p.getD (o + i) 0

/-- The byte at offset `o`. -/
def u8 (p : List Byte) (o : Nat) : Nat := (p.getD o 0).toNat
/-- The two bytes at offset `o`. -/
def u16 (p : List Byte) (o : Nat) : Nat := natLE (slice p o 2)
/-- The four bytes at offset `o`. -/
def u32 (p : List Byte) (o : Nat) : Nat := natLE (slice p o 4)
/-- The eight bytes at offset `o`. -/
def u64 (p : List Byte) (o : Nat) : Nat := natLE (slice p o 8)

/-- The lowest offset below `lo + n` and from `lo` on whose payload byte is not 0. -/
def firstNonzero (p : List Byte) (lo n : Nat) : Option Nat :=
  ((List.range n).find? fun i => u8 p (lo + i) ≠ 0).map (lo + ·)

/-- The lower of two optional offsets. -/
def minOff : Option Nat → Option Nat → Option Nat
  | none, b => b
  | a, none => a
  | some a, some b => some (if a ≤ b then a else b)

/-- The lowest offending offset of reserved ranges and argument conditions (R71): `rsv` lists (offset, length),
`bad` lists (offset, offends). -/
def lowestBad (p : List Byte) (rsv : List (Nat × Nat)) (bad : List (Nat × Bool)) : Option Nat :=
  let r := rsv.foldl (fun o x => minOff o (firstNonzero p x.1 x.2)) none
  bad.foldl (fun o x => if x.2 then minOff o (some x.1) else o) r

/-- The bits i below w for which `p i` holds. -/
def maskOf (w : Nat) (p : Nat → Bool) : BitVec w :=
  BitVec.ofNat w ((List.range w).foldl (fun n i => if p i then n + 2 ^ i else n) 0)

/-- The index `i` of a vector of `n + 1` elements, taken modulo the size. -/
def fidx (n i : Nat) : Fin (n + 1) := ⟨i % (n + 1), Nat.mod_lt _ (Nat.succ_pos n)⟩

end Sys2Proof.Machine
end

