-- ==== Sys2Proof/Machine/State.lean ====
section
/-! DEFINITION. The state of the VG63 as plain data: every register, memory, queue, counter, mode and latch that the spec
gives the block, and the queue of waiting commands. -/
namespace Sys2Proof.Machine

/-- What stops the machine with a fault: nothing. Every command of the block has an effect, so no command faults; the type
has no constructor. Safe: a model that never faults hides no claim about faults. -/
inductive Fault : Type
deriving DecidableEq, Repr

/-- What stops the machine with a refusal. -/
inductive Refusal where
  /-- Raised by the arm of a command whose meaning has not been written; safe, since no claim can be proved of it. -/
  | notModelled (mnemonic : String)
deriving DecidableEq, Repr

/-! ### Events and the notice board (R43-R45, R52, R54) -/

/-- One event record (R43). -/
structure EvRec where
  code : Nat
  rep : Nat
  detail : Word
  pm : Postmark
  /-- Count of the backward steps of the postmark before the record was posted (R44). -/
  era : Nat
deriving DecidableEq, Repr

/-- The event ring: 256 records, oldest first; the last `(wr − rd) mod 512` are unread. -/
structure EvSt where
  recs : List EvRec
  rd : Nat
  wr : Nat
  /-- SYS_EVLOST.LOST. -/
  lost : Nat
  /-- Records overwritten unread since the previous EVT_LOST (R45). -/
  lostSince : Nat
  /-- Backward steps of the postmark so far. -/
  era : Nat
deriving DecidableEq, Repr

/-! ### Letters and receipts (R48-R86) -/

/-- The two-stage actions, each named by the block object that carries it. -/
inductive Action where
  | move (u : Fin 4)
  | tail (u : Fin 4)
  | stop (u : Fin 4)
  | home (u : Fin 4)
  | doorOpen
  | doorClose
  | doorStop
  | inject (slot : Fin 16)
  | capture
  | groupJoin
  | groupLeave
  | lockCommit
  | lockTest1
  | lockTest2
  | watchChange
  | canTx (ctrl : Fin 3) (buf : Fin 256)
  | linkStart
  | linkStop
  | rescue
  | configSave
  | imageVerify
  | lcTransition
deriving DecidableEq, Repr

/-- Receipt statuses (R58). -/
inductive Status where
  | done
  | queued
  | refusedBusy
  | refusedLate
  | badCheck
  | badOpcode
  | badArg
  | notPrivileged
  | wrongState
  | aborted
  | abortLate
  | failed
deriving DecidableEq, Repr

/-- A receipt (R57) with its tail (R60); the CRC is a function of the rest. -/
structure Receipt where
  status : Status
  detail : Nat
  /-- Bytes 0-1 of the letter as received. -/
  op16 : Nat
  seq : Nat
  pm : Postmark
  further : Word
  tail : List Byte
deriving DecidableEq, Repr

/-- A letter in its source queue (R73, R75). -/
structure Queued where
  letter : Letter
  /-- Opcode, bits [11:0] of bytes 0-1. -/
  opc : Nat
  arrival : Postmark
  /-- A lane service gap began after its arrival (R81). -/
  gap : Bool
deriving DecidableEq, Repr

/-- An outstanding two-stage action: the letter that started it (R61, R82). -/
structure Outst where
  act : Action
  port : Fin 6
  seq : BitVec 16
  op16 : Nat
  quiet : Bool
  /-- Letter bytes 0-15 as received, for the journal (R359). -/
  hdr : List Byte
  /-- The sender's address (R48). -/
  src : Addr
  /-- A lane service gap began after the letter's arrival (R81). -/
  gap : Bool
deriving DecidableEq, Repr

/-- A final receipt that waits for the lane (R361, R367). -/
structure Deferred where
  out : Outst
  status : Status
  detail : Nat
  further : Word
  pm : Postmark
deriving DecidableEq, Repr

/-- A finished letter (R82). -/
structure Finished where
  port : Fin 6
  seq : BitVec 16
  status : Status
  pm : Postmark
deriving DecidableEq, Repr

/-- An ABORT that has been served and waits for the tick instant at which it takes effect (R83). -/
structure AbortReq where
  port : Fin 6
  seq : BitVec 16
  op16 : Nat
  quiet : Bool
  /-- The refusal found at service, if any; its receipt leaves at the tick instant. -/
  refusal : Option (Status × Nat)
  /-- The instant at which its charge was used up: the postmark of a refusal (R59). -/
  pm : Postmark
  tport : Nat
  tseq : BitVec 16
  hdr : List Byte
  src : Addr
deriving DecidableEq, Repr

/-- A letter under reassembly from CAN segments (R50). -/
structure Reasm where
  ctrl : Fin 3
  sender : Nat
  next : Nat
  bytes : List Byte
  last : Postmark
deriving DecidableEq, Repr

/-- A challenge outstanding on a port (R64). -/
structure Challenge where
  value : Word
  pm : Postmark
deriving DecidableEq, Repr

/-- The open session (R64-R67). -/
structure Session where
  port : Fin 6
  challenge : Word
  lastSeq : Nat
  /-- Postmark of the last class 3 letter answered DONE, or of the opening. -/
  lastDone : Postmark
deriving DecidableEq, Repr

/-- A receipt that has left on ports 1-3, and where it went (R48). -/
structure Sent where
  port : Fin 6
  src : Addr
  receipt : Receipt
deriving DecidableEq, Repr

/-- What the car link's letter channel has to send (R498): a letter's bytes, or a receipt. -/
inductive LinkOut where
  | letter (bytes : List Byte)
  | receipt (r : Receipt)
deriving DecidableEq, Repr

/-- The letterbox. -/
structure LetterSt where
  /-- The source queues, all ports together, in order of arrival. -/
  queue : List Queued
  /-- Letter-window time already charged to the letter in service, in postmark counts (R75). -/
  charged : Nat
  /-- Letters that the firmware holds for port 5 (R73). -/
  held5 : List Queued
  outst : List Outst
  deferred : List Deferred
  finished : List Finished
  aborts : List AbortReq
  /-- Port 0: the receipt in the outbox and those waiting behind it. -/
  rcpt0 : List Receipt
  /-- Port 4: the letters and receipts waiting for the car link's letter channel (R498). -/
  rcpt4 : List LinkOut
  /-- Ports 1-3: the receipts that have left, newest first, the latest 128 (notes/assumptions/11.md). -/
  left : List Sent
  deadCount : Vector Nat 6
  deadLast : Vector Nat 6
  session : Option Session
  challenges : Vector (Option Challenge) 6
  /-- Postmarks of the tag failures counted toward R68. -/
  fails : List Postmark
  /-- End of the lockout of R68. -/
  lockEnd : Option Postmark
  reasm : List Reasm
  /-- The service UART: the bytes since the start mark of the letter in progress, the mark included, and when the last one came
  (R51). -/
  uart : List Byte
  uartAt : Postmark
  /-- The inbox as written by the host, sparse, unlisted bytes 0. -/
  inbox : List Host.Cell
  /-- The instant from which INBOX_READY is 1 again (R53). -/
  inboxBusy : Postmark
  postErr : Bool
  /-- The letters accepted last that CONFIG_SAVE stores (R529): the payload by opcode and object. -/
  accepted : List (Nat × List Byte)
  irqRcpt : Bool
  irqEvent : Bool
deriving DecidableEq, Repr

/-! ### Memory (R33, R36-R39) -/

/-- Shared SRAM and the mill memories, by byte address (R33): canonical, unlisted bytes 0. -/
structure MemSt where
  cells : List Host.Cell
  /-- Addresses of the 64-bit words that hold an error confined to one symbol (R37), rising. -/
  soft : List Nat
  /-- Addresses of the 64-bit words that hold an uncorrectable error (R38), rising. -/
  hard : List Nat
  /-- Table-space words on which MEM_UNCORR rests until they are rewritten (R38, R568). -/
  uncorr : List Nat
deriving DecidableEq, Repr

/-! ### SYS block: straps, tick, counters (R1-R5, R9, R22, R26, R38) -/

/-- The SYS block. -/
structure SysSt where
  /-- SYS_ROLE.STRAP, the code of the third read. -/
  strap : BitVec 2
  /-- SYS_ROLE.ROLE: 0 none, 1 machine station, 2 car station. -/
  role : BitVec 2
  agree : Bool
  /-- SYS_BGEN.GEN_ACTIVE. -/
  gen : Nat
  /-- SYS_TICK.PERIOD, in 1.25 µs. -/
  period : Nat
  /-- LETTER_BUDGET.BUDGET, the budget in force in 0.25 µs (R23). -/
  budget : Nat
  /-- Postmark of the latest tick instant. -/
  tickAt : Postmark
  /-- Tick instants since the module reset. -/
  tickNo : Nat
  eccCorrected : Nat
  eccUncorrected : Nat
deriving DecidableEq, Repr

/-- An event record with every byte 0. -/
def EvRec.zero : EvRec := ⟨0, 0, 0, 0, 0⟩

/-- The event ring at reset: cleared (R523). -/
def EvSt.init : EvSt := { recs := List.replicate 256 EvRec.zero, rd := 0, wr := 0, lost := 0, lostSince := 0, era := 0 }

/-- The letterbox at reset. -/
def LetterSt.init : LetterSt :=
  { queue := [], charged := 0, held5 := [], outst := [], deferred := [], finished := [], aborts := [], rcpt0 := [], rcpt4 := [], left := [],
    deadCount := Vector.replicate 6 0, deadLast := Vector.replicate 6 0, session := none,
    challenges := Vector.replicate 6 none, fails := [], lockEnd := none, reasm := [], uart := [], uartAt := 0, inbox := [], inboxBusy := 0,
    postErr := false, accepted := [], irqRcpt := false, irqEvent := false }

/-- Memory after the zeroising of R524. -/
def MemSt.init : MemSt := { cells := [], soft := [], hard := [], uncorr := [] }

/-- The SYS block at reset: a machine station with the delivered next values (notes/assumptions/1.md). -/
def SysSt.init : SysSt :=
  { strap := 1#2, role := 1#2, agree := true, gen := 1, period := 50, budget := 80, tickAt := 0, tickNo := 0,
    eccCorrected := 0, eccUncorrected := 0 }

/-! ### Ramp units (R87-R133) -/

/-- The five motion limits of a unit (R94). -/
structure Limits where
  speed : Nat
  acc : Nat
  dec : Nat
  jerk : Nat
  hdec : Nat
deriving DecidableEq, Repr

/-- A segment as read (R97). -/
structure Seg where
  n : Nat
  j : Int
  p0 : Int
  v0 : Int
  a0 : Int
deriving DecidableEq, Repr

/-- A piece of the combined table: combined indices `first … first + count − 1` (R105). -/
structure SegPiece where
  first : Nat
  addr : Nat
  count : Nat
deriving DecidableEq, Repr

/-- An armed tail (R105). -/
structure TailSt where
  f : Nat
  addr : Nat
  count : Nat
deriving DecidableEq, Repr

/-- A segment run in progress (R100). -/
structure SegRun where
  /-- The combined table. -/
  pieces : List SegPiece
  /-- Index of the segment in progress. -/
  idx : Nat
  /-- Tick within the segment. -/
  n : Nat
  /-- The segment in progress as read; none before the first tick. -/
  seg : Option Seg
deriving DecidableEq, Repr

/-- The phase of a trapezoid profile (R110). -/
inductive TrapPhase where
  | accel
  | decel
deriving DecidableEq, Repr

/-- A trapezoid profile in progress (R110-R114): positions and speeds with 16 fraction bits. -/
structure TrapRun where
  target : Int
  /-- The sign s; true = positive. -/
  up : Bool
  phase : TrapPhase
  vstart : Nat
  vstop : Nat
  vbreak : Nat
  acc1 : Nat
  /-- The speed in place of V_LIM in homing (R126). -/
  vcap : Option Nat
  /-- Speed v with 16 fraction bits, not negative. -/
  v : Nat
  /-- Numerator and denominator of the deceleration D in force. -/
  dNum : Nat
  dDen : Nat
  /-- D_need is recomputed each tick (R113). -/
  held : Bool
  /-- R114: decelerating at H_LIM beyond the target, with the expected overshoot. -/
  overBy : Option Nat
  /-- The first tick has been made. -/
  started : Bool
deriving DecidableEq, Repr

/-- One constant-jerk phase of a planned stop, in 2^-40 units (R116). -/
structure StopPhase where
  dur : Nat
  p : Int
  v : Int
  a : Int
  j : Int
deriving DecidableEq, Repr

/-- How a stop is computed (R116). -/
inductive StopPlan where
  /-- Tick by tick (trapezoid and homing): sign, speed with 16 fraction bits, deceleration D_s. -/
  | steps (up : Bool) (v : Nat) (dNum dDen : Nat)
  /-- A planned profile (segment-table mode), the end position in µm and the ticks made. -/
  | plan (phases : List StopPhase) (endPos : Int) (n : Nat)
deriving DecidableEq, Repr

/-- Why a stop was made: what the move's final receipt says at standstill. -/
inductive StopWhy where
  | moveStop
  | limit (input : Nat)
  | abort
  | storage (addr : Nat)
  | format (seg : Nat)
  | door
  | takeover
deriving DecidableEq, Repr

/-- What a unit is doing. -/
inductive Motion where
  | still
  | run (r : SegRun)
  | trap (t : TrapRun)
  | stop (hard : Bool) (p : StopPlan)
deriving DecidableEq, Repr

/-- The steps of homing (R126). -/
inductive HomeStep where
  /-- Step 2, moving off the active reference. -/
  | backOff
  /-- Step 2, stopping or stopped, with the instant the input became inactive. -/
  | backStop (pm : Postmark)
  | search
  /-- Step 4 and 5: stopping after the capture. -/
  | captured
  | creep
  /-- Ending without the reference (R126). -/
  | exhausted
  /-- Ending on a limit (R127). -/
  | limited (input : Nat)
deriving DecidableEq, Repr

/-- The homing in progress (R125-R127). -/
structure HomeSt where
  neg : Bool
  ref : Nat
  rearm : Nat
  search : Nat
  creep : Nat
  opp : Nat
  step : HomeStep
  /-- Profile position at the start of step 3, with 16 fraction bits. -/
  start : Int
  capture : Int
  /-- Last accepted edge of the opposite limit input. -/
  oppLast : Option Postmark
  /-- The instants at which HOME was accepted and at which step 3 started: earlier edges are not edges of the homing or of the
  search. -/
  began : Postmark
  since : Postmark
deriving DecidableEq, Repr

/-- A point of a gearing table (R129). -/
structure GearPt where
  m : Int
  r : Int
deriving DecidableEq, Repr

/-- The gearing of a unit (R129-R133). -/
structure GearSt where
  source : Nat
  frozen : Bool
  g0 : Int
  pts : List GearPt
  /-- g(m) of the latest tick. -/
  g : Int
  /-- The step carrier with 16 fraction bits (R132). -/
  e : Int
  /-- The table is new: the next tick carries the jump. -/
  fresh : Bool
deriving DecidableEq, Repr

/-- One ramp unit. -/
structure RampSt where
  /-- Profile position with 16 fraction bits. -/
  pos : Int
  /-- Profile velocity with 16 fraction bits, signed. -/
  vel : Int
  /-- Emitted profile acceleration. -/
  acc : Int
  /-- Emitted set-point, velocity, acceleration of the latest tick (R87). -/
  sp : Int
  spVel : Int
  spAcc : Int
  motion : Motion
  /-- The causes of the stop in progress: the move's receipt follows the first. -/
  why : List StopWhy
  homing : Option HomeSt
  homed : Bool
  declHeld : Bool
  /-- Limits served but in force from the next tick (R95). -/
  next : Option Limits
  tail : Option TailSt
  /-- A MOVE_STOP taken from the next tick: true hard (R117). -/
  stopReq : Option Bool
  gear : GearSt
  cap : Int
  capPm : Postmark
  limLast : Vector (Option Postmark) 4
  /-- The permit is withdrawn (R120). -/
  noPermit : Bool
  /-- The tables that the segment run in progress has used until its final receipt: address and bytes (R101). -/
  used : List (Nat × Nat)
  /-- How the latest move of the unit ended: status, detail, receipt bytes 16-19, postmark. -/
  ended : Option (Status × Nat × Nat × Postmark)
deriving DecidableEq, Repr

/-- No gearing. -/
def GearSt.init : GearSt := { source := 0, frozen := false, g0 := 0, pts := [], g := 0, e := 0, fresh := false }

/-- A ramp unit at reset: held position 0, HOMED 0. -/
def RampSt.init : RampSt :=
  { pos := 0, vel := 0, acc := 0, sp := 0, spVel := 0, spAcc := 0, motion := .still, why := [], homing := none,
    homed := false, declHeld := false, next := none, tail := none, stopReq := none, gear := GearSt.init,
    cap := 0, capPm := 0, limLast := Vector.replicate 4 none, noPermit := false, used := [], ended := none }

/-! ### Loop engine (R134-R191) -/

/-- An INJECT in progress (R184): point, table address, count, index of the next value. -/
structure InjSt where
  point : Nat
  addr : Nat
  n : Nat
  i : Nat
deriving DecidableEq, Repr

/-- A loop slot. A bank is 42 Q3.28 coefficients: coefficient i of section k at 5k + i, then KV and KA. -/
structure SlotSt where
  /-- The descriptor copy, 64 bytes; empty while the slot is not configured. -/
  desc : List Byte
  mode : Nat
  /-- The mode asked for by LOOP_MODE, until its switch sample. -/
  req : Option Nat
  /-- The mode asked for was recorded while the slot was BLOCKED: no preset (R155). -/
  reqBlk : Bool
  /-- A hand-over is due at the next computed sample (R150, R153). -/
  handover : Bool
  /-- Section states, Q6.58. -/
  s1 : List Int
  s2 : List Int
  /-- y_e of the latest sample and of the one before, Q1.30. -/
  ye : Int
  prev : Int
  law : Int
  /-- r′/FS with a point 0 injection, f′/FS, and e of the latest sample, Q1.30. -/
  ref : Int
  fbk : Int
  err : Int
  /-- LOOPs_STAT.STATE. -/
  state : Nat
  satHi : Bool
  satLo : Bool
  slewing : Bool
  remainder : Bool
  frozen : Bool
  refInvalid : Bool
  /-- The last valid reference (R154). -/
  refHeld : Int
  /-- Count, and f′ with 46 fraction bits, at the switch sample (R137, kind 10). -/
  cntBase : Nat
  fbBase : Int
  bank0 : List Int
  bank1 : List Int
  /-- A set that COEF_BANK has given the bank in use, for the next sample. -/
  newSet : Option (List Int)
  /-- The bank was switched in AUTO or ALT: one coefficient change at the next sample (R158). -/
  change : Bool
  /-- Effective coefficients of the previous sample, and of the schedule at the latest tick. -/
  eff : List Int
  tickEff : List Int
  /-- A set of the schedule could not be read into a bank (R148). -/
  lost : Bool
  /-- Coefficient writes queued, oldest first: bank, coefficient, value (R164). -/
  queue : List (Bool × Nat × Int)
  inj : Option InjSt
  injVal : Int
  tcog : Int
  tfric : Int
  /-- The emitted output equals a limit (true the upper one) since a postmark; LOOP_SAT posted (R143). -/
  satAt : Option (Bool × Postmark)
  satPosted : Bool
deriving DecidableEq, Repr

/-- An active capture (R186, R187). -/
structure CapSt where
  dec : Nat
  mask : Nat
  trig : Nat
  count : Nat
  triggered : Bool
  /-- The event of trigger kind 2 has been posted, or the INJECT of kind 1 has started. -/
  hit : Bool
  /-- Samples since the latest record. -/
  skip : Nat
  /-- Previous value of the trigger signal. -/
  last : Option Int
deriving DecidableEq, Repr

/-- The LOOP block. -/
structure LoopSt where
  slots : Vector SlotSt 16
  /-- The schedule: variable (3 off), slot mask, blend band, regions as lower bound and set address (R159, R160). -/
  var : Nat
  mask : Nat
  band : Nat
  regions : List (Int × Nat)
  /-- Boundary whose two regions the banks hold, and the nearest boundary. -/
  region : Nat
  near : Nat
  schedFrozen : Bool
  lam : Nat
  /-- Notch coefficients and f in 0.001 Hz. -/
  notch : List Int
  fnow : Nat
  trip : Bool
  phase : Nat
  vlimit : Bool
  enabled : Bool
  kbad : Bool
  /-- i_a, i_b, i_c, i_α, i_β, i_d, i_q in mA. -/
  cur : Vector Int 7
  theta : Nat
  md : Int
  mq : Int
  /-- The safe torque off outputs as observed (HOIST_STAT.STO). -/
  stoA : Bool
  stoB : Bool
  /-- Duties in force in the half-period before and in this one, and in the shadow registers, 2^30 for the whole half-period. -/
  dutyPrev : Vector Int 3
  duty : Vector Int 3
  dutyNext : Vector Int 3
  /-- Brake profile: 0 idle, 1 pick, 2 hold; start of the pick; duty in Q1.30. -/
  brake : Vector Nat 2
  brakeAt : Vector Postmark 2
  brakeDuty : Vector Int 2
  /-- The latest current sample (R172). -/
  sampledAt : Option Postmark
  /-- COG_ADDR in force until the next sample, while a write to it waits (R170). -/
  cogOld : Option Nat
  cap : Option CapSt
  /-- Records written by the current or last capture, and whether it was triggered. -/
  capRecs : Nat
  capTrig : Bool
deriving DecidableEq, Repr

/-- A slot that is not configured. -/
def SlotSt.init : SlotSt :=
  { desc := [], mode := 0, req := none, reqBlk := false, handover := false, s1 := List.replicate 8 0,
    s2 := List.replicate 8 0, ye := 0, prev := 0, law := 0, ref := 0, fbk := 0, err := 0, state := 0, satHi := false,
    satLo := false, slewing := false, remainder := false, frozen := false, refInvalid := false, refHeld := 0,
    cntBase := 0, fbBase := 0, bank0 := List.replicate 42 0, bank1 := List.replicate 42 0, newSet := none,
    change := false, eff := List.replicate 42 0, tickEff := List.replicate 42 0, lost := false, queue := [], inj := none, injVal := 0, tcog := 0, tfric := 0, satAt := none, satPosted := false }

/-- The LOOP block at reset: no slot configured, outputs inactive. -/
def LoopSt.init : LoopSt :=
  { slots := Vector.replicate 16 SlotSt.init, var := 3, mask := 0, band := 0, regions := [], region := 0, near := 0,
    schedFrozen := false, lam := 0, notch := List.replicate 5 0, fnow := 0, trip := false, phase := 0, vlimit := false,
    enabled := false, kbad := false, cur := Vector.replicate 7 0, theta := 0, md := 0, mq := 0,
    stoA := false, stoB := false, dutyPrev := Vector.replicate 3 0, duty := Vector.replicate 3 0, dutyNext := Vector.replicate 3 0, brake := Vector.replicate 2 0,
    brakeAt := Vector.replicate 2 0, brakeDuty := Vector.replicate 2 0, sampledAt := none, cogOld := none, cap := none, capRecs := 0, capTrig := false }

/-! ### Position, speed and current sensing (R192-R220) -/

/-- A good tape read: raw value and read postmark (R206). -/
structure SsiRead where
  raw : Nat
  pm : Postmark
deriving DecidableEq, Repr

/-- The counting of an encoder channel (R196, R198, R199, R202). Times are in 2.5 ns. -/
structure EncCh where
  /-- A sample has been taken since the channel was switched on; the levels of A and B as counted, and the time of the latest edge
  of each. -/
  seen : Bool
  a : Bool
  b : Bool
  atA : Nat
  atB : Nat
  /-- Sin/cos: whole signal periods, the count 4,096 × periods + interpolated step, consecutive samples below and above the
  amplitude window. -/
  periods : Int
  fine : Int
  low : Nat
  high : Nat
  /-- Hall: the latest valid sector, 0 before the first. -/
  sector : Nat
  /-- The counts of the last 4,096 µs, newest first: (time from which it held, count). -/
  hist : List (Nat × Int)
deriving DecidableEq, Repr

/-- An encoder channel that has taken no sample since the time `t`. -/
def EncCh.init (t : Nat) : EncCh :=
  { seen := false, a := false, b := false, atA := 0, atB := 0, periods := 0, fine := 0, low := 0, high := 0, sector := 0,
    hist := [(t, 0)] }

/-- A sigma-delta channel (R211-R213): its latest bits, newest first, as many as the longest decimator sums; the consecutive
clocks without a change; the clocks since the latest cause of invalidity; the clocks since the latest value for the trip
comparison; and whether readers use it. -/
structure SdCh where
  bits : List Bool
  same : Nat
  good : Nat
  clk : Nat
  used : Bool
deriving DecidableEq, Repr

/-- A sigma-delta channel that has been switched on and has taken no bit. -/
def SdCh.init : SdCh := { bits := [], same := 0, good := 0, clk := 0, used := false }

/-- The newest car-position sample from the car link (R207, R208). -/
structure CarSample where
  p : Int
  pm : Postmark
  v : Int
  valid : Bool
  load : Int
  loadValid : Bool
deriving DecidableEq, Repr

/-- The SENSE block. Vectors of six are indexed by source code 1-5. -/
structure SenseSt where
  /-- 48-bit counts of ENC0-ENC2, and how they are formed. -/
  cnt : Vector Int 3
  ch : Vector EncCh 3
  /-- The instant at which ENC0 was switched on (R197). -/
  encOn : Postmark
  cabs : Int
  angleValid : Bool
  zsync : Bool
  amp : Nat
  lineOk : Vector Bool 3
  hall : Nat
  fault : Vector Bool 3
  kind : Vector Nat 3
  /-- Count at the first Z mark (R198). -/
  refz : Vector (Option Int) 3
  /-- The source is valid: it has been announced and has no cause against it (R193). -/
  known : Vector Bool 6
  /-- Position, speed and validity latched at the latest tick instant (R192). -/
  pos : Vector Int 6
  spd : Vector Int 6
  lvalid : Vector Bool 6
  angle : Nat
  /-- The two latest good reads since SSI0 was enabled or became invalid (R206); the latest good read (R203, R207); the instant
  at which SSI0 was enabled, and the start of the latest read (R204). -/
  ssiNew : Option SsiRead
  ssiOld : Option SsiRead
  ssiLast : Option SsiRead
  ssiFrom : Postmark
  ssiStart : Option Postmark
  ssiBad : Nat
  ssiGood : Nat
  ssiErr : Nat
  car : Option CarSample
  carAge : Nat
  sd : Vector SdCh 3
  sdValid : Vector Bool 3
  /-- The currents latched at the tick instant (R192). -/
  sdVal : Vector Int 3
  adc : Vector Int 16
  cmpCnt : Nat
  mismatch : Bool
  cmpDiff : Int
  land : List Int
  landNext : Option (List Int)
  landNear : Nat
  inZone : Bool
  inLevel : Bool
  landValid : Bool
  landDist : Int
  load : Int
  loadValid : Bool
deriving DecidableEq, Repr

/-- The SENSE block at reset: every source invalid (R218). -/
def SenseSt.init : SenseSt :=
  { cnt := Vector.replicate 3 0, ch := Vector.replicate 3 (EncCh.init 0), encOn := 0, cabs := 0, angleValid := false, zsync := false, amp := 0,
    lineOk := Vector.replicate 3 true, hall := 0, fault := Vector.replicate 3 false, kind := Vector.replicate 3 0,
    refz := Vector.replicate 3 none, known := Vector.replicate 6 false, pos := Vector.replicate 6 0,
    spd := Vector.replicate 6 0, lvalid := Vector.replicate 6 false, angle := 0, ssiNew := none, ssiOld := none,
    ssiLast := none, ssiFrom := 0, ssiStart := none, ssiBad := 0, ssiGood := 0, ssiErr := 0, car := none, carAge := 0xFFFFFFFF,
    sd := Vector.replicate 3 SdCh.init, sdValid := Vector.replicate 3 false, sdVal := Vector.replicate 3 0, adc := Vector.replicate 16 0, cmpCnt := 0,
    mismatch := false, cmpDiff := 0, land := [], landNext := none, landNear := 0, inZone := false, inLevel := false,
    landValid := false, landDist := 0, load := 0, loadValid := false }

/-! ### Door operator (R221-R262) -/

/-- A close in progress, until CLOSED_LOCKED (R239-R241): its profile, whether it is a nudge, and the postmark from which
CLOSE_TIME counts. -/
structure CloseSt where
  profile : Nat
  nudge : Bool
  since : Postmark
deriving DecidableEq, Repr

/-- A door move that waits for the standstill of "stop first" (R236). -/
inductive DoorNext where
  | openMove (profile : Nat)
  | closeMove (profile : Nat) (nudge : Bool)
deriving DecidableEq, Repr

/-- The words of DOOR_OBSTk, DOOR_TIME and DOOR_SEQ as the latest move of the sequencer found them (R223). -/
structure DoorUse where
  obst : Vector Nat 4
  time : Nat
  seq : Nat
deriving DecidableEq, Repr

/-- The DOOR block and the door sequencer. -/
structure DoorSt where
  /-- Stage mode in force, and the one of DOOR_MODE for the next tick instant (R222). -/
  mode : Nat
  modeReq : Option Nat
  /-- Door state (R235). -/
  state : Nat
  on : Bool
  fault : Bool
  fkind : Nat
  /-- Profile in use, if a move has been started in this stage mode, and the words that move uses. -/
  profile : Option Nat
  use : DoorUse
  close : Option CloseSt
  /-- Profile of the close that a reopening follows (R240, R245). -/
  reopen : Nat
  /-- Start of the open move (R238). -/
  openAt : Option Postmark
  next : Option DoorNext
  /-- Closed contact found in the homing close (R242). -/
  found : Bool
  /-- Hold time in 0.1 s and profile of the latest DOOR_OPEN; start of the hold; end of the first hold (R241). -/
  hold : Nat
  openProfile : Nat
  holdAt : Option Postmark
  firstHold : Option Postmark
  nudge : Bool
  /-- DOOR_STOP acts at the next tick instant (R254); instant of a freeze in modes 2 and 4. -/
  stopReq : Bool
  freezeAt : Option Postmark
  stepIgnore : Bool
  /-- DOOR_LIMITS for the next tick: force and energy (R252). -/
  limNext : Option (Nat × Nat)
  vplan : Nat
  fcap : Bool
  ecap : Bool
  vlimit : Bool
  /-- F_r in 0.1 N and E in mJ (R246). -/
  fr : Int
  energy : Nat
  /-- Filtered acceleration in µm/s², previous ENC2 speed, torque-current samples of the tick in mA and their count. -/
  acc : Int
  vPrev : Int
  iqSum : Int
  iqCnt : Nat
  stallAt : Option Postmark
  /-- Supply in mV, stage temperature in °C, I²t in mA²·ms, squares of the running millisecond (R256). -/
  vdoor : Nat
  temp : Int
  i2t : Nat
  sq : Vector Nat 3
  sqCnt : Nat
  /-- The last Hall transition: angle in 2^-64 revolutions, ENC2 position, postmark; and the sector seen (R228). -/
  trans : Option (Int × Int × Postmark)
  sector : Nat
  /-- Microstep counts n_k, n_(k−1), the count in force, and the count of the homed position (R231, R242). -/
  nk : Int
  nk1 : Int
  n : Int
  nOfs : Int
  /-- The commanded speed is not 0, and the instant at which it last became 0 (R230). -/
  moves : Bool
  zeroAt : Option Postmark
  /-- Legacy input: target count, count with 32 fraction bits, latest step, its direction and its interval (R233, R234). -/
  target : Int
  nFx : Int
  stepAt : Option Postmark
  stepUp : Bool
  stepTs : Option Nat
  /-- Duties of H1-H4 in Q1.30; none = open. -/
  duty : Vector (Option Int) 4
deriving DecidableEq, Repr

/-- The DOOR block at reset: stage off. -/
def DoorSt.init : DoorSt :=
  { mode := 0, modeReq := none, state := 0, on := false, fault := false, fkind := 0, profile := none,
    use := ⟨Vector.replicate 4 0, 0, 0⟩, close := none, reopen := 0, openAt := none, next := none, found := false, hold := 0, openProfile := 0, holdAt := none, firstHold := none,
    nudge := false, stopReq := false, freezeAt := none, stepIgnore := false, limNext := none, vplan := 0, fcap := false,
    ecap := false, vlimit := false, fr := 0, energy := 0, acc := 0, vPrev := 0, iqSum := 0, iqCnt := 0, stallAt := none,
    vdoor := 0, temp := 0, i2t := 0, sq := Vector.replicate 3 0, sqCnt := 0, trans := none, sector := 0, nk := 0, nk1 := 0,
    n := 0, nOfs := 0, moves := false, zeroAt := none, target := 0, nFx := 0, stepAt := none, stepUp := false, stepTs := none,
    duty := Vector.replicate 4 none }
/-! ### Group rounds, the sorting office and group time (R263-R310, R475-R482) -/

/-- A postbag entry that is not free (R284). -/
structure PEntry where
  /-- 1 NEW, 2 ASSIGNED, 3 BOARDED. -/
  st : Nat
  pub : Bool
  ret : Bool
  panel : Nat
  seq : Nat
  org : Nat
  dst : Nat
  kind : Nat
  party : Nat
  car : Nat
  admitK : Nat
  assign : Nat
  cost : Nat
  sender : Nat
deriving DecidableEq, Repr

/-- The latest valid slot of a car and what the seals count of it (R285). -/
structure Hole where
  slot : Option SlotMsg
  slotRound : Nat
  absent : Nat
  present : Bool
deriving DecidableEq, Repr

/-- A request or cancel frame collected on a bus (R277, R280). -/
structure ReqRec where
  busB : Bool
  cancel : Bool
  panel : Nat
  sender : Nat
  /-- Bytes 0-7 as a little-endian number. -/
  data : Nat
  endAt : Postmark
deriving DecidableEq, Repr

/-- A request or cancel frame of the station's own, queued for an open window (R278). -/
structure CallFrame where
  round : Nat
  cancel : Bool
  panel : Nat
  data : Nat
  /-- Still to be sent on bus A, on bus B. -/
  toA : Bool
  toB : Bool
deriving DecidableEq, Repr

/-- What the seals carry from round to round (R280). -/
structure GroupCore where
  /-- The occupied postbag entries by index, rising. -/
  bag : List (Nat × PEntry)
  /-- Consecutive rounds absent of each car, car c at c − 1. -/
  absent : Vector Nat 63
  /-- The list L_k of the latest seal, as postbag indices (R275, R282). -/
  list : List Nat
deriving DecidableEq, Repr

/-- What a seal takes in, as the log of R299 keeps it: the round, the valid slots of the round before, its publishers and
reference digest, the collected frames. -/
structure SealIn where
  round : Nat
  slots : List (Nat × SlotMsg)
  /-- P_(k−1), the publishers of the round before, and P_k. -/
  pPrev : BitVec 64
  p : BitVec 64
  ref : Option Word
  reqs : List ReqRec
deriving DecidableEq, Repr

/-- A resynchronisation in progress (R297-R299). -/
structure ResyncSt where
  source : Nat
  attempt : Nat
  /-- Round of the resync request. -/
  since : Nat
  /-- The snapshot: its round, the frames received (index, data), and their number once known. -/
  snap : Option Nat
  frames : List (Nat × List Byte)
  /-- The state at the end of the round replayed last. -/
  core : Option (Nat × GroupCore)
  caught : Bool
  /-- Rounds that may still be replayed in the present open window. -/
  left : Nat
deriving DecidableEq, Repr

/-- A join in progress (R301). -/
structure JoinSt where
  since : Postmark
  strokes : Nat
  /-- Cars whose slots were heard while listening. -/
  heard : List Nat
  /-- A stroke, valid or with a differing configuration, has arrived. -/
  anyStroke : Bool
  claimed : Bool
  nonce : Word
deriving DecidableEq, Repr

/-- Group time (R475-R481). -/
structure GtSt where
  state : Nat
  busB : Bool
  missed : Nat
  /-- e in ns, c and f in 2^-16 ppb. -/
  e : Int
  c : Int
  f : Int
deriving DecidableEq, Repr

/-- The GROUP block and group time. -/
structure GroupSt where
  state : Nat
  car : Nat
  /-- The station is isolated since a postmark (R306). -/
  isoAt : Option Postmark
  /-- Bus mask of the join, and the buses that are lost. -/
  mask : BitVec 2
  lost : BitVec 2
  /-- Consecutive rounds without a valid stroke while the other bus had one, and with one while lost (R305). -/
  missBus : Vector Nat 2
  goodBus : Vector Nat 2
  mute : Bool
  bell : Bool
  join : Option JoinSt
  resync : Option ResyncSt
  /-- Round of the latest seal, and of the round in progress (of the latest valid stroke). -/
  round : Nat
  cur : Nat
  digest : Word
  refDig : Word
  tag : Word
  core : GroupCore
  holes : Vector Hole 63
  policy : Option (List Byte)
  flight : Option (List Byte)
  policyNext : Option (List Byte)
  flightNext : Option (List Byte)
  /-- Valid slots received in the round in progress, with the bus of the copy kept. -/
  slots : List (Nat × SlotMsg × Bool)
  reqs : List ReqRec
  /-- P of the round in progress and of the next, and the reference digest of the round in progress. -/
  p : BitVec 64
  pNext : BitVec 64
  ref : Option Word
  /-- The end of the slots of the round in progress has been reached. -/
  refDone : Bool
  present : BitVec 64
  muteMask : BitVec 64
  void : BitVec 64
  admitted : Nat
  /-- Requests refused at the latest seal. -/
  refusedSeal : Nat
  calls : List CallFrame
  /-- The lane's fields of the own slot (R272), the slot as loaded, and whether it has been loaded in the
  round in progress. -/
  ownCar : CarIn
  ownSlot : Option SlotMsg
  slotLoaded : Bool
  /-- Log of the last 64 rounds (R299). -/
  log : List SealIn
  /-- Cars whose resync request the next seal serves, and frames still to be sent: requesting car and data. -/
  resyncReq : List Nat
  resyncOut : List (Nat × List Byte)
  /-- Start of frame of the previous valid stroke on each bus; nominal instant, bell and round of the latest one. -/
  strokeAt : Vector (Option Postmark) 2
  t0 : Postmark
  bellCar : Nat
  discard : Nat
  txDrop : Nat
  slotLate : Nat
  busDiff : Nat
  refused : Nat
  gt : GtSt
deriving DecidableEq, Repr

/-- An empty postbag and no absences. -/
def GroupCore.init : GroupCore := { bag := [], absent := Vector.replicate 63 0, list := [] }

/-- The GROUP block at reset: not joined. -/
def GroupSt.init : GroupSt :=
  { state := 0, car := 0, isoAt := none, mask := 0, lost := 0, missBus := Vector.replicate 2 0, goodBus := Vector.replicate 2 0, mute := false,
    bell := false, join := none, resync := none, round := 0, cur := 0, digest := 0, refDig := 0, tag := 0, core := GroupCore.init,
    holes := Vector.replicate 63 { slot := none, slotRound := 0, absent := 0, present := false }, policy := none,
    flight := none, policyNext := none, flightNext := none, slots := [], reqs := [], p := 0, pNext := 0, ref := none,
    refDone := false, present := 0, muteMask := 0, void := 0, admitted := 0, refusedSeal := 0, calls := [],
    ownCar := { state := 0, landing := 0, dir := 0, pos := 0, load := 0, inService := false }, ownSlot := none,
    slotLoaded := false, log := [], resyncReq := [], resyncOut := [],
    strokeAt := Vector.replicate 2 none, t0 := 0, bellCar := 0, discard := 0, txDrop := 0,
    slotLate := 0, busDiff := 0, refused := 0, gt := { state := 0, busB := false, missed := 0, e := 0, c := 0, f := 0 } }


/-! ### Interlock evaluator (R311-R348) -/

/-- A delay element (R314). -/
structure DelaySt where
  out : Bool
  /-- Whole evaluations counted toward TIME. -/
  cnt : Nat
  latched : Bool
deriving DecidableEq, Repr

/-- A safety-chain tap (R325). -/
structure TapSt where
  level : Bool
  raw : Bool
  /-- Consecutive samples that agree with `raw`. -/
  cnt : Nat
  mv : Nat
deriving DecidableEq, Repr

/-- A running bridging test (R327): its start and, for each checked tap, the consecutive de-energised evaluations. -/
structure BridgeRun where
  start : Postmark
  cnt1 : Nat
  cnt2 : Nat
  ok1 : Bool
  ok2 : Bool
deriving DecidableEq, Repr

/-- The LOCK block: both evaluators and the fixed monitors. -/
structure LockSt where
  /-- Values and validities of the latest snapshot, and those latched at the latest tick instant (R312). -/
  val : BitVec 128
  ok : BitVec 128
  tickVal : BitVec 128
  tickOk : BitVec 128
  /-- The images of E1 and E2; none = the all-false image (R321, R340). -/
  image1 : Option (List Byte)
  image2 : Option (List Byte)
  pend : Option (List Byte)
  /-- The copy of a commit that waits for the switch (R339). -/
  commit : Option (List Byte)
  crc : Word
  cmp : Vector (Option Bool) 8
  delay : Vector DelaySt 16
  term1 : BitVec 64
  term2 : BitVec 64
  /-- Permits 0-14 of E1 and E2. -/
  perm1 : BitVec 15
  perm2 : BitVec 15
  /-- Consecutive evaluations with a disagreement, and the postmark of the latest one (R318, R324). -/
  disRun : Nat
  disAt : Option Postmark
  disag : Nat
  /-- How E2's results deviated from its image in the latest evaluation (R318). -/
  devTerm : BitVec 64
  devPermit : BitVec 15
  /-- The taps that bypassed another at the latest evaluation (R326). -/
  order : List Nat
  ucm : Bool
  bridge : Bool
  bypass : Bool
  disagree : Bool
  imageBad : Bool
  tap : Vector TapSt 12
  bridgeRun : Option BridgeRun
  trigPrev : Bool
  voids : Nat
  passes : Nat
  landing : Nat
  /-- p_arm while armed (R329). -/
  armed : Option Int
  ucmD : Nat
  stoA : Bool
  stoB : Bool
  /-- Test 2 in progress: step 1-4 and its start (R332). -/
  stoTest : Option (Nat × Postmark)
  stoResult : Nat
  stoStep : Nat
  /-- Postmark of the latest pass of test 2. -/
  stoPass : Option Postmark
  duePosted : Bool
  user : BitVec 6
deriving DecidableEq, Repr

/-- The LOCK block at reset: the all-false image, both safe torque off outputs asserted. -/
def LockSt.init : LockSt :=
  { val := 0, ok := 0, tickVal := 0, tickOk := 0, image1 := none, image2 := none, pend := none, commit := none, crc := 0,
    cmp := Vector.replicate 8 none, delay := Vector.replicate 16 ⟨false, 0, false⟩, term1 := 0, term2 := 0, perm1 := 0,
    perm2 := 0, disRun := 0, disAt := none, disag := 0, devTerm := 0, devPermit := 0, order := [], ucm := false, bridge := false, bypass := false,
    disagree := false, imageBad := false, tap := Vector.replicate 12 ⟨false, false, 0, 0⟩, bridgeRun := none,
    trigPrev := false, voids := 0, passes := 0, landing := 0, armed := none, ucmD := 0, stoA := true, stoB := true,
    stoTest := none, stoResult := 0, stoStep := 0, stoPass := none, duePosted := false, user := 0 }

/-! ### Lanes, stile, parcels and journal (R349-R383) -/

/-- The stile states of R351. -/
inductive Stile where
  | aActive
  | bActive
  | handoverAB
  | handoverBA
  | none
  | fault
deriving DecidableEq, Repr

/-- What a lane is doing. -/
inductive LaneCond where
  /-- Runs the firmware, or receives the role in a hand-over. -/
  | active
  /-- Cold and ready (R370). -/
  | ready
  /-- A lane reset is in progress. -/
  | resetting
  /-- Held and unfit. -/
  | unfit
  /-- Held by the stile during a hand-over. -/
  | held
deriving DecidableEq, Repr

/-- The header of a parcel slot with a seal (R355); the slot number and format are those of a valid seal. -/
structure Parcel where
  laneB : Bool
  bodyLen : Nat
  epoch : Nat
  pm : Postmark
  jpos : Nat
  fw : Nat
  gen : Nat
  role : Nat
deriving DecidableEq, Repr

/-- A journal entry (R359); its CRC is a function of the rest. -/
structure JEntry where
  num : Nat
  /-- 1 letter served, 2 final receipt sent. -/
  kind : Nat
  status : Status
  detail : Nat
  pm : Postmark
  hdr : List Byte
  ctl : List Byte
  further : Word
deriving DecidableEq, Repr

/-- A takeover or hand-over in progress (R364, R365, R377). -/
structure Handover where
  /-- Instant of the fault report, or of the hand-over. -/
  pm : Postmark
  /-- Epoch of the tick in which the fault was reported. -/
  epoch : Nat
  /-- A planned watch change. -/
  planned : Bool
  /-- From NONE, with reason 5 (R373). -/
  fromNone : Bool
deriving DecidableEq, Repr

/-- The LANE block, the stile, the parcel slots, the keeper and the journal. -/
structure LaneSt where
  stile : Stile
  laneA : LaneCond
  laneB : LaneCond
  /-- Faults of each lane within the last 24 h, and its latest successful lane reset (R372). -/
  faultsA : List Postmark
  faultsB : List Postmark
  clearA : Option Postmark
  clearB : Option Postmark
  slot0 : Option Parcel
  slot1 : Option Parcel
  /-- A slot left without a valid seal holds a parcel cut short in the tick of this number (R24, R356). -/
  torn0 : Option Nat
  torn1 : Option Nat
  /-- Slot most recently sealed or loaded: false 0, true 1. -/
  lastSlot : Option Bool
  /-- The seal of the tick in progress is complete. -/
  sealed : Bool
  /-- Epoch of the latest valid seal. -/
  sealEpoch : Nat
  viewEpoch : Nat
  viewSlot : Bool
  viewJpos : Nat
  /-- Consecutive tick instants without, and with, an accepted heartbeat. -/
  hbMissed : Nat
  hbOk : Nat
  stale : Bool
  journal : List JEntry
  jnext : Nat
  /-- Entries written in the tick in progress (R361). -/
  jtick : Nat
  /-- WATCH_DUE, with the postmark at which the scheduled minute began. -/
  watchDue : Option Postmark
  /-- A watch change decided for the next tick instant (R377). -/
  watchGo : Bool
  tkstop : Bool
  lastGap : Nat
  lastReason : Nat
  lastLane : Bool
  lastKind : Bool
  cntTakeover : Nat
  cntWatch : Nat
  cntLinkFault : Nat
  cntSealMiss : Nat
  hand : Option Handover
  /-- Consecutive tick instants at which the active lane's watchdog had no service (R350). -/
  wdog : Nat
deriving DecidableEq, Repr

/-- Lanes at reset: lane A active, lane B in its lane reset (R371). -/
def LaneSt.init : LaneSt :=
  { stile := .aActive, laneA := .active, laneB := .resetting, faultsA := [], faultsB := [], clearA := none, clearB := none, slot0 := none, slot1 := none, torn0 := none, torn1 := none,
    lastSlot := none, sealed := true, sealEpoch := 0, viewEpoch := 0, viewSlot := false, viewJpos := 0, hbMissed := 0,
    hbOk := 0, stale := false, journal := [], jnext := 0, jtick := 0, watchDue := none, watchGo := false,
    tkstop := false, lastGap := 0, lastReason := 0, lastLane := false, lastKind := false, cntTakeover := 0,
    cntWatch := 0, cntLinkFault := 0, cntSealMiss := 0, hand := none, wdog := 0 }

/-! ### Mills (R384-R424) -/

/-- The condition flags Z, N, V, C (R400). -/
structure MFlags where
  z : Bool
  n : Bool
  v : Bool
  c : Bool
deriving DecidableEq, Repr

/-- An active hardware loop: addresses of the first and last word of its body, iterations left (R412). -/
structure MLoop where
  start : Nat
  last : Nat
  count : Nat
deriving DecidableEq, Repr

/-- What the latest instruction writes at W and the next instruction does not see (R410): a data register and the flags, still
to be written, and a memory or window word (Y when the first component is true) with its value before the store. -/
structure MWrite where
  reg : Option (Fin 16 × Word)
  flags : Option MFlags
  mem : Option (Bool × Nat × Word)
deriving DecidableEq, Repr

/-- A mill. -/
structure MillSt where
  /-- State of R395. -/
  state : Nat
  /-- Bank 1 is in use. -/
  bank : Bool
  d0 : Vector Word 16
  d1 : Vector Word 16
  /-- Data registers of the bank in use as stage A of the next instruction reads them (R410). -/
  dA : Vector Word 16
  acc0 : Vector Int 4
  acc1 : Vector Int 4
  flags0 : MFlags
  flags1 : MFlags
  loops0 : List MLoop
  loops1 : List MLoop
  /-- The loop cache while the innermost loop is cached: program address, instruction word and second word of each instruction
  it holds (R393). -/
  cache : Option (List (Nat × Nat × Nat))
  wr : MWrite
  ptr : Vector Nat 8
  base : Vector Nat 8
  len : Vector Nat 8
  /-- ACCV, GUARD, CFOLD, DOVF in bits 0-3, and the same as window word 0x6009 shows them to the next instruction. -/
  sticky : BitVec 4
  stickyE : BitVec 4
  cfreg : Nat
  pc : Nat
  epc : Nat
  /-- Delay slots still to issue, and the target of the taken transfer; whether it is an RTE (R411, R415). -/
  delay : Nat
  target : Option Nat
  rte : Bool
  /-- Pending event sources (R413) and EVCAUSE. -/
  events : BitVec 6
  cause : BitVec 6
  /-- Sources that the instruction before raises at its stage W: pending once the next one has issued (R409, R414). -/
  raised : BitVec 6
  /-- The next instruction is the target of a taken transfer, the first of a handler, or the first of an iteration that the loop
  cache does not hold; 64-bit instructions issued in an unbroken run (R392). -/
  jumped : Bool
  longs : Nat
  entry : Nat
  /-- Cycles of the run in progress. -/
  run : Nat
  cycles : Nat
  maxCyc : Nat
  ovr : Nat
  /-- The latest tick instant found the tick program running: the start of this tick is skipped (R25, R398). -/
  skip : Bool
  trapWord : Nat
  trapAdr : Nat
  out : Vector Word 8
deriving DecidableEq, Repr

/-- The mills: the fetch arrangement, the window words latched at the tick instant, and the outputs of words 0x6070-0x607F
(R389, R391). -/
structure MillsSt where
  mill : Vector MillSt 4
  arr : Nat
  window : List (Nat × Word)
  winOut : Vector Int 16
deriving DecidableEq, Repr

/-- A mill at reset: STOPPED, every register 0. -/
def MillSt.init : MillSt :=
  { state := 0, bank := false, d0 := Vector.replicate 16 0, d1 := Vector.replicate 16 0, dA := Vector.replicate 16 0,
    acc0 := Vector.replicate 4 0, acc1 := Vector.replicate 4 0, flags0 := ⟨false, false, false, false⟩,
    flags1 := ⟨false, false, false, false⟩, loops0 := [], loops1 := [], cache := none, wr := ⟨none, none, none⟩,
    ptr := Vector.replicate 8 0, base := Vector.replicate 8 0, len := Vector.replicate 8 0, sticky := 0, stickyE := 0,
    cfreg := 0, pc := 0, epc := 0, delay := 0, target := none, rte := false, events := 0, cause := 0, raised := 0, jumped := false, longs := 0, entry := 0, run := 0,
    cycles := 0, maxCyc := 0, ovr := 0, skip := false, trapWord := 0, trapAdr := 0, out := Vector.replicate 8 0 }

/-- The mills at reset. -/
def MillsSt.init : MillsSt :=
  { mill := Vector.replicate 4 MillSt.init, arr := 0, window := [], winOut := Vector.replicate 16 0 }


/-! ### Field inputs and outputs (R425-R450, R21) -/

/-- A field input on the field die (R426-R429). -/
structure InSt where
  /-- The latest raw sample, the number of consecutive samples that agree with it, and the postmark of the first of them. -/
  raw : Bool
  cnt : Nat
  runPm : Postmark
  /-- The debounced level. -/
  level : Bool
  valid : Bool
  /-- The image bit, and the postmark of the sample that first showed its latest change. -/
  img : Bool
  chgPm : Postmark
deriving DecidableEq, Repr

/-- A field input as the control die has it from the field-link frames (R430). -/
structure InView where
  img : Bool
  valid : Bool
  /-- Postmarks of the latest edge into and out of the active state. -/
  edgeOn : Option Postmark
  edgeOff : Option Postmark
deriving DecidableEq, Repr

/-- A counter or frequency input (R432, R433). -/
structure CtrSt where
  mode : Nat
  gate : Nat
  value : Nat
  /-- Accepted, in force from the next tick instant. -/
  next : Option (Nat × Nat)
  gateAt : Postmark
  edges : Nat
  first : Postmark
  last : Postmark
deriving DecidableEq, Repr

/-- A supply threshold: entered, and consecutive samples beyond it (R440). -/
structure Thresh where
  entered : Bool
  cnt : Nat
deriving DecidableEq, Repr

/-- The FIO block and the field die. -/
structure FioSt where
  inp : Vector InSt 48
  /-- The instant of the latest raw samples, and the inputs before them (R447). -/
  sampleAt : Postmark
  unsampled : Vector InSt 48
  view : Vector InView 48
  ctr : Vector CtrSt 8
  /-- Commanded values (R436). -/
  cmd : BitVec 32
  /-- Outputs that the last valid frame allows: commanded, granted, permitted (R435). -/
  allowed : BitVec 32
  on : BitVec 32
  latched : BitVec 32
  openLoad : BitVec 32
  /-- Kind of the latch of each channel: 0 BACKFEED, 1 current limit, 2 overtemperature, 3 group (R438). -/
  kind : Vector Nat 32
  /-- The instants at which each output switched off and on (R438). -/
  toff : Vector Postmark 32
  ton : Vector Postmark 32
  /-- Latest voltage of an output that is off, in mV; driver temperature; current in mA. -/
  volt : Vector Nat 32
  temp : Vector Int 32
  amps : Vector Nat 32
  groupA : Nat
  groupB : Nat
  hottest : Int
  /-- Shed groups 1-4 by VFIELD (R442), bit g − 1. -/
  shed : Nat
  /-- The group that the shedding sequence has come to, and its instant (R442). -/
  shedNext : Option (Nat × Postmark)
  /-- VFIELD has stayed at or above 17.5 V for RESTTIME from here (R443). -/
  restAt : Option Postmark
  vfield : Nat
  low : Thresh
  shedT : Thresh
  input : Thresh
  /-- INPUT_INVALID has been posted and INPUTS_VALID not yet (R429). -/
  invalidPosted : Bool
  linkOff : Bool
  linkErr : Nat
  /-- Postmark of the latest valid frame to the field die; the link is lost (R21). -/
  frameAt : Postmark
  linkLost : Bool
  idleFrom : Postmark
  lightsOff : Bool
  ventOff : Bool
  /-- Outputs kept on in SLEEP (R444). -/
  sleepKept : BitVec 32
deriving DecidableEq, Repr

/-- The field die at reset: inputs invalid, outputs off (R446). -/
def FioSt.init : FioSt :=
  { inp := Vector.replicate 48 ⟨false, 0, 0, false, false, false, 0⟩, sampleAt := 0,
    unsampled := Vector.replicate 48 ⟨false, 0, 0, false, false, false, 0⟩,
    view := Vector.replicate 48 ⟨false, false, none, none⟩,
    ctr := Vector.replicate 8 ⟨0, 0, 0, none, 0, 0, 0, 0⟩,
    cmd := 0, allowed := 0, on := 0, latched := 0, openLoad := 0, kind := Vector.replicate 32 0,
    toff := Vector.replicate 32 0, ton := Vector.replicate 32 0, volt := Vector.replicate 32 0, temp := Vector.replicate 32 0,
    amps := Vector.replicate 32 0, groupA := 0, groupB := 0, hottest := 0, shed := 0, shedNext := none, restAt := none,
    vfield := 0, low := ⟨false, 0⟩, shedT := ⟨false, 0⟩, input := ⟨false, 0⟩, invalidPosted := false, linkOff := false,
    linkErr := 0, frameAt := 0, linkLost := false, idleFrom := 0, lightsOff := false, ventOff := false, sleepKept := 0 }
/-! ### CAN FD controllers (R451-R487) -/

/-- A buffer or shadow buffer (R459). -/
structure CanRec where
  frame : CanFrame
  /-- Byte 6. -/
  acc : Nat
  fresh : Bool
  lost : Bool
  cancelLate : Bool
  sent : Bool
  pm : Postmark
deriving DecidableEq, Repr

/-- A pending transmit buffer (R466-R471). -/
structure CanPend where
  buf : Fin 256
  twinStop : Bool
  single : Bool
  attempts : Nat
  /-- Consecutive attempts that ended in a bit error in the data field, and whether TWIN was raised. -/
  twinCnt : Nat
  twinSeen : Bool
  /-- A late cancel is in force. -/
  late : Bool
  /-- Its CAN_TX has ended; the frame still runs on (R470). -/
  ended : Bool
deriving DecidableEq, Repr

/-- A filter element: its three words (R461). -/
structure CanFilter where
  w0 : Word
  w1 : Word
  w2 : Word
deriving DecidableEq, Repr

/-- A CAN FD controller. -/
structure CanSt where
  state : Nat
  integ : Bool
  errst : Nat
  txc : Nat
  rxc : Nat
  loopDly : Nat
  rej : Nat
  overrun : Nat
  twin : Nat
  busOff : Nat
  errSeen : BitVec 13
  /-- Filter elements by number, unlisted elements 0. -/
  filters : List (Nat × CanFilter)
  /-- Buffers by number, unlisted buffers 0; full shadow buffers by number. -/
  bufs : List (Nat × CanRec)
  shadows : List (Nat × CanRec)
  lock : BitVec 256
  pend : List CanPend
  onBus : Option (Fin 256)
  /-- Member buffers that hold frames of FIFO 0 and 1, oldest first; the buffer stored last; the next frame read has LOST. -/
  fifo0 : List Nat
  fifo1 : List Nat
  fifoLast0 : Option Nat
  fifoLast1 : Option Nat
  fifoLost0 : Bool
  fifoLost1 : Bool
  boAt : Postmark
  wakeErrs : Nat
deriving DecidableEq, Repr

/-- The empty frame. -/
def CanFrame.zero : CanFrame := { id := 0, xtd := false, fdf := false, brs := false, esi := false, rtr := false, dlc := 0, data := [] }

/-- A buffer at reset. -/
def CanRec.zero : CanRec :=
  { frame := CanFrame.zero, acc := 0, fresh := false, lost := false, cancelLate := false, sent := false, pm := 0 }

/-- A controller at reset: state 0, nothing pending. -/
def CanSt.init : CanSt :=
  { state := 0, integ := false, errst := 0, txc := 0, rxc := 0, loopDly := 0, rej := 0, overrun := 0, twin := 0, busOff := 0,
    errSeen := 0, filters := [], bufs := [], shadows := [], lock := 0, pend := [], onBus := none, fifo0 := [], fifo1 := [],
    fifoLast0 := none, fifoLast1 := none, fifoLost0 := false, fifoLost1 := false, boAt := 0, wakeErrs := 0 }

/-! ### Car link (R488-R502) -/

/-- A letter channel transfer being received (R498): receipt or letter, next segment index, bytes so far. -/
structure LinkRx where
  receipt : Bool
  next : Nat
  bytes : List Byte
deriving DecidableEq, Repr

/-- The LINK block. -/
structure LinkSt where
  /-- 0 OFF, 1 PHY_WAIT, 2 SYNC, 3 UP, 4 DOWN. -/
  state : Nat
  fibre : Bool
  phy : Bool
  locked : Bool
  partner : Nat
  /-- LINK_STAT.BLIND, and whether blind levelling is still to be decided. -/
  blind : Nat
  blindDue : Bool
  /-- The next journal number when the MOVE_TAIL of blind levelling was posted. -/
  blindJ : Nat
  /-- CAR_LINK_DOWN has been posted and the link has not been UP since: the machine station's car takes no new move and is out of
  service (R496), the car station keeps its door closed (R497). -/
  hold : Bool
  missed : Nat
  seqTx : Nat
  seqRx : Nat
  discard : Nat
  gap : Nat
  downs : Nat
  letterDrop : Nat
  /-- θ and δ in quarter nanoseconds; c and f in 2^-16 ppb (R493). -/
  theta : Int
  delay : Int
  c : Int
  f : Int
  /-- Start of PHY_WAIT or of SYNC; the 5 s limit applies (R494, R495). -/
  since : Postmark
  limited : Bool
  stopReq : Bool
  /-- Consecutive valid frames; a valid frame was accepted since the previous cycle instant, the first of them then; the next
  frame is exempt from the sequence check. -/
  okRun : Nat
  accepted : Bool
  acceptedAt : Postmark
  exempt : Bool
  /-- t_tx of the latest valid frame and its reception postmark: the echoes. -/
  echoTx : Nat
  echoRx : Nat
  /-- Of the latest valid frame: flags UP, TIME_LOCKED, MOVING, STOPS_HELD; generation; tick; a frame of the own kind came. -/
  flags : BitVec 4
  gen : Nat
  period : Nat
  /-- The partner's station data: car state, landing, direction, door request; DOOR_STAT.STATE. -/
  carState : Nat
  carLand : Nat
  carDir : Nat
  doorReq : Nat
  doorState : Nat
  /-- The door request that the machine station's lane sends, and the frame sent at the latest cycle instant (R489-R491). -/
  doorOut : Nat
  frame : List Byte
  /-- The letter channel: segment of the head of the queue next to be sent, and the transfer being received. -/
  txSeg : Nat
  rx : Option LinkRx
  /-- A door open in progress at CAR_LINK_DOWN still runs (R497). -/
  openRun : Bool
  /-- Open on loss: start of the slow time; the door has been opened since the link went down; start of the hold. -/
  slowAt : Option Postmark
  opened : Bool
  openedAt : Option Postmark
deriving DecidableEq, Repr

/-- The LINK block at reset: OFF. -/
def LinkSt.init : LinkSt :=
  { state := 0, fibre := false, phy := false, locked := false, partner := 0, blind := 0, blindDue := false, blindJ := 0, hold := false, missed := 0,
    seqTx := 0, seqRx := 0, discard := 0, gap := 0, downs := 0, letterDrop := 0, theta := 0, delay := 0, c := 0, f := 0,
    since := 0, limited := false, stopReq := false, okRun := 0, accepted := false, acceptedAt := 0, exempt := true, echoTx := 0,
    echoRx := 0, flags := 0, gen := 0, period := 0, carState := 0, carLand := 0, carDir := 0,
    doorReq := 0, doorState := 0, doorOut := 0, frame := [], txSeg := 0, rx := none, openRun := false, slowAt := none, opened := false, openedAt := none }


/-! ### Power, reset, flash and life-cycle (R503-R542) -/

/-- Where the control die is between power and service. -/
inductive Phase where
  /-- Held in module reset (R503, R504). -/
  | held
  /-- Let out of reset by the supply; the sequence of R524 runs. -/
  | sequence
  /-- The straps are invalid: both lanes stay held (R4). -/
  | strapBad
  /-- Lane A is released and runs the boot ROM (R527). -/
  | released
  /-- Letter service has begun (R528). -/
  | run
  /-- The recovery service (R527). -/
  | recovery
deriving DecidableEq, Repr

/-- Power modes (R509). -/
inductive PMode where
  | run
  | doze
  | park
  | sleep
deriving DecidableEq, Repr

/-- What a firmware section is known to hold besides its bytes (notes/assumptions/12.md). -/
structure FwInfo where
  version : Nat
  /-- Highest behaviour generation supported. -/
  gens : Nat
  len : Nat
deriving DecidableEq, Repr

/-- A firmware section: the image programmed at manufacture while nothing has been written since, the 64 KB sectors that still
hold its bytes, the sectors whose programming was cut short by a reset (R539), and the bytes written by IMAGE_WRITE, sparse,
unlisted bytes those of an erased sector or of the image of manufacture. -/
structure FwSec where
  factory : Option FwInfo
  kept : List Nat
  torn : List Nat
  cells : List Host.Cell
deriving DecidableEq, Repr

/-- A configuration copy's content (R529). -/
structure Conf where
  saves : Nat
  fwVersion : Nat
  len : Nat
  regs : List (Nat × Word)
  letters : List Queued
  image : Option (List Byte)
deriving DecidableEq, Repr

/-- A configuration copy (R527, R530). -/
inductive ConfCopy where
  | blank
  /-- Present and not valid: being written, or failed. -/
  | damaged
  | valid (c : Conf)
deriving DecidableEq, Repr

/-- The flash die (R525). -/
structure FlashSt where
  fw : Vector FwSec 2
  copyA : Vector ConfCopy 2
  copyB : Vector ConfCopy 2
  /-- The bank named in the activation record. -/
  activation : Fin 2
  /-- The next-value record (R531): each value once written. -/
  genNext : Option Nat
  periodNext : Option Nat
  budgetNext : Option Nat
  /-- The key store (R534). -/
  key : Option (List Byte)
  /-- The stored key in force; none = the transport key. -/
  keyForce : Option (List Byte)
  /-- Staged bytes of SYS_KEY0-7. -/
  stage : List Byte
  /-- Life-cycle state: 0 BLANK … 4 RETIRED. -/
  lc : Nat
  lcCount : Nat
  /-- The erasure mark of R538. -/
  erase : Bool
  /-- Old state to be posted at the next boot (R536). -/
  lcFrom : Option Nat
  verified : Vector Bool 2
  /-- FLASHBUSY from IMAGE_WRITE: the bank and sector being programmed. -/
  imgBusy : Option (Fin 2 × Nat)
  /-- CONFIG_SAVE in progress: bank, copy B, content to be written. -/
  saving : Option (Fin 2 × Bool × Conf)
  /-- IMAGE_VERIFY in progress: bank. -/
  verifying : Option (Fin 2)
  /-- LC_TRANSITION in progress: target. -/
  lcTarget : Option Nat
deriving DecidableEq, Repr

/-- The rescue in progress (R520, R521). -/
structure RescueSt where
  target : Int
  landing : Nat
  prev : Limits
  /-- The next journal number when the letters of R521 were posted. -/
  jFrom : Nat
deriving DecidableEq, Repr

/-- The PWR block and the always-on domain. -/
structure PwrSt where
  phase : Phase
  mode : PMode
  /-- PWR_STAT.MODE: the mode last left. -/
  lastMode : Nat
  wakeSrc : Nat
  /-- An accepted POWER_MODE: mode, wake mask, and the end of the seal interval at which it is entered. -/
  entry : Option (PMode × Nat × Postmark)
  wakeMask : Nat
  /-- When the POWER_MODE in force was accepted, with the ring's era, and when the mode was entered. -/
  askedEra : Nat
  askedAt : Postmark
  enteredAt : Postmark
  /-- The wake sources recognised since the POWER_MODE was accepted, by R514's bits; 12 a seal, 13 a door request. -/
  woken : BitVec 14
  /-- The lane executes from here on: the wake times of R509. -/
  laneFrom : Postmark
  mains : Bool
  onVkeep : Bool
  lostAt : Option Postmark
  /-- RESCUE_START has been posted for this mains loss (R519). -/
  rescued : Bool
  /-- Groups shed by R517 and not yet restored, and the instant of the next restoration (R518). -/
  mainsShed : Nat
  restoreAt : Option Postmark
  /-- VLOG and VKEEP in mV. -/
  vlog : Nat
  vkeep : Nat
  /-- VKEEP_LOW detection is armed (R571). -/
  vkeepArmed : Bool
  xtalOk : Bool
  encOn : Bool
  /-- Switched off by overcurrent until ENCPWR is written 0 and then 1; true once 0 has been written. -/
  encFault : Option Bool
  /-- PWR_STAT.RESCUE. -/
  rescueStat : Nat
  rescue : Option RescueSt
  tempC : Int
  tempF : Int
  overC : Bool
  overF : Bool
  resetCause : Nat
  sinceBoot : Nat
  bank : Fin 2
  fallback : Bool
  /-- Configuration copy in force: none, A (false) or B (true). -/
  copy : Option Bool
  bootDone : Bool
  bootTime : Nat
  releasedAt : Postmark
  /-- The reset sequence runs from here on (R524). -/
  seqAt : Postmark
  /-- MODULE_RESET kind 1 has been served: the reset follows its receipt (R522). -/
  resetDue : Bool
  /-- Start of the parked idle time (R515). -/
  idleFrom : Option Postmark
  clockFault : Option Nat
  /-- States of the CAN controllers and of the link before PARK or SLEEP (R511). -/
  canHeld : Vector Nat 3
  linkHeld : Bool
deriving DecidableEq, Repr

/-- The flash as delivered: both banks hold the firmware of manufacture, no configuration copy, life-cycle BLANK
(notes/assumptions/12.md). -/
def FlashSt.init : FlashSt :=
  { fw := Vector.replicate 2 { factory := some { version := 1, gens := 1, len := 65536 }, kept := List.range 16, torn := [], cells := [] },
    copyA := Vector.replicate 2 .blank, copyB := Vector.replicate 2 .blank, activation := 0, genNext := none,
    periodNext := none, budgetNext := none, key := none, keyForce := none, stage := List.replicate 32 0#8, lc := 0,
    lcCount := 0, erase := false, lcFrom := none, verified := Vector.replicate 2 false, imgBusy := none,
    saving := none, verifying := none, lcTarget := none }

/-- The PWR block after a power-on reset: lane A released (notes/assumptions/1.md). -/
def PwrSt.init : PwrSt :=
  { phase := .released, mode := .run, lastMode := 0, wakeSrc := 0, entry := none, wakeMask := 0, askedEra := 0,
    askedAt := 0, enteredAt := 0, woken := 0, laneFrom := 0, mains := false,
    onVkeep := false, lostAt := none, rescued := false, mainsShed := 0, restoreAt := none, vlog := 0, vkeep := 0,
    vkeepArmed := true, xtalOk := true, encOn := false, encFault := none, rescueStat := 0, rescue := none, tempC := 0,
    tempF := 0, overC := false, overF := false, resetCause := 1, sinceBoot := 1, bank := 0, fallback := false,
    copy := none, bootDone := false, bootTime := 0, releasedAt := 0, seqAt := 0, resetDue := false, idleFrom := none,
    clockFault := none, canHeld := Vector.replicate 3 0, linkHeld := false }

/-! ### The whole state -/

/-- The state of the VG63. -/
structure State where
  /-- The commands that are waiting, first in, first out. -/
  pending : List Instr
  /-- The postmark (R508). -/
  now : Postmark
  /-- The model's own counter of free values used (notes/assumptions/4.md). -/
  free : Nat
  /-- Straps, role, generation, tick and error counters. -/
  sys : SysSt
  /-- The stored fields of every register, by address: canonical, unlisted registers at their delivered values. -/
  regs : List (Nat × Word)
  /-- Pending _LO halves (R91), by the address of the _LO register. -/
  half : List (Nat × Word)
  /-- Latched _HI halves (R91), by the address of the _HI register. -/
  latch : List (Nat × Word)
  /-- Shared SRAM and the mill memories. -/
  mem : MemSt
  /-- The event ring. -/
  ev : EvSt
  /-- The letterbox. -/
  lb : LetterSt
  /-- Ramp units 0-3. -/
  ramp : Vector RampSt 4
  /-- Lanes, stile, parcels and journal. -/
  lane : LaneSt
  /-- Power modes, supplies and reset causes. -/
  pwr : PwrSt
  /-- The flash die. -/
  flash : FlashSt
  /-- Field inputs and outputs. -/
  fio : FioSt
  /-- The interlock evaluator. -/
  lock : LockSt
  /-- The notice-board mirrors of R348, R383 and R487, as of the latest tick instant. -/
  board : List Word
  /-- Sensors. -/
  sense : SenseSt
  /-- The loop engine. -/
  loop : LoopSt
  /-- The door stage and sequencer. -/
  door : DoorSt
  /-- Group rounds and group time. -/
  group : GroupSt
  /-- The mills. -/
  mill : MillsSt
  /-- The CAN FD controllers. -/
  can : Vector CanSt 3
  /-- The car link. -/
  link : LinkSt
deriving DecidableEq, Repr

/-- The machine right after reset (R523, R524): registers at their delivered values, no command waiting. -/
def State.reset : State :=
  { pending := [],
    now := 0,
    free := 0,
    sys := SysSt.init,
    regs := [],
    half := [],
    latch := [],
    mem := MemSt.init,
    ev := EvSt.init,
    lb := LetterSt.init,
    ramp := Vector.replicate 4 RampSt.init,
    lane := LaneSt.init,
    pwr := PwrSt.init,
    flash := FlashSt.init,
    fio := FioSt.init,
    lock := LockSt.init,
    board := List.replicate 19 0#32,
    sense := SenseSt.init,
    loop := LoopSt.init,
    door := DoorSt.init,
    group := GroupSt.init,
    mill := MillsSt.init,
    can := Vector.replicate 3 CanSt.init,
    link := LinkSt.init }

end Sys2Proof.Machine
end

