-- ==== Sys2Proof/Machine/Ops.lean ====
section
/-! DEFINITION. The named operations over time, events, memory, receipts and the journal that every command uses. -/
namespace Sys2Proof.Machine

/-! ### Time -/

/-- T_tick in postmark counts: PERIOD × 1.25 µs (SYS_TICK). -/
def State.tickLen (s : State) : Nat := s.sys.period * 100

/-- B_tick in postmark counts: BUDGET × 0.25 µs (R23). -/
def State.budgetLen (s : State) : Nat := s.sys.budget * 20

/-- Letter-window time in the first `x` counts after a tick instant, for ticks of `t` and windows of `b` from 10 µs (R23). -/
def windowTime (t b x : Nat) : Nat := (x / t) * b + min ((x % t) - 800) b

/-- Letter-window time between the postmarks `a` and `c`, both from the latest tick instant on (R23). -/
def State.windowBetween (s : State) (a c : Postmark) : Nat :=
  windowTime s.tickLen s.budgetLen (c - s.sys.tickAt) - windowTime s.tickLen s.budgetLen (a - s.sys.tickAt)

/-- Letter service has begun, the stile grants a lane, and no power mode stops it (R351, R509, R527). -/
def State.laneOn (s : State) : Bool :=
  (s.pwr.phase = .run || s.pwr.phase = .recovery) && (s.lane.stile = .aActive || s.lane.stile = .bActive)
    && s.pwr.mode = .run

/-- The lane serves letters and sends final receipts: from its first instruction after a wake on (R509). -/
def State.serving (s : State) : Bool := s.laneOn && decide (s.pwr.laneFrom ≤ s.now)

/-- Loop engine, ramp units, mills, car link and door stage run (R509): after PARK and SLEEP, from the first tick instant after RUN is
reached (R514). -/
def State.engineRuns (s : State) : Bool :=
  s.pwr.mode = .doze || (s.pwr.mode = .run && (s.pwr.lastMode < 2 || decide (s.pwr.laneFrom < s.sys.tickAt)))

/-- The postmark `n` XTAL32 cycles after the postmark `p` at which counting from XTAL32 began (R508). -/
def sleepMark (p n : Nat) : Postmark := p + n * 78125 / 32

/-- The postmark `dt` later: counts, and in SLEEP cycles of XTAL32 (R508). -/
def State.later (dt : Nat) (s : State) : Postmark :=
  if s.pwr.mode = .sleep then sleepMark s.pwr.enteredAt (ceilDiv ((s.now - s.pwr.enteredAt) * 32) 78125 + dt) else s.now + dt

/-- The counts for which an instant lasts: in SLEEP the postmark advances by up to 2,442 at a time (R508). -/
def State.instantLen (s : State) : Nat := if s.pwr.mode = .sleep then 2442 else 1

/-- `dt` passes: the postmark advances (R508), and the letter in service is charged the letter-window time (R75). -/
def State.advance (dt : Nat) (s : State) : State :=
  let used := if s.laneOn && !s.lb.queue.isEmpty && decide (s.lane.jtick < 256) then
      s.windowBetween (max s.now s.pwr.laneFrom) (s.later dt) else 0
  { s with now := s.later dt, lb := { s.lb with charged := s.lb.charged + used } }

/-- A wake source is recognised in a power mode, or while one is being entered (R514, R539). -/
def State.noteWake (src : Nat) (s : State) : State :=
  if s.pwr.mode = .run ∧ s.pwr.entry.isNone then s
  else { s with pwr := { s.pwr with woken := s.pwr.woken ||| BitVec.ofNat 14 (2 ^ src) } }

/-- A wake source is recognised where a test holds. -/
def State.noteIf (b : Bool) (src : Nat) (s : State) : State := if b then s.noteWake src else s

/-- Module reset is asserted, or its sequence runs: no block acts (R503, R524). -/
def State.inReset (s : State) : Bool := s.pwr.phase = .held || s.pwr.phase = .sequence

/-- A tick instant that has been reached and not yet made (R22, R26). -/
def State.tickDue (s : State) : Bool :=
  decide (s.now % s.tickLen = 0 ∧ s.sys.tickAt < s.now) && !s.inReset && s.pwr.phase ≠ .strapBad && s.pwr.mode ≠ .sleep

/-! ### Free values -/

/-- A fresh free word and the state with the counter advanced. -/
def State.freeWord (s : State) : Word × State := (Config.freeWord s.free, { s with free := s.free + 1 })

/-- A fresh free number below `n + 1`. -/
def State.freeUpTo (n : Nat) (s : State) : Nat × State := (Config.freeNat s.free % (n + 1), { s with free := s.free + 1 })

/-- A fresh free truth value. -/
def State.freeBool (s : State) : Bool × State := (Config.freeBool s.free, { s with free := s.free + 1 })

/-- `a / b` where the spec states a resolution and no rounding: one of the two neighbours (notes/assumptions/31.md). -/
def openDiv (a : Int) (b : Nat) : Int :=
  if a % (b : Int) = 0 then a / b else a / b + (if Config.roundUp a b then 1 else 0)

/-! ### Events (R43-R45) -/

/-- Unread records, (WR − RD) mod 512 (R54). -/
def EvSt.unread (e : EvSt) : Nat := (e.wr + 512 - e.rd) % 512

/-- The order of unread records: backward steps, then postmark, then code (R44). -/
def evBefore (a b : EvRec) : Bool :=
  decide (a.era < b.era) || (decide (a.era = b.era) &&
    (decide (a.pm < b.pm) || (decide (a.pm = b.pm) && decide (a.code ≤ b.code))))

/-- `r` placed in an ordered list of unread records, after every record that does not follow it. -/
def evInsert (r : EvRec) : List EvRec → List EvRec
  | [] => [r]
  | x :: l => if evBefore x r then x :: evInsert r l else r :: x :: l

/-- The newest record of a code and detail in a list in posting order. -/
def evNewest (code : Nat) (d : Word) (l : List EvRec) : Option EvRec :=
  l.foldl (fun o r => if r.code = code ∧ r.detail = d then
      (match o with | none => some r | some x => if evBefore x r then some r else some x) else o) none

/-- The repeat count of the newest record of a code and detail, one higher, saturating at 255 (R43, R44). -/
def evRepeat (t : EvRec) : List EvRec → List EvRec
  | [] => []
  | r :: l => if r = t then { r with rep := satAdd 255 r.rep 1 } :: l else r :: evRepeat t l

/-- A record posted into the ring (R44, R45). -/
def EvSt.post (pm : Postmark) (code : Nat) (d : Word) (e : EvSt) : EvSt :=
  let n := e.unread
  let read := e.recs.take (e.recs.length - n)
  let un := e.recs.drop (e.recs.length - n)
  let merge := match evNewest code d un with
    | some t => if t.era = e.era ∧ t.pm ≤ pm ∧ pm ≤ t.pm + 80000 then some t else none
    | none => none
  match merge with
  | some t => { e with recs := read ++ evRepeat t un }
  | none =>
    let r : EvRec := ⟨code, 0, d, pm, e.era⟩
    if n < 256 then
      { e with recs := (read ++ evInsert r un).drop (e.recs.length + 1 - 256), wr := (e.wr + 1) % 512 }
    else
      { e with recs := evInsert r (un.drop 1), wr := (e.wr + 1) % 512, rd := (e.rd + 1) % 512,
               lost := satAdd 0xFFFF e.lost 1, lostSince := satAdd 0xFFFFFFFF e.lostSince 1 }

/-- The capture waiting for the posting of an event is hit by that event (R186, trigger kind 2). -/
def CapSt.onEvent (code : Nat) (c : CapSt) : CapSt :=
  if c.trig % 16 = 2 ∧ c.trig / 65536 = code then { c with hit := true } else c

/-- An event with a stated postmark. -/
def State.postAt (pm : Postmark) (code : Nat) (d : Nat) (s : State) : State :=
  { s with ev := s.ev.post pm code (word d), loop := { s.loop with cap := s.loop.cap.map (CapSt.onEvent code) } }

/-- An event detected now. -/
def State.post (code : Nat) (d : Nat) (s : State) : State := s.postAt s.now code d

/-- The 16 bytes of an event record as the ring shows them (R43). -/
def EvRec.bytes (sev : Nat → Nat) (r : EvRec) : List Byte :=
  bytesLE 2 r.code ++ [BitVec.ofNat 8 (sev r.code), BitVec.ofNat 8 r.rep] ++ bytesLE 4 r.detail.toNat ++ bytesLE 8 r.pm

/-- The severity of a code (R46 and the chapters' event tables): 0 note, 1 warning, 2 fault, 3 stop. -/
def severity (code : Nat) : Nat :=
  let blk := code / 256
  let c := if blk = 0x0C ∨ blk = 0x0D then 0x0B00 + code % 256 else code
  if [0x0001, 0x0005, 0x000A, 0x0203, 0x0205, 0x0303, 0x0506, 0x0701, 0x0702, 0x0703, 0x0705, 0x0706, 0x0708, 0x0806,
      0x080A, 0x080E, 0x0A08].contains c then 3
  else if [0x0003, 0x0009, 0x0202, 0x0302, 0x0401, 0x0402, 0x0403, 0x0505, 0x0601, 0x0603, 0x0607, 0x0707, 0x0801, 0x0802,
      0x080C, 0x0904, 0x0A01, 0x0A03, 0x0B01, 0x0B04, 0x0E01, 0x0F07].contains c then 2
  else if [0x0004, 0x0008, 0x0102, 0x0103, 0x0104, 0x0206, 0x0301, 0x0304, 0x0305, 0x0306, 0x0404, 0x0406, 0x0501, 0x0502, 0x0503,
      0x0605, 0x0608, 0x070A, 0x070D, 0x0804, 0x0805, 0x0808, 0x080D, 0x0905, 0x0A02, 0x0A04, 0x0A05, 0x0A06, 0x0B03,
      0x0B05, 0x0B06, 0x0B08, 0x0B0B, 0x0E03, 0x0E04, 0x0F01, 0x0F02, 0x0F04].contains c then 1
  else 0

/-! ### Memory (R33, R36-R39) -/

/-- What an unlisted byte of memory reads as after the zeroising of R524. -/
def memDefault (_ : Nat) : Byte := 0#8

/-- One stored byte. -/
def State.cell (s : State) (a : Nat) : Byte := aget memDefault a s.mem.cells

/-- One stored byte written. -/
def State.putCell (a : Nat) (b : Byte) (s : State) : State :=
  { s with mem := { s.mem with cells := aset memDefault a b s.mem.cells } }

/-- Bytes written from `a` up. -/
def State.putCells (a : Nat) : List Byte → State → State
  | [], s => s
  | b :: bs, s => (s.putCell a b).putCells (a + 1) bs

/-- `n` stored bytes from `a` up. -/
def State.cellsFrom (s : State) (a : Nat) : Nat → List Byte
  | 0 => []
  | n + 1 => s.cell a :: s.cellsFrom (a + 1) n

/-- The little-endian word of four stored bytes. -/
def State.cell32 (s : State) (a : Nat) : Nat := natLE (s.cellsFrom a 4)

/-- Table space outside the capture region (R36). -/
def inTable (a : Nat) : Bool :=
  decide (0x10078000 ≤ a ∧ a < 0x10080000) || decide (0x100B0000 ≤ a ∧ a < 0x10200000)

/-- The capture region (R36). -/
def inCapture (a : Nat) : Bool := decide (0x10200000 ≤ a ∧ a < 0x10300000)

/-- Mill memory (R33). -/
def inMill (a : Nat) : Bool := decide (0x11000000 ≤ a ∧ a < 0x11100000)

/-- Shared SRAM (R33). -/
def inSram (a : Nat) : Bool := decide (0x10000000 ≤ a ∧ a < 0x10300000)

/-- A range lies wholly within one region of table space, the capture region counted as table space (R36). -/
def tableRange (a n : Nat) : Bool :=
  decide (0x10078000 ≤ a ∧ a + n ≤ 0x10080000) || decide (0x100B0000 ≤ a ∧ a + n ≤ 0x10300000)

/-- The addresses of the 64-bit words that the bytes `a … a + n − 1` touch. -/
def touches (a n w : Nat) : Bool := decide (w < a + n ∧ a < w + 8 ∧ n ≠ 0)

/-- A word with an error confined to one symbol is read: corrected, written back, counted and posted (R37). -/
def State.eccCorrect (w : Nat) (s : State) : State :=
  ({ s with mem := { s.mem with soft := s.mem.soft.filter (· ≠ w) },
            sys := { s.sys with eccCorrected := satAdd 0xFFFFFF s.sys.eccCorrected 1 } }).post 0x0002 w

/-- A word with an uncorrectable error is found: counted and posted (R38). -/
def State.eccFound (w : Nat) (s : State) : State :=
  ({ s with sys := { s.sys with eccUncorrected := satAdd 0xFF s.sys.eccUncorrected 1 } }).post 0x0003 w

/-- The bytes `a … a + n − 1` are read through the symbol code: the state after, and the first uncorrectable word. -/
def State.eccRead (a n : Nat) (s : State) : Option Nat × State :=
  let s := (s.mem.soft.filter (touches a n)).foldl (fun s w => s.eccCorrect w) s
  match s.mem.hard.find? (touches a n) with
  | none => (none, s)
  | some w => (some w, s.eccFound w)

/-- The bytes `a … a + n − 1` are written: the first uncorrectable word that only a part of is written (R39). -/
def State.eccPartial (s : State) (a n : Nat) : Option Nat :=
  s.mem.hard.find? fun w => touches a n w && !(decide (a ≤ w ∧ w + 8 ≤ a + n))

/-- Words rewritten in full, or merged from a good word, carry no error any more. -/
def State.eccClear (a n : Nat) (s : State) : State :=
  { s with mem := { s.mem with soft := s.mem.soft.filter (fun w => !touches a n w),
                               hard := s.mem.hard.filter (fun w => !touches a n w),
                               uncorr := s.mem.uncorr.filter (fun w => !touches a n w) } }

/-- Bytes written to memory with the symbol code renewed. -/
def State.storeBytes (a : Nat) (bs : List Byte) (s : State) : State := (s.putCells a bs).eccClear a bs.length

/-- The part of a stored range that lies in the 64-bit word `w`: a whole word, or a part read, merged and written back, which is not
written if the read finds an uncorrectable error (R39). -/
def State.storePart (a : Nat) (bs : List Byte) (s : State) (w : Nat) : State :=
  let lo := max a w
  let part := (bs.drop (lo - a)).take (min (a + bs.length) (w + 8) - lo)
  if part.length = 8 then s.storeBytes w part
  else
    let e := s.eccRead w 8
    if e.1.isSome then e.2 else e.2.storeBytes lo part

/-- Bytes that a block stores through the symbol code, code word by code word (R39). -/
def State.storeMerged (a : Nat) (bs : List Byte) (s : State) : State :=
  (List.range (ceilDiv (a % 8 + bs.length) 8)).foldl (fun s k => s.storePart a bs (a / 8 * 8 + 8 * k)) s

/-- A word joins a rising list. -/
def insertUp (w : Nat) : List Nat → List Nat
  | [] => [w]
  | x :: l => if x = w then x :: l else if w < x then w :: x :: l else x :: insertUp w l

/-- The address lies outside the active lane's private memory, which the host's map does not show (R33). -/
def hostMemory (w : Nat) : Bool := inSram w || inMill w

/-- A word keeps its error until it is rewritten. -/
def State.putHard (w : Nat) (s : State) : State :=
  if hostMemory w && !decide (0x10080000 ≤ w ∧ w < 0x100B0000) then
    { s with mem := { s.mem with hard := insertUp w s.mem.hard, soft := s.mem.soft.filter (· ≠ w) } }
  else s

/-- MEM_UNCORR rests on a table-space word until it is rewritten (R38). -/
def State.memUncorr (w : Nat) (s : State) : State :=
  { s with mem := { s.mem with uncorr := insertUp w s.mem.uncorr } }

/-! ### Letters, receipts and the journal -/

/-- The code of a status (R58). -/
def Status.code : Status → Nat
  | .done => 0
  | .queued => 1
  | .refusedBusy => 2
  | .refusedLate => 3
  | .badCheck => 4
  | .badOpcode => 5
  | .badArg => 6
  | .notPrivileged => 7
  | .wrongState => 8
  | .aborted => 9
  | .abortLate => 10
  | .failed => 11

/-- Bytes 0-1 of a letter (R55). -/
def opWord (opc : Nat) (h : Head) : Nat := opc % 4096 + h.cls.val * 4096

/-- Letter bytes 0-11 (R55). -/
def headBytes (opc : Nat) (l : Letter) : List Byte :=
  bytesLE 2 (opWord opc l.toHead) ++ bytesLE 2 l.payload.length ++ bytesLE 2 l.seq.toNat ++
    [BitVec.ofNat 8 l.port.val, BitVec.ofNat 8 (b2n l.quiet + 2 * b2n l.finalOnly)] ++ bytesLE 4 l.deadline.toNat

/-- The letter CRC over the header and the first `k` payload bytes (R62). -/
def letterCrc (opc k : Nat) (l : Letter) : Word := crc32c (headBytes opc l ++ l.payload.take k)

/-- Letter bytes 0-15 (R55). -/
def headFull (opc k : Nat) (l : Letter) : List Byte := headBytes opc l ++ bytesLE 4 (letterCrc opc k l).toNat

/-- Receipt bytes 0-19 (R57). -/
def Receipt.body (r : Receipt) : List Byte :=
  [BitVec.ofNat 8 r.status.code, BitVec.ofNat 8 r.detail] ++ bytesLE 2 r.op16 ++ bytesLE 2 r.seq ++ bytesLE 2 0 ++
    bytesLE 8 r.pm ++ bytesLE 4 r.further.toNat

/-- A receipt with its CRC and tail, as it is sent (R57, R60). -/
def Receipt.bytes (r : Receipt) : List Byte := r.body ++ bytesLE 4 (crc32c r.body).toNat ++ r.tail

/-- One dead letter of a port: counted and posted (R77). -/
def State.deadLetter (port : Fin 6) (st : Nat) (s : State) : State :=
  ({ s with lb := { s.lb with deadCount := s.lb.deadCount.set port (satAdd 0xFFFF (s.lb.deadCount[port]) 1),
                              deadLast := s.lb.deadLast.set port st } }).post 0x0101 (port.val + 256 * st)

/-- A receipt handed to its port (R48): port 0 and port 4 hold it until it is taken, ports 1-3 send it to the letter's sender, port 5
sends none. -/
def State.sendReceipt (port : Fin 6) (src : Addr) (r : Receipt) (s : State) : State :=
  match port.val with
  | 0 => { s with lb := { s.lb with rcpt0 := s.lb.rcpt0 ++ [r] } }
  | 4 => { s with lb := { s.lb with rcpt4 := s.lb.rcpt4 ++ [.receipt r] } }
  | 5 => s
  | _ => { s with lb := { s.lb with left := (⟨port, src, r⟩ :: s.lb.left).take 128 } }

/-- The receipts that a port still holds leave (notes/assumptions/11.md): the DONE of a letter that a module reset follows is sent
before it (R71, R536). -/
def State.portSent (port : Fin 6) (s : State) : State :=
  let sent (l : List Receipt) : List Sent := (l.reverse.map (Sent.mk port ⟨0, 0⟩) ++ s.lb.left).take 128
  match port.val with
  | 0 => { s with lb := { s.lb with rcpt0 := [], left := sent s.lb.rcpt0 } }
  | 4 => { s with lb := { s.lb with
      rcpt4 := [], left := sent (s.lb.rcpt4.filterMap fun x => match x with | .receipt r => some r | .letter _ => none) } }
  | _ => s

/-- A letter counts as finished on its port: the latest 64 of each port are kept (R82). -/
def State.finish (f : Finished) (s : State) : State :=
  let mine := s.lb.finished.filter (·.port = f.port)
  let l := if 64 ≤ mine.length then
      (match mine.head? with | some o => s.lb.finished.erase o | none => s.lb.finished) else s.lb.finished
  { s with lb := { s.lb with finished := l ++ [f] } }

/-- A journal entry written (R359, R361): the latest 1,024 are kept. -/
def State.journal (kind : Nat) (st : Status) (detail : Nat) (pm : Postmark) (hdr ctl : List Byte) (further : Word)
    (s : State) : State :=
  let e : JEntry := { num := s.lane.jnext, kind := kind, status := st, detail := detail, pm := pm, hdr := hdr,
                      ctl := ctl, further := further }
  ({ s with lane := { s.lane with journal := (e :: s.lane.journal).take 1024, jnext := s.lane.jnext + 1,
                                  jtick := s.lane.jtick + 1 } }).eccClear (0x10040000 + 64 * (e.num % 1024)) 64

/-- A class 3 letter was answered DONE: the time-out of R67 restarts. -/
def State.sessionDone (port : Fin 6) (op16 : Nat) (s : State) : State :=
  match s.lb.session with
  | some x => if x.port = port ∧ op16 / 4096 = 3 then
      { s with lb := { s.lb with session := some { x with lastDone := s.now } } } else s
  | none => s

/-- The final receipt of a two-stage action is decided and sent (R59, R61). DONE shows GAP (R58, R81). -/
def State.finalReceipt (d : Deferred) (s : State) : State :=
  let detail := if d.status = .done then b2n d.out.gap else d.detail
  let r : Receipt := { status := d.status, detail := detail, op16 := d.out.op16, seq := d.out.seq.toNat, pm := d.pm,
                       further := d.further, tail := [] }
  let quietDone := d.out.quiet && d.status = .done
  let s := if quietDone || d.out.port = 5 then s else
    (s.sendReceipt d.out.port d.out.src r).journal 2 d.status detail d.pm d.out.hdr [] d.further
  let s := s.finish { port := d.out.port, seq := d.out.seq, status := d.status, pm := d.pm }
  if d.status = .done then s.sessionDone d.out.port d.out.op16 else s

/-- Whether a two-stage action is outstanding. -/
def State.outstanding (s : State) (a : Action) : Bool := s.lb.outst.any (·.act = a)

/-- The outstanding actions that `mine` picks end, with a completion postmark (R59): each final receipt leaves at once, or
when the lane serves again (R361, R367). -/
def State.completeIf (mine : Outst → Bool) (pm : Postmark) (st : Status) (detail further : Nat) (s : State) : State :=
  (s.lb.outst.filter mine).foldl (fun s o =>
    let d : Deferred := { out := o, status := st, detail := detail, further := word further, pm := pm }
    if s.serving && decide (s.lane.jtick < 256) then s.finalReceipt d
    else { s with lb := { s.lb with deferred := s.lb.deferred ++ [d] } })
    { s with lb := { s.lb with outst := s.lb.outst.filter (fun o => !mine o) } }

/-- A block reports the end of an action: every letter waiting for it ends (`completeIf`). -/
def State.completeAt (pm : Postmark) (a : Action) (st : Status) (detail : Nat) (further : Nat) (s : State) : State :=
  s.completeIf (fun o => o.act = a) pm st detail further

/-- A block reports the end of an action now. -/
def State.complete (a : Action) (st : Status) (detail : Nat) (further : Nat) (s : State) : State :=
  s.completeAt s.now a st detail further

/-- The deferred final receipts leave, as far as the journal admits (R361, R367). -/
def State.flushDeferred (s : State) : State :=
  s.lb.deferred.foldl (fun s d =>
    if s.serving && decide (s.lane.jtick < 256) then
      ({ s with lb := { s.lb with deferred := s.lb.deferred.erase d } }).finalReceipt d
    else s) s

end Sys2Proof.Machine
end

