-- ==== Sys2Proof/Machine/RegTab.lean ====
section
/-! DEFINITION. The register table: every stored field of every register block (RW and PRW fields, and the RO fields whose
reset is "from flash"), with its range and delivered value. A field whose reset is "from flash" and for which the spec
gives no delivered value is delivered as 0 (notes/assumptions/3.md). Fields that are RO, RC, W1C or WO live in the typed
state and are read by Machine/RegRead.lean. -/
namespace Sys2Proof.Machine

/-- A stored field: its place, who may write it, its range (R567), whether its reset is "from flash", its delivered value. -/
structure Fld where
  lo : Nat
  len : Nat
  /-- Writable in the privileged view only (R15, R16). -/
  prw : Bool := false
  /-- Not writable by REG_WRITE. -/
  ro : Bool := false
  mn : Nat := 0
  mx : Nat := 0xFFFFFFFF
  flash : Bool := true
  dflt : Nat := 0
deriving DecidableEq, Repr

/-- A group of registers of one layout: `base + i·s1 + j·s2` for i < n1, j < n2. -/
structure RegDesc where
  base : Nat
  n1 : Nat := 1
  s1 : Nat := 4
  n2 : Nat := 1
  s2 : Nat := 4
  flds : List Fld
deriving DecidableEq, Repr

/-- Whether an address is one of a group. -/
def RegDesc.has (r : RegDesc) (a : Nat) : Bool :=
  decide (r.base ≤ a) &&
    (let o := a - r.base
     decide (o / r.s1 < r.n1 ∧ o % r.s1 % r.s2 = 0 ∧ o % r.s1 / r.s2 < r.n2))

/-- SYS block (R9, R26, R531, R542). -/
def regsSys : List RegDesc :=
  [ { base := 0x14, flds := [{ lo := 8, len := 8, prw := true, mn := 1, dflt := 1 }] },
    { base := 0x20, flds := [{ lo := 8, len := 8, prw := true, mn := 25, mx := 200, dflt := 50 }] },
    { base := 0x90, n1 := 8, s1 := 8, n2 := 2, flds := [{ lo := 0, len := 32 }] } ]

/-- LETTER block (R86). -/
def regsLetter : List RegDesc :=
  [ { base := 0x10000, flds := [{ lo := 8, len := 8, prw := true, mn := 4, mx := 200, dflt := 80 },
                                { lo := 16, len := 8, prw := true, mn := 1, dflt := 16 }] },
    { base := 0x10010, flds := [{ lo := 0, len := 8, prw := true, mx := 200, dflt := 32 }] },
    { base := 0x10014, n1 := 2, flds := [{ lo := 0, len := 8, prw := true, mx := 200, dflt := 12 }] },
    { base := 0x1001C, flds := [{ lo := 0, len := 8, prw := true, mx := 200, dflt := 8 }] },
    { base := 0x10020, flds := [{ lo := 0, len := 8, prw := true, mx := 200, dflt := 12 }] },
    { base := 0x10024, flds := [{ lo := 0, len := 8, prw := true, mx := 200, dflt := 4 }] },
    { base := 0x10050, flds := [{ lo := 16, len := 16, prw := true, mn := 60, mx := 3600, dflt := 600 }] } ]

/-- RAMP block (R90-R94, R108, R122, R126, R132). -/
def regsRamp : List RegDesc :=
  [ { base := 0x20004, n1 := 4, s1 := 0x100, flds := [{ lo := 0, len := 4, mx := 5 }, { lo := 4, len := 4 }] },
    { base := 0x20010, n1 := 4, s1 := 0x100, n2 := 5, flds := [{ lo := 0, len := 32, ro := true }] },
    { base := 0x20030, n1 := 4, s1 := 0x100, n2 := 4, flds := [{ lo := 0, len := 32 }] },
    { base := 0x20060, n1 := 4, s1 := 0x100, n2 := 4,
      flds := [{ lo := 0, len := 6, mx := 47 }, { lo := 6, len := 1, flash := false }, { lo := 7, len := 1, flash := false },
               { lo := 8, len := 1, flash := false }, { lo := 16, len := 8, flash := false }] },
    { base := 0x20070, n1 := 4, s1 := 0x100, n2 := 3, flds := [{ lo := 0, len := 32 }] },
    { base := 0x20090, n1 := 4, s1 := 0x100, flds := [{ lo := 16, len := 16, mn := 1, dflt := 50 }] } ]

/-- LANE block (R383). -/
def regsLane : List RegDesc :=
  [ { base := 0x80020, flds := [{ lo := 0, len := 11, ro := true, dflt := 180 }, { lo := 16, len := 1, ro := true, dflt := 1 },
                                { lo := 24, len := 8, mn := 1, dflt := 120 }] },
    { base := 0x80028, n1 := 2, flds := [{ lo := 0, len := 32 }] },
    { base := 0x80030, flds := [{ lo := 0, len := 4, prw := true, mn := 2, mx := 15, dflt := 3 }] } ]

/-- PWR block (R542). -/
def regsPwr : List RegDesc :=
  [ { base := 0xF0004, flds := [{ lo := 0, len := 1, dflt := 1 }, { lo := 1, len := 1 }, { lo := 2, len := 1, dflt := 1 },
                                { lo := 8, len := 8, mn := 100, mx := 250, dflt := 110 }] },
    { base := 0xF0008, flds := [{ lo := 0, len := 1 }, { lo := 1, len := 2, mn := 1, dflt := 2 },
                                { lo := 4, len := 12, mn := 1, mx := 3600, dflt := 600 },
                                { lo := 16, len := 10, dflt := 0x3FF }] },
    { base := 0xF0010, n1 := 2, flds := [{ lo := 0, len := 32 }] },
    { base := 0xF0018, flds := [{ lo := 0, len := 16, mn := 1, mx := 2500, dflt := 300 },
                                { lo := 16, len := 16, mn := 1, mx := 2000, dflt := 300 }] },
    { base := 0xF001C, flds := [{ lo := 0, len := 16 }, { lo := 16, len := 4 }, { lo := 20, len := 1, dflt := 1 },
                                { lo := 24, len := 8, mn := 1, dflt := 10 }] } ]
/-- FIO block (R450). -/
def regsFio : List RegDesc :=
  [ { base := 0xA0004, flds := [{ lo := 0, len := 1 }] },
    { base := 0xA0010, flds := [{ lo := 0, len := 8, mn := 1, mx := 40, dflt := 4 }, { lo := 8, len := 8, mn := 1, mx := 40, dflt := 40 }] },
    { base := 0xA0014, flds := [{ lo := 0, len := 32 }] }, { base := 0xA0018, flds := [{ lo := 0, len := 16 }] },
    { base := 0xA001C, flds := [{ lo := 0, len := 6, mn := 2, mx := 40, dflt := 4 }, { lo := 8, len := 8, mn := 1, dflt := 20 },
                                { lo := 16, len := 8, mn := 1, dflt := 10 }] },
    { base := 0xA0020, n1 := 6, flds := (List.range 8).flatMap fun j =>
        [{ lo := 4 * j, len := 3, mn := 1, dflt := 2 }, { lo := 4 * j + 3, len := 1 }] },
    { base := 0xA0050, n1 := 2, s1 := 8, flds := [{ lo := 0, len := 32 }] },
    { base := 0xA0054, n1 := 2, s1 := 8, flds := [{ lo := 0, len := 16 }] },
    { base := 0xA0110, flds := [{ lo := 0, len := 32, dflt := 0xFFFFFFFF }] },
    { base := 0xA0120, n1 := 4, flds := (List.range 8).map fun j => { lo := 4 * j, len := 3, mx := 4 } },
    { base := 0xA0130, flds := [{ lo := 0, len := 4, dflt := 0xF }, { lo := 8, len := 8, mn := 1, dflt := 10 },
                                { lo := 16, len := 8, mn := 1, dflt := 10 }] },
    { base := 0xA0180, flds := [{ lo := 0, len := 1 }, { lo := 4, len := 12, mn := 1, mx := 3600, dflt := 300 },
                                { lo := 16, len := 12, mn := 1, mx := 3600, dflt := 600 }] },
    { base := 0xA0184, n1 := 3, flds := [{ lo := 0, len := 32 }] } ]
/-- SENSE block (R220). -/
def regsSense : List RegDesc :=
  [ { base := 0x40100, n1 := 3, s1 := 0x100,
      flds := [{ lo := 0, len := 3, mx := 4 }, { lo := 3, len := 1 }, { lo := 4, len := 2, mx := 2 }, { lo := 6, len := 1, flash := false },
               { lo := 8, len := 3 }, { lo := 16, len := 12, mn := 1, dflt := 1000 }] },
    { base := 0x40104, n1 := 3, s1 := 0x100, flds := [{ lo := 0, len := 24, mn := 1 }] },
    { base := 0x40108, n1 := 3, s1 := 0x100, n2 := 4, flds := [{ lo := 0, len := 32 }] },
    { base := 0x40130, flds := [{ lo := 0, len := 16, dflt := 250 }, { lo := 16, len := 16, dflt := 750 }] },
    { base := 0x40134, flds := [{ lo := 0, len := 32 }] },
    { base := 0x40400, flds := [{ lo := 0, len := 6, mn := 8, mx := 48 }, { lo := 6, len := 1 }, { lo := 7, len := 2 },
                                { lo := 9, len := 1 }, { lo := 10, len := 1 }, { lo := 11, len := 1 }, { lo := 12, len := 3 },
                                { lo := 15, len := 1 }, { lo := 16, len := 4, mn := 1, dflt := 2 }, { lo := 20, len := 1 }] },
    { base := 0x40404, flds := [{ lo := 0, len := 9, mn := 10, mx := 400 }, { lo := 16, len := 7, mn := 1, mx := 100, dflt := 20 },
                                { lo := 24, len := 8 }] },
    { base := 0x40408, n1 := 4, flds := [{ lo := 0, len := 32 }] },
    { base := 0x4042C, flds := [{ lo := 0, len := 32 }] },
    { base := 0x40500, flds := [{ lo := 0, len := 7, mn := 8, mx := 100 }, { lo := 7, len := 1 }] },
    { base := 0x40510, n1 := 3, s1 := 0x10, flds := [{ lo := 0, len := 9, mn := 16, mx := 256 }, { lo := 9, len := 4 }, { lo := 13, len := 1 }] },
    { base := 0x40514, n1 := 3, s1 := 0x10, n2 := 2, flds := [{ lo := 0, len := 32 }] },
    { base := 0x40600, n1 := 16, flds := [{ lo := 0, len := 1 }, { lo := 1, len := 1 }, { lo := 2, len := 1 }] },
    { base := 0x40710, n1 := 2, flds := [{ lo := 0, len := 32 }] },
    { base := 0x40800, flds := [{ lo := 0, len := 1 }, { lo := 4, len := 4, mn := 1, mx := 5 }, { lo := 8, len := 4, mn := 1, mx := 5 },
                                { lo := 12, len := 3 }, { lo := 16, len := 16, mn := 1 }] },
    { base := 0x40804, flds := [{ lo := 0, len := 32 }] },
    { base := 0x40820, flds := [{ lo := 0, len := 32 }] },
    { base := 0x40824, flds := [{ lo := 0, len := 8, mx := 192, flash := false }, { lo := 8, len := 4, mn := 1, mx := 5, flash := false }] },
    { base := 0x40828, flds := [{ lo := 0, len := 32, dflt := 150000 }] },
    { base := 0x4082C, flds := [{ lo := 0, len := 32, dflt := 10000 }] },
    { base := 0x40840, flds := [{ lo := 0, len := 2, mx := 2 }, { lo := 4, len := 4 }] },
    { base := 0x40844, n1 := 2, flds := [{ lo := 0, len := 32 }] } ]
/-- LOOP block (R191); the coefficient banks are in the slots. -/
def regsLoop : List RegDesc :=
  [ { base := 0x30010, flds := [{ lo := 0, len := 4, mn := 1, mx := 5 }] },
    { base := 0x30100, n1 := 16, s1 := 0x40,
      flds := [{ lo := 3, len := 1, flash := false }, { lo := 8, len := 2, mx := 2, flash := false },
               { lo := 10, len := 3, mx := 4, flash := false }] },
    { base := 0x30108, n1 := 16, s1 := 0x40, n2 := 2, flds := [{ lo := 0, len := 32, flash := false }] },
    { base := 0x34000, flds := [{ lo := 0, len := 5, mn := 1, mx := 16, dflt := 2 }, { lo := 8, len := 6 },
                                { lo := 16, len := 1, flash := false }, { lo := 20, len := 4 }] },
    { base := 0x34004, flds := [{ lo := 0, len := 10, mn := 20, mx := 1000, dflt := 200 },
                                { lo := 16, len := 10, mx := 1000, dflt := 100 }] },
    { base := 0x34008, flds := [{ lo := 0, len := 8, mn := 1, mx := 64 }, { lo := 8, len := 6, dflt := 24 },
                                { lo := 16, len := 16 }] },
    { base := 0x3400C, flds := [{ lo := 0, len := 20, prw := true }, { lo := 20, len := 12, prw := true }] },
    { base := 0x34010, flds := [{ lo := 0, len := 4 }, { lo := 4, len := 1, flash := false }, { lo := 16, len := 16 }] },
    { base := 0x34020, n1 := 2, s1 := 0x10, flds := [{ lo := 0, len := 11, mn := 100, mx := 2000 }, { lo := 16, len := 16 }] },
    { base := 0x34024, n1 := 2, s1 := 0x10, flds := [{ lo := 0, len := 16 }, { lo := 16, len := 16 }] },
    { base := 0x34028, n1 := 2, s1 := 0x10, flds := [{ lo := 0, len := 1, flash := false }] },
    { base := 0x35000, flds := [{ lo := 0, len := 1, flash := false }, { lo := 4, len := 4, flash := false },
                                { lo := 8, len := 3, flash := false }, { lo := 12, len := 4, mn := 1, mx := 5, flash := false }] },
    { base := 0x35004, n1 := 2, flds := [{ lo := 0, len := 32 }] },
    { base := 0x35010, n1 := 2, flds := [{ lo := 0, len := 32 }] },
    { base := 0x35018, flds := [{ lo := 0, len := 16 }, { lo := 16, len := 16 }] },
    { base := 0x3501C, flds := [{ lo := 0, len := 32 }] },
    { base := 0x35020, flds := [{ lo := 0, len := 32, mx := 0x40000000 }] },
    { base := 0x36000, flds := [{ lo := 0, len := 1, flash := false }, { lo := 1, len := 1, flash := false }] },
    { base := 0x36004, n1 := 3, flds := [{ lo := 0, len := 32, flash := false }] },
    { base := 0x36010, flds := [{ lo := 0, len := 32, mn := 1, flash := false }] },
    { base := 0x37000, n1 := 16, flds := [{ lo := 0, len := 8, flash := false }] },
    { base := 0x37040, flds := [{ lo := 0, len := 32, flash := false }] } ]
/-- DOOR block (R262). -/
def regsDoor : List RegDesc :=
  [ { base := 0x50004, flds := [{ lo := 0, len := 2 }, { lo := 4, len := 4, mx := 14 }, { lo := 8, len := 4, mx := 14 },
                                { lo := 12, len := 6, mx := 47 }, { lo := 18, len := 6, mx := 47 }] },
    { base := 0x50008, flds := [{ lo := 0, len := 3 }, { lo := 4, len := 3 }, { lo := 8, len := 4, mx := 8 }, { lo := 12, len := 1 },
                                { lo := 13, len := 1 }, { lo := 14, len := 1 }] },
    { base := 0x50010, n1 := 4, flds := [{ lo := 0, len := 6, mx := 47 }, { lo := 6, len := 1, flash := false },
                                         { lo := 7, len := 1, flash := false }] },
    { base := 0x50020, n1 := 4, flds := [{ lo := 0, len := 32 }] },
    { base := 0x50030, flds := [{ lo := 0, len := 32, mn := 1, mx := 100000, dflt := 5000 }] },
    { base := 0x50034, flds := [{ lo := 0, len := 16, mn := 1, dflt := 8000 }, { lo := 16, len := 16, mn := 1, dflt := 8000 }] },
    { base := 0x50038, flds := [{ lo := 0, len := 8, dflt := 20 }, { lo := 8, len := 8, dflt := 50 }] },
    { base := 0x50040, flds := [{ lo := 0, len := 6, mn := 20, mx := 40, dflt := 25 }, { lo := 8, len := 8, mn := 10, mx := 200, dflt := 40 }] },
    { base := 0x50044, flds := [{ lo := 0, len := 32, mn := 1, mx := 100000 }] },
    { base := 0x50048, n1 := 3, flds := [{ lo := 0, len := 32, mn := 1, mx := 1000000 }] },
    { base := 0x50054, flds := [{ lo := 0, len := 32, mn := 100, mx := 12000 }] },
    { base := 0x50058, flds := [{ lo := 0, len := 16 }] },
    { base := 0x5005C, flds := [{ lo := 0, len := 16, mx := 8000 }, { lo := 16, len := 16, mx := 8000 }] },
    { base := 0x50060, flds := [{ lo := 0, len := 16, mn := 1, mx := 10000 }, { lo := 16, len := 16 }] },
    { base := 0x50068, flds := [{ lo := 0, len := 16, prw := true, dflt := 1500 }, { lo := 16, len := 16, prw := true, dflt := 10000 }] },
    { base := 0x5006C, flds := [{ lo := 0, len := 16, prw := true, dflt := 4000 }, { lo := 16, len := 16, prw := true, dflt := 1200 }] },
    { base := 0x50070, flds := [{ lo := 0, len := 8, prw := true, mn := 1, dflt := 30 }, { lo := 8, len := 8, prw := true, mn := 1, dflt := 5 }] },
    { base := 0x50100, n1 := 8, s1 := 0x20, n2 := 7, flds := [{ lo := 0, len := 32 }] } ]
/-- GROUP block (R310). -/
def regsGroup : List RegDesc :=
  [ { base := 0x60004, flds := [{ lo := 0, len := 11, dflt := 320 }, { lo := 16, len := 6, mn := 1, mx := 63, dflt := 63 },
                                { lo := 24, len := 4, mn := 1, mx := 15, dflt := 3 }] },
    { base := 0x60008, flds := [{ lo := 0, len := 7, mn := 20, mx := 80, dflt := 20 }, { lo := 8, len := 7, mn := 16, mx := 64, dflt := 16 },
                                { lo := 16, len := 7, mn := 1, mx := 64, dflt := 16 }] },
    { base := 0x6000C, flds := [{ lo := 0, len := 1, dflt := 1 }] } ]
/-- LOCK block. -/
def regsLock : List RegDesc := []
/-- MILL block. -/
def regsMill : List RegDesc :=
  [ { base := 0x90008, n1 := 4, s1 := 0x100, flds := [{ lo := 0, len := 6, flash := false }] },
    { base := 0x9000C, n1 := 4, s1 := 0x100, flds := [{ lo := 0, len := 18, flash := false }] } ]
/-- CANA, CANB and CANC blocks (R487). -/
def regsCan : List RegDesc :=
  [ { base := 0xB0004, n1 := 3, s1 := 0x10000,
      flds := [{ lo := 0, len := 1, dflt := 1 }, { lo := 1, len := 1, dflt := 1 }, { lo := 2, len := 1, dflt := 1 }, { lo := 3, len := 1 },
               { lo := 4, len := 1, flash := false }, { lo := 5, len := 2, mx := 2, flash := false }, { lo := 7, len := 1, flash := false },
               { lo := 8, len := 1, flash := false }, { lo := 9, len := 1, dflt := 1 }, { lo := 16, len := 6, mn := 1, mx := 63 },
               { lo := 24, len := 4, mn := 2, mx := 15, dflt := 4 }] },
    { base := 0xB0008, n1 := 3, s1 := 0x10000, flds := [{ lo := 0, len := 29, dflt := 67637185 }] },
    { base := 0xB000C, n1 := 3, s1 := 0x10000, flds := [{ lo := 0, len := 27, dflt := 8982977 }] },
    { base := 0xB0018, n1 := 3, s1 := 0x10000, flds := [{ lo := 0, len := 16, mn := 1, dflt := 100 }, { lo := 16, len := 16, mx := 10000 }] },
    { base := 0xB0090, n1 := 3, s1 := 0x10000, flds := [{ lo := 0, len := 1 }, { lo := 1, len := 1 }, { lo := 2, len := 1 },
                                                        { lo := 3, len := 1 }, { lo := 4, len := 4, mx := 8 }] },
    { base := 0xB0094, n1 := 3, s1 := 0x10000, n2 := 2, flds := [{ lo := 0, len := 29 }] },
    { base := 0xB009C, n1 := 3, s1 := 0x10000, n2 := 4, flds := [{ lo := 0, len := 32 }] },
    { base := 0xB0204, flds := [{ lo := 0, len := 1, dflt := 1 }, { lo := 16, len := 9, mn := 1, mx := 500, dflt := 200 }] },
    { base := 0xB1000, n1 := 3, s1 := 0x10000, n2 := 256, flds := [{ lo := 0, len := 2 }, { lo := 2, len := 1 }] } ]
/-- LINK block. -/
def regsLink : List RegDesc :=
  [ { base := 0xE0004, flds := [{ lo := 0, len := 5 }, { lo := 5, len := 1, dflt := 1 },
                                { lo := 16, len := 16, mn := 0x600, dflt := 0x88B5 }] },
    { base := 0xE0018, flds := [{ lo := 0, len := 16 }, { lo := 16, len := 9, mn := 1, mx := 500, dflt := 200 }] },
    { base := 0xE001C, flds := [{ lo := 0, len := 8, mn := 1, dflt := 50 }] },
    { base := 0xE0020, flds := [{ lo := 0, len := 6, mx := 47 }, { lo := 8, len := 6, mx := 47 }, { lo := 16, len := 1, dflt := 1 },
                                { lo := 17, len := 3 }, { lo := 24, len := 8, mn := 1, dflt := 10 }] } ]
--REGTAB-END

end Sys2Proof.Machine
end

