-- ==== Sys2Proof/Machine/RegFile.lean ====
section
/-! DEFINITION. The stored part of the register file: reading and writing the stored fields, and the 64-bit pairs of R91. -/
namespace Sys2Proof.Machine

/-- The whole register table. -/
def regTable : List RegDesc :=
  regsSys ++ regsLetter ++ regsRamp ++ regsLoop ++ regsSense ++ regsDoor ++ regsGroup ++ regsLock ++ regsLane ++ regsMill ++ regsFio ++
    regsCan ++ regsLink ++ regsPwr

/-- The stored fields of a register. -/
def regFields (a : Nat) : List Fld :=
  match regTable.find? (·.has a) with
  | some r => r.flds
  | none => []

/-- The delivered value of the stored fields of a register. -/
def regDelivered (a : Nat) : Word := word ((regFields a).foldl (fun n f => n + (f.dflt % 2 ^ f.len) * 2 ^ f.lo) 0)

/-- The stored fields of a register, as a word. -/
def State.reg (s : State) (a : Nat) : Nat := (aget regDelivered a s.regs).toNat

/-- A field of a register. -/
def State.fld (s : State) (a lo len : Nat) : Nat := bitsAt (s.reg a) lo len

/-- The stored fields of a register replaced. -/
def State.setReg (a v : Nat) (s : State) : State := { s with regs := aset regDelivered a (word v) s.regs }

/-- One stored field replaced. -/
def State.setFld (a lo len v : Nat) (s : State) : State := s.setReg a (putBits (s.reg a) lo len v)

/-- A signed register word. -/
def State.regInt (s : State) (a : Nat) : Int := sext 32 (s.reg a)

/-- A Q1.30 or Q3.28 register: bits [30:0], bit 31 ignored (R13). -/
def State.regQ (s : State) (a : Nat) : Int := sext 31 (s.reg a)

/-- A 64-bit pair in force, low half at `a` (R91). -/
def State.pair (s : State) (a : Nat) : Nat := s.reg a + 2 ^ 32 * s.reg (a + 4)

/-- A signed 64-bit pair. -/
def State.pairInt (s : State) (a : Nat) : Int := sext 64 (s.pair a)

/-- A 64-bit pair set by the VG63 itself: both halves in force, a pending low half discarded (R91). -/
def State.setPair (a : Nat) (v : Int) (s : State) : State :=
  let n := ucode 64 v
  let s := (s.setReg a (n % 2 ^ 32)).setReg (a + 4) (n / 2 ^ 32)
  { s with half := s.half.filter (·.1 ≠ a) }

end Sys2Proof.Machine
end

