-- ==== Sys2Proof/Machine/Links.lean ====
section
/-! DEFINITION. What one block reads of another along the hardware paths that the spec names (R19): sources, field inputs,
permits, the stile grant. -/
namespace Sys2Proof.Machine

/-- The sources 1-5 as a vector index; other codes fall on 0. -/
def srcIdx (c : Nat) : Fin 6 := if h : c < 6 then ⟨c, h⟩ else 0

/-- The station's role is machine station, or car station (R2). -/
def State.machine (s : State) : Bool := s.sys.role = 1#2
/-- The station is a car station. -/
def State.carStation (s : State) : Bool := s.sys.role = 2#2

/-- The position of a source in µm: the latched sensors, or a ramp unit's output (R89). -/
def State.srcPos (s : State) (c : Nat) : Int :=
  match c with
  | 6 => s.ramp[0].sp
  | 7 => s.ramp[1].sp
  | 8 => s.ramp[2].sp
  | 9 => s.ramp[3].sp
  | _ => s.sense.pos[srcIdx c]

/-- The latched speed of a sensor source. -/
def State.srcSpd (s : State) (c : Nat) : Int :=
  match c with
  | 6 => s.ramp[0].spVel
  | 7 => s.ramp[1].spVel
  | 8 => s.ramp[2].spVel
  | 9 => s.ramp[3].spVel
  | _ => s.sense.spd[srcIdx c]

/-- Whether a source is valid at the latest latch (R193); a ramp unit's output is invalid while its gearing is frozen
(R133). -/
def State.srcValid (s : State) (c : Nat) : Bool :=
  match c with
  | 0 => false
  | 6 => !s.ramp[0].gear.frozen
  | 7 => !s.ramp[1].gear.frozen
  | 8 => !s.ramp[2].gear.frozen
  | 9 => !s.ramp[3].gear.frozen
  | _ => s.sense.lvalid[srcIdx c]

/-- The address of the offset pair of a sensor source: SSI0_OFS, CARPOS_OFS, ENCk_OFS (R220). -/
def srcOfsAddr (c : Nat) : Nat :=
  match c with
  | 1 => 0x40410
  | 2 => 0x40710
  | 3 => 0x40110
  | 4 => 0x40210
  | _ => 0x40310

/-- The homing adjustment of a source: its offset moves, and with it the latched position (R126, R217). -/
def State.moveSource (c : Nat) (d : Int) (s : State) : State :=
  let s := s.setPair (srcOfsAddr c) (s.pairInt (srcOfsAddr c) + d)
  { s with sense := { s.sense with pos := s.sense.pos.set (srcIdx c) (s.sense.pos[srcIdx c] + d) } }

/-- A field input as the control die has it. -/
def State.view (s : State) (k : Nat) : InView := if h : k < 48 then s.fio.view[k] else ⟨false, false, none, none⟩

/-- A field input is in its active state (R428, R430). -/
def State.inActive (s : State) (k : Nat) : Bool := (s.view k).img

/-- A field input is valid as the control die has it (R429, R430). -/
def State.inValid (s : State) (k : Nat) : Bool := (s.view k).valid && !s.fio.linkLost

/-- The stile grants output enables to a lane: condition 115 (R351, R509). -/
def State.grant (s : State) : Bool :=
  (match s.lane.stile with
   | .aActive | .bActive | .handoverAB | .handoverBA => true
   | _ => false) && s.pwr.mode ≠ .sleep && (s.pwr.phase = .released || s.pwr.phase = .run)

/-- The two copies of a permit; permit 15 is always true (R315, R317). -/
def State.permitE1 (s : State) (p : Nat) : Bool := p = 15 || (s.lock.perm1.getLsbD p && s.pwr.mode ≠ .sleep)
/-- E2's copy of a permit. -/
def State.permitE2 (s : State) (p : Nat) : Bool := p = 15 || (s.lock.perm2.getLsbD p && s.pwr.mode ≠ .sleep)

/-- A permit in force: the AND of E1 and E2 (R317). -/
def State.permit (s : State) (p : Nat) : Bool := s.permitE1 p && s.permitE2 p

/-- The image that evaluator E1 runs: none is the all-false image (R321, R341). -/
def State.image (s : State) : Option (List Byte) :=
  if s.lock.imageBad || s.flash.lc = 0 || s.flash.lc = 4 then none else s.lock.image1

/-- The image that evaluator E2 runs. -/
def State.imageE2 (s : State) : Option (List Byte) :=
  if s.lock.imageBad || s.flash.lc = 0 || s.flash.lc = 4 then none else s.lock.image2

/-- A byte of the image in force; none under the all-false image. -/
def State.imageByte (s : State) (o : Nat) : Option Nat := s.image.map fun i => u8 i o

/-- Whether the permit that an image field names is true, in both copies; the fields of the all-false image name a false
permit (R316, R321). -/
def State.imagePermit (s : State) (o : Nat) : Bool :=
  match s.imageByte o with
  | some p => s.permit p
  | none => false

/-- An alarm tap is de-energised: cause CHAIN (R323, R325). -/
def State.chainCause (s : State) : Bool :=
  match s.image with
  | none => false
  | some i => (List.finRange 12).any fun k =>
      bitAt (u16 i 0xA10) k.val && bitAt (u16 i 0xA12) k.val && !s.lock.tap[k].level

/-- A safe stop cause is in force (R322, R323). -/
def State.safeStop (s : State) : Bool :=
  s.lock.ucm || s.lock.bridge || s.lock.bypass || s.lock.disagree || s.lock.imageBad || s.lane.tkstop || s.chainCause

/-- The stile's grant and E1's copy of BRAKEb let the PWM output of a brake act (R20, R322, R334). -/
def State.brakeGate (s : State) (b : Fin 2) : Bool :=
  match s.imageByte (0x9D1 + b.val) with
  | some p => s.permitE1 p && !s.safeStop && s.grant
  | none => false

/-- The brake whose supply output channel `k` is, in the image in force (R334, R337). -/
def State.supplyOf (s : State) (k : Nat) : Option Nat :=
  match s.image with
  | none => none
  | some i => if u8 i 0x9D5 = k then some 0 else if u8 i 0x9D6 = k then some 1 else none

/-- A ramp unit is moving: from QUEUED to the final receipt, and during any stop (R88). -/
def RampSt.moving (r : RampSt) : Bool := r.motion ≠ .still || r.homing.isSome

/-- Ramp unit `u` is moving. -/
def State.moving (s : State) (u : Fin 4) : Bool := s.ramp[u].moving

/-- Some ramp unit is moving. -/
def State.anyMoving (s : State) : Bool := s.ramp.toList.any RampSt.moving

/-- A ramp unit replaced. -/
def State.setRamp (u : Fin 4) (r : RampSt) (s : State) : State := { s with ramp := s.ramp.set u r }

/-- The door unit belongs to the sequencer (R224). -/
def State.doorOwns (s : State) (u : Fin 4) : Bool :=
  s.carStation && decide (1 ≤ s.door.mode ∧ s.door.mode ≤ 3) && s.fld 0x50004 0 2 = u.val

/-- The base address of a ramp unit's registers (R90). -/
def rampBase (u : Fin 4) : Nat := 0x20000 + 0x100 * u.val

end Sys2Proof.Machine
end

