-- ==== Sys2Proof/Machine/Sha.lean ====
section
/-! DEFINITION. SHA-256 and HMAC-SHA-256, which R65 names for the letter tag. The spec names the functions and does not
define them: they are taken from FIPS 180-4 and FIPS 198-1 (PRESUMED, notes/assumptions/8.md). A hash state and a message block
are lists of 32-bit numbers. -/
namespace Sys2Proof.Machine

/-- 2 to the power 32. -/
def hashMod : Nat := 4294967296

/-- Eight 32-bit numbers read from one 256-bit number, most significant first. -/
def split256 (x : Nat) : List Nat := (List.range 8).map fun i => x / 2 ^ (224 - 32 * i) % hashMod

/-- The round constants, eight to a number. -/
def hashConsts : List Nat :=
  ([0x428a2f9871374491b5c0fbcfe9b5dba53956c25b59f111f1923f82a4ab1c5ed5,
    0xd807aa9812835b01243185be550c7dc372be5d7480deb1fe9bdc06a7c19bf174,
    0xe49b69c1efbe47860fc19dc6240ca1cc2de92c6f4a7484aa5cb0a9dc76f988da,
    0x983e5152a831c66db00327c8bf597fc7c6e00bf3d5a7914706ca635114292967,
    0x27b70a852e1b21384d2c6dfc53380d13650a7354766a0abb81c2c92e92722c85,
    0xa2bfe8a1a81a664bc24b8b70c76c51a3d192e819d6990624f40e3585106aa070,
    0x19a4c1161e376c082748774c34b0bcb5391c0cb34ed8aa4a5b9cca4f682e6ff3,
    0x748f82ee78a5636f84c878148cc7020890befffaa4506cebbef9a3f7c67178f2] : List Nat).flatMap split256

/-- The hash of nothing yet. -/
def hashStart : List Nat := split256 0x6a09e667bb67ae853c6ef372a54ff53a510e527f9b05688c1f83d9ab5be0cd19

/-- The exclusive or of `x` rotated right by each of `l`. -/
def turns (l : List Nat) (x : Nat) : Nat :=
  l.foldl (fun a n => Nat.xor a ((x / 2 ^ n + x * 2 ^ (32 - n)) % hashMod)) 0

/-- One round on a hash state, `kw` the constant plus the block's number of the round. -/
def hashRound (kw : Nat) : List Nat → List Nat
  | [a, b, c, d, e, f, g, h] =>
    let t := h + kw + turns [6, 11, 25] e + Nat.xor g (Nat.land e (Nat.xor f g))
    (t + turns [2, 13, 22] a + Nat.lor (Nat.land a b) (Nat.land c (Nat.lor a b))) % hashMod :: a :: b :: c ::
      (d + t) % hashMod :: [e, f, g]
  | s => s

/-- The rounds of one block: `w` holds the next sixteen numbers of the schedule, oldest first. -/
def hashRounds : List Nat → List Nat → List Nat → List Nat
  | k :: ks, x :: w, s =>
    let p := w.getD 0 0
    let q := w.getD 13 0
    let n := x + Nat.xor (turns [7, 18] p) (p / 8) + w.getD 8 0 + Nat.xor (turns [17, 19] q) (q / 1024)
    hashRounds ks (w ++ [n % hashMod]) (hashRound (k + x) s)
  | _, _, s => s

/-- The number that bytes spell, most significant first. -/
def natBE (l : List Byte) : Nat := l.foldl (fun n b => n * 256 + b.toNat) 0

/-- A block of 64 bytes taken into a hash state. -/
def hashBlock (s : List Nat) (b : List Byte) : List Nat :=
  let w := (List.range 16).map fun i => natBE ((b.drop (4 * i)).take 4)
  List.zipWith (fun x y => (x + y) % hashMod) s (hashRounds hashConsts w s)

/-- The first `n` blocks of a padded message taken in, in order. -/
def hashAll (b : List Byte) (n : Nat) : List Nat :=
  (List.range n).foldl (fun s i => hashBlock s ((b.drop (64 * i)).take 64)) hashStart

/-- `n` bytes of a number, most significant first. -/
def bigEndian (n x : Nat) : List Byte := (List.range n).map fun i => BitVec.ofNat 8 (x / 256 ^ (n - 1 - i))

/-- SHA-256: the message, a 1 bit, zeros and the length in bits make up whole blocks. -/
def sha256 (m : List Byte) : List Byte :=
  let blocks := (m.length + 8) / 64 + 1
  let zeros := blocks * 64 - 9 - m.length
  (hashAll (m ++ 0x80#8 :: List.replicate zeros 0#8 ++ bigEndian 8 (8 * m.length)) blocks).flatMap (bigEndian 4)

/-- HMAC-SHA-256 of a message under a key of at most 64 bytes. -/
def hmacSha256 (key m : List Byte) : List Byte :=
  let pad (x : Byte) : List Byte := (List.range 64).map fun i => key.getD i 0#8 ^^^ x
  sha256 (pad 0x5C#8 ++ sha256 (pad 0x36#8 ++ m))

end Sys2Proof.Machine
end

