-- ==== Sys2Proof/Machine/Serve.lean ====
section
/-! DEFINITION. How the lane serves a letter: the opcode table of R71, the checks of R74, receipts, the journal entry, and
the effect at the instant the charge is used up (R75). Every letter row goes through `serve`. -/
namespace Sys2Proof.Machine

/-! ### The opcode table (R69, R71) -/

/-- The payload length rule of an opcode (R71, R72). -/
inductive LenRule where
  | fixed (n : Nat)
  /-- TABLE_WRITE: 8 + n, n the count at offset 4. -/
  | tableWrite
  /-- CAN_TX: 12 + n, n from the data length code at offset 3. -/
  | canTx
  /-- IMAGE_WRITE: 8 + n, n ≤ 4,064. -/
  | imageWrite
deriving DecidableEq, Repr

/-- A cost class (R69). -/
inductive Cost where
  | a
  | b
  | c
  | d
  | e
  /-- V, with n the count at offset 4. -/
  | vCount
  /-- V, with n the data bytes carried. -/
  | vData
deriving DecidableEq, Repr

/-- A row of the opcode table: opcode, classes permitted, length rule, control bytes, cost class, stages. -/
structure OpInfo where
  opc : Nat
  classes : List Nat
  len : LenRule
  ctl : Nat
  cost : Cost
  stages : Nat
deriving DecidableEq, Repr

/-- Opcodes 0x000-0x04F (R71). -/
def opTable0 : List OpInfo :=
  [ ⟨0x000, [0], .fixed 0, 0, .a, 1⟩, ⟨0x001, [0], .fixed 0, 0, .b, 1⟩, ⟨0x002, [0, 3], .fixed 4, 4, .a, 1⟩,
    ⟨0x003, [1, 3], .fixed 8, 8, .b, 1⟩, ⟨0x004, [1, 3], .fixed 12, 12, .b, 1⟩, ⟨0x008, [3], .fixed 4, 4, .a, 1⟩,
    ⟨0x010, [3], .fixed 4, 4, .e, 2⟩, ⟨0x020, [2, 3], .tableWrite, 8, .vCount, 1⟩, ⟨0x021, [0, 3], .fixed 8, 8, .vCount, 1⟩,
    ⟨0x022, [0], .fixed 8, 8, .vCount, 1⟩, ⟨0x023, [2], .fixed 12, 12, .vCount, 1⟩, ⟨0x030, [1], .fixed 12, 12, .c, 2⟩,
    ⟨0x031, [1], .fixed 16, 4, .c, 2⟩, ⟨0x032, [1], .fixed 12, 12, .d, 2⟩, ⟨0x033, [1], .fixed 4, 4, .b, 2⟩,
    ⟨0x034, [1], .fixed 24, 24, .b, 1⟩, ⟨0x035, [1], .fixed 16, 16, .c, 2⟩, ⟨0x036, [1], .fixed 12, 12, .c, 1⟩,
    ⟨0x040, [1], .fixed 4, 4, .c, 1⟩, ⟨0x041, [1], .fixed 4, 4, .b, 2⟩, ⟨0x042, [1], .fixed 4, 4, .b, 2⟩,
    ⟨0x043, [1], .fixed 0, 0, .a, 2⟩, ⟨0x044, [3], .fixed 4, 4, .b, 1⟩ ]

/-- Opcodes 0x050-0x0A3 (R71). -/
def opTable1 : List OpInfo :=
  [ ⟨0x050, [1], .fixed 8, 8, .d, 1⟩, ⟨0x051, [1], .fixed 4, 4, .c, 1⟩, ⟨0x052, [1], .fixed 8, 8, .c, 1⟩,
    ⟨0x053, [1], .fixed 12, 12, .d, 1⟩, ⟨0x054, [1], .fixed 12, 12, .c, 2⟩, ⟨0x055, [1], .fixed 12, 12, .c, 2⟩,
    ⟨0x060, [1], .fixed 4, 4, .c, 2⟩, ⟨0x061, [1], .fixed 0, 0, .b, 2⟩, ⟨0x062, [1], .fixed 8, 8, .d, 1⟩,
    ⟨0x063, [1], .fixed 8, 8, .d, 1⟩, ⟨0x064, [1], .fixed 8, 8, .b, 1⟩, ⟨0x065, [1], .fixed 8, 8, .b, 1⟩,
    ⟨0x070, [3], .fixed 12, 12, .e, 1⟩, ⟨0x071, [3], .fixed 4, 4, .d, 2⟩, ⟨0x072, [3], .fixed 4, 4, .c, 2⟩,
    ⟨0x080, [1], .fixed 0, 0, .c, 2⟩, ⟨0x081, [1], .fixed 4, 4, .b, 1⟩, ⟨0x090, [1], .fixed 8, 8, .b, 1⟩,
    ⟨0x091, [1], .fixed 4, 4, .a, 1⟩, ⟨0x092, [1], .fixed 4, 4, .c, 1⟩, ⟨0x0A0, [1], .fixed 8, 8, .a, 1⟩,
    ⟨0x0A1, [0], .fixed 0, 0, .a, 1⟩, ⟨0x0A2, [1], .fixed 4, 4, .b, 1⟩, ⟨0x0A3, [1], .fixed 8, 8, .b, 1⟩ ]

/-- Opcodes 0x0B0-0x0F1 (R71). -/
def opTable2 : List OpInfo :=
  [ ⟨0x0B0, [1], .fixed 4, 4, .c, 1⟩, ⟨0x0B1, [1], .fixed 16, 16, .b, 1⟩, ⟨0x0B2, [1], .canTx, 12, .b, 2⟩,
    ⟨0x0B3, [1], .fixed 4, 4, .a, 1⟩, ⟨0x0B4, [0], .fixed 4, 4, .a, 1⟩, ⟨0x0C0, [1], .fixed 4, 4, .c, 2⟩,
    ⟨0x0D0, [1], .fixed 8, 8, .b, 1⟩, ⟨0x0D1, [1], .fixed 4, 4, .c, 2⟩, ⟨0x0E0, [3], .imageWrite, 8, .vData, 1⟩,
    ⟨0x0E1, [3], .fixed 4, 4, .e, 2⟩, ⟨0x0E2, [3], .fixed 4, 4, .b, 1⟩, ⟨0x0E3, [3], .fixed 4, 4, .e, 2⟩,
    ⟨0x0F0, [1, 3], .fixed 4, 4, .a, 1⟩, ⟨0x0F1, [3], .fixed 4, 4, .d, 1⟩ ]

/-- The row of an opcode. -/
def opInfo (opc : Nat) : Option OpInfo := (opTable0 ++ opTable1 ++ opTable2).find? (·.opc = opc)

/-- The data bytes that a CAN FD data length code names; none for a code above 15. -/
def dlcLen (c : Nat) : Option Nat := [0, 1, 2, 3, 4, 5, 6, 7, 8, 12, 16, 20, 24, 32, 48, 64][c]?

/-- The data bytes of a frame: a remote frame has none, a classic frame at most 8 (R459, R466). -/
def frameLen (fdf rtr : Bool) (c : Nat) : Option Nat :=
  if rtr then some 0 else if fdf then dlcLen c else if c ≤ 15 then some (min c 8) else none

/-- Whether a payload has the length of its opcode (R72). -/
def LenRule.ok (r : LenRule) (p : List Byte) : Bool :=
  match r with
  | .fixed n => p.length = n
  | .tableWrite => 8 ≤ p.length && p.length = 8 + u32 p 4
  | .canTx => 12 ≤ p.length && p.length ≤ 76 && (15 < u8 p 3 ||
      (frameLen (bitAt (u8 p 2) 0) (bitAt (u8 p 2) 2) (u8 p 3)).any (fun n => p.length = 12 + n))
  | .imageWrite => 8 ≤ p.length && p.length ≤ 4072

/-- C_op in postmark counts (R69). -/
def costOf (i : OpInfo) (cls : Nat) (p : List Byte) : Nat :=
  (match i.cost with
   | .a => 80
   | .b => 160
   | .c => 320
   | .d => 640
   | .e => 1280
   | .vCount => 160 + 40 * ceilDiv (u32 p 4) 64
   | .vData => 160 + 40 * ceilDiv (p.length - 8) 64) + (if cls = 3 then 480 else 0)

/-- C_op of a queued letter. -/
def Queued.cost (q : Queued) : Nat :=
  match opInfo q.opc with
  | some i => costOf i q.letter.cls.val q.letter.payload
  | none => 0

/-! ### Service -/

/-- What the lane answers. -/
inductive Reply where
  /-- DONE, with receipt bytes 16-19, which give the tail length where there is a tail (R60), and the tail. -/
  | done (further : Word) (tail : List Byte)
  /-- QUEUED: the action is outstanding. -/
  | queued (a : Action)
  /-- QUEUED, and the final receipt at the same postmark. -/
  | ended (a : Action) (st : Status) (detail : Nat) (further : Word)
  /-- A refusal or FAILED. -/
  | refuse (st : Status) (detail : Nat) (further : Word)
  /-- ABORT: the receipt follows at the tick instant, whatever it will be (R83). -/
  | later (refusal : Option (Status × Nat))
deriving DecidableEq, Repr

/-- The order of service (R75): arrival postmark, then port. -/
def servedBefore (a b : Queued) : Bool :=
  decide (a.arrival < b.arrival) || (decide (a.arrival = b.arrival) && decide (a.letter.port.val ≤ b.letter.port.val))

/-- The next letter in the order of service. -/
def nextQueued : List Queued → Option Queued
  | [] => none
  | q :: l => match nextQueued l with
    | none => some q
    | some r => if servedBefore q r then some q else some r

/-- Whether a queued letter is the one that a letter row names. -/
def sameLetter (opc : Nat) (l : Letter) (q : Queued) : Bool :=
  q.opc = opc && q.letter.port = l.port && q.letter.src = l.src && q.letter.seq = l.seq

/-- The privileged key in force (R534): the stored key in force, or the transport key. -/
def State.keyBytes (s : State) : List Byte :=
  match s.flash.keyForce with
  | some k => k
  | none => sha256 ((List.range 16).map Config.serial)

/-- The tag of a letter over a challenge (R65), as a number of eight little-endian bytes. -/
def State.tagFor (s : State) (ch : Word) (opc k : Nat) (l : Letter) : Nat :=
  natLE ((hmacSha256 s.keyBytes (bytesLE 4 ch.toNat ++ headFull opc k l ++ l.payload)).take 8)

/-- A tag failure: BAD_TAG posted, the failure counted toward the lockout (R65, R68). -/
def State.tagFailure (port : Fin 6) (s : State) : State :=
  let f := (s.lb.fails.filter fun p => s.now ≤ p + 4800000000) ++ [s.now]
  let free : Bool := match s.lb.lockEnd with | some t => decide (t ≤ s.now) | none => true
  let lb := if 3 ≤ f.length ∧ free then
      { s.lb with fails := f, lockEnd := some (s.now + 4800000000) } else { s.lb with fails := f }
  ({ s with lb := lb }).post 0x0103 port.val

/-- Whether the letter is served in the privileged view: a checked class 3 letter, or a letter of port 5 (R63, R529). -/
def privileged (l : Letter) : Bool := l.cls.val = 3 || l.port.val = 5

/-- Check 1 of R74 for class 3 letters (R63-R66), in the order of R63; steps 1 and 2 of SESSION_OPEN have their own checks (R64): a
refusal with the state after it, or the accepted letter's state. -/
def State.privCheck (opc k : Nat) (l : Letter) (s : State) : Except (Status × Nat × State) State :=
  if l.cls.val ≠ 3 ∨ l.port.val = 5 ∨ (opc = 0x0F1 ∧ u32 l.payload 0 ≠ 3) then .ok s
  else match s.lb.session with
    | none => .error (.notPrivileged, 1, s)
    | some x =>
      if x.port ≠ l.port then .error (.notPrivileged, 1, s)
      else if l.seq.toNat ≤ x.lastSeq then .error (.badCheck, 4, s)
      else if s.tagFor x.challenge opc k l ≠ l.tag.toNat then .error (.badCheck, 2, s.tagFailure l.port)
      else .ok { s with lb := { s.lb with session := some { x with lastSeq := l.seq.toNat } } }

/-- Check 2 of R74: opcodes refused as a whole in the role in force (R70). -/
def State.roleRefused (s : State) (opc : Nat) : Bool :=
  (decide (0x040 ≤ opc ∧ opc ≤ 0x04F) && s.sys.role = 1#2) || (decide (0x060 ≤ opc ∧ opc ≤ 0x063) && s.sys.role = 2#2)

/-- The opcodes that the recovery service serves (R527). -/
def recoveryOpcode (opc : Nat) : Bool := [0x000, 0x001, 0x002, 0x0F1, 0x0E0, 0x0E1, 0x0E2, 0x008].contains opc

/-- The receipt of a served letter, its journal entry, and its place among the finished letters. -/
def State.answer (opc k : Nat) (l : Letter) (gap : Bool) (st : Status) (detail : Nat) (further : Word) (tail : List Byte)
    (s : State) : State :=
  let detail := if st = .done ∨ st = .queued then b2n gap else detail
  let s := if l.cls.val = 0 then s else
    s.journal 1 st detail s.now (headFull opc k l) (l.payload.take (min k 24)) further
  let suppressed := (st = .done && l.quiet) || (st = .queued && l.finalOnly)
  let s := if suppressed then s else
    s.sendReceipt l.port l.src
      { status := st, detail := detail, op16 := opWord opc l.toHead, seq := l.seq.toNat, pm := s.now, further := further,
        tail := tail }
  let s := if st = .queued then s else s.finish { port := l.port, seq := l.seq, status := st, pm := s.now }
  let s := if 2 ≤ st.code ∧ st.code ≤ 8 then s.deadLetter l.port st.code else s
  if st = .done then s.sessionDone l.port (opWord opc l.toHead) else s

/-- The object that a letter which CONFIG_SAVE stores is about (R529): unit, input, slot, bank, mill, controller, element. -/
def keptKey (opc : Nat) (p : List Byte) : Option Nat :=
  if [0x034, 0x036, 0x050, 0x090, 0x0A3, 0x0B0].contains opc then some (u8 p 0)
  else if opc = 0x052 then some (u8 p 0 + 256 * u8 p 1)
  else if opc = 0x0B1 then some (u8 p 0 * 65536 + u16 p 2)
  else if opc = 0x0C0 then (if u8 p 0 = 1 then some 0 else none)
  else if [0x040, 0x053, 0x060, 0x062, 0x063, 0x081, 0x092].contains opc then some 0
  else none

/-- A letter accepted: its arguments are those that CONFIG_SAVE stores from now on (R529). -/
def State.keepLetter (opc : Nat) (p : List Byte) (s : State) : State :=
  match keptKey opc p with
  | some k => { s with lb := { s.lb with accepted := aput (opc * 2 ^ 24 + k) p s.lb.accepted } }
  | none => s

/-- An ABORT is served: entered in the journal as QUEUED and kept for the tick instant (R83, R359). -/
def State.abortLater (opc k : Nat) (l : Letter) (refusal : Option (Status × Nat)) (s : State) : State :=
  let a : AbortReq := { port := l.port, seq := l.seq, op16 := opWord opc l.toHead, quiet := l.quiet, refusal := refusal, pm := s.now,
                        tport := u16 l.payload 0, tseq := BitVec.ofNat 16 (u16 l.payload 2), hdr := headFull opc k l, src := l.src }
  ({ s with lb := { s.lb with aborts := s.lb.aborts ++ [a] } }).journal 1 .queued 0 s.now (headFull opc k l)
    (l.payload.take (min k 24)) 0

/-- The lane turns a letter away before its effect; an ABORT is told at the tick instant (R83). -/
def State.turnAway (opc k : Nat) (l : Letter) (gap : Bool) (st : Status) (detail : Nat) (s : State) : State :=
  if opc = 0x0F0 then s.abortLater opc k l (some (st, detail)) else s.answer opc k l gap st detail 0 []

/-- A reply made into receipts. -/
def State.reply (opc k : Nat) (l : Letter) (gap : Bool) (r : Reply) (s : State) : State :=
  let out (a : Action) : Outst :=
    { act := a, port := l.port, seq := l.seq, op16 := opWord opc l.toHead, quiet := l.quiet, hdr := headFull opc k l,
      src := l.src, gap := gap }
  match r with
  | .done further tail => s.answer opc k l gap .done 0 (if tail.isEmpty then further else word tail.length) tail
  | .refuse st detail further => s.answer opc k l gap st detail further []
  | .queued a =>
    let s := s.answer opc k l gap .queued 0 0 []
    { s with lb := { s.lb with outst := s.lb.outst ++ [out a] } }
  | .ended a st detail further =>
    let s := s.answer opc k l gap .queued 0 0 []
    s.finalReceipt { out := out a, status := st, detail := detail, further := further, pm := s.now }
  | .later refusal => s.abortLater opc k l refusal

/-- What an opcode does when it is served: its argument and reserved-byte check (the lowest offending offset), whether the
addressed registers need the privileged view, and its effect with its reply. A refusing reply leaves
the state, but for what a FAILED reply says it counted and posted. -/
structure Handler where
  bad : State → Letter → Option Nat
  needsPriv : State → Letter → Bool
  run : Letter → State → Reply × State

/-- The letters queued from a port. -/
def State.portQueue (s : State) (p : Fin 6) : List Queued := s.lb.queue.filter (·.letter.port = p)

/-- The allowance of a source in counts: LETTER_SHAREs.SHARE × LETTER_BUDGET.WINDOW (R73). -/
def State.allowance (s : State) (p : Fin 6) : Nat := s.fld (0x10010 + 4 * p.val) 0 8 * 20 * s.fld 0x10000 16 8

/-- A letter finds room within its source's allowance (R73). -/
def State.shareOk (s : State) (q : Queued) : Bool :=
  let mine := s.portQueue q.letter.port
  mine.isEmpty || decide ((mine.map Queued.cost).foldl (· + ·) 0 + q.cost ≤ s.allowance q.letter.port)

/-- A letter joins its source queue; QUEUE_FULL at 64 letters (R73). -/
def State.enqueue (q : Queued) (s : State) : State :=
  let s := ({ s with lb := { s.lb with queue := s.lb.queue ++ [q] } }).noteWake 10
  if (s.portQueue q.letter.port).length = 64 then s.post 0x0102 q.letter.port.val else s

/-- The letters held for port 5, oldest first, are posted as far as port 5's queue and allowance admit them (R73). -/
def State.admitFrom : List Queued → State → State
  | [], s => { s with lb := { s.lb with held5 := [] } }
  | q :: r, s =>
    if (s.portQueue 5).length < 64 && s.shareOk q then State.admitFrom r (s.enqueue { q with arrival := s.now })
    else { s with lb := { s.lb with held5 := q :: r } }

/-- The letters held for port 5 that it now admits are posted (R73). -/
def State.admitHeld (s : State) : State := State.admitFrom s.lb.held5 s

/-- A letter that the lane posts on port 5: held by the firmware, and posted as soon as it is admitted (R73). -/
def State.post5 (opc cls : Nat) (payload : List Byte) (s : State) : State :=
  let l : Letter := { dt := 0, port := 5, cls := ⟨cls % 4, Nat.mod_lt _ (by decide)⟩, seq := 0, quiet := false,
                      finalOnly := false, deadline := 0, tag := 0, payload := payload }
  let q : Queued := { letter := l, opc := opc, arrival := s.now, gap := false }
  ({ s with lb := { s.lb with held5 := s.lb.held5 ++ [q] } }).admitHeld

/-- The receipts waiting on a port: ports 1-3 and 5 hold none (notes/assumptions/11.md). -/
def State.waiting (s : State) (p : Fin 6) : Nat :=
  if p.val = 0 then s.lb.rcpt0.length
  else if p.val = 4 then (s.lb.rcpt4.filter fun o => match o with | .receipt _ => true | .letter _ => false).length
  else 0

/-- The receipts that an opcode can still produce. -/
def stagesOf (opc : Nat) : Nat := match opInfo opc with | some i => i.stages | none => 1

/-- The receipt entries of a port that are taken or reserved (notes/assumptions/11.md). -/
def State.reserved (s : State) (p : Fin 6) : Nat :=
  s.waiting p + ((s.portQueue p).map fun q => stagesOf q.opc).foldl (· + ·) 0 + (s.lb.outst.filter (·.port = p)).length +
    (s.lb.deferred.filter (·.out.port = p)).length + (s.lb.aborts.filter (·.port = p)).length

/-- A refusal by the letterbox (R58, R72): its receipt if the port has a free entry, neither taken nor reserved (R73), the finished
letter, the dead letter. -/
def State.boxRefuse (port : Fin 6) (src : Addr) (op16 : Nat) (seq : BitVec 16) (st : Status) (detail : Nat) (s : State) : State :=
  let s := if s.reserved port < 128 then
      (s.sendReceipt port src
        { status := st, detail := detail, op16 := op16, seq := seq.toNat, pm := s.now, further := 0, tail := [] }).finish { port := port, seq := seq, status := st, pm := s.now }
    else s
  s.deadLetter port st.code

/-- The checks that the letterbox and the lane make before the opcode's own state checks (R74): the state after the letter has been
turned away, or the state in which its effect is tried. -/
def State.gate (opc : Nat) (i : OpInfo) (h : Handler) (l : Letter) (gap : Bool) (s : State) : Except State State :=
  if ¬ i.classes.contains l.cls.val then .error (s.boxRefuse l.port l.src (opWord opc l.toHead) l.seq .badOpcode 0)
  else if ¬ i.len.ok l.payload then .error (s.boxRefuse l.port l.src (opWord opc l.toHead) l.seq .badArg 0xFF)
  else if s.pwr.phase = .recovery ∧ ¬ recoveryOpcode opc then .error (s.turnAway opc i.ctl l gap .wrongState 0xE9)
  else match s.privCheck opc i.ctl l with
  | .error (st, d, t) => .error (t.turnAway opc i.ctl l gap st d)
  | .ok s =>
    if s.roleRefused opc then .error (s.answer opc i.ctl l gap .wrongState 1 0 [])
    else match h.bad s l with
    | some o => .error (s.answer opc i.ctl l gap .badArg (min o 0xFB) 0 [])
    | none =>
      if h.needsPriv s l && !privileged l then .error (s.answer opc i.ctl l gap .notPrivileged 2 0 [])
      else .ok s

/-- The effect of a letter that has passed the gate, with its receipts. A refusal leaves the state, but for what a FAILED or
BAD_CHECK reply, or a refused register letter, says it counted and posted. -/
def State.conclude (opc : Nat) (i : OpInfo) (h : Handler) (l : Letter) (gap : Bool) (s : State) : State :=
  let r := h.run l s
  match r.1 with
  | .refuse st d f =>
    (if st = .failed ∨ st = .badCheck ∨ opc = 3 ∨ opc = 4 then r.2 else s).answer opc i.ctl l gap st d f []
  | _ => (r.2.keepLetter opc l.payload).reply opc i.ctl l gap r.1

/-- This is the instant at which the charge of the letter in service is used up (R75): the letter-window time charged to it has
just reached `cost`, within the window. -/
def State.chargeEnds (s : State) (cost : Nat) : Bool :=
  let x := (s.now - s.sys.tickAt) % s.tickLen
  decide (s.lb.charged = cost ∧ 800 < x ∧ x ≤ 800 + s.budgetLen)

/-- The letter that a row names, if its effects take hold now (R75): it is next in the order of service, and its charge is used up at
this instant (notes/assumptions/6.md). With it its gap bit and the state without it in the queue. -/
def State.taken (opc : Nat) (l : Letter) (s : State) : Option (Letter × Bool × State) :=
  match nextQueued s.lb.queue with
  | some q =>
    if s.serving && decide (s.lane.jtick < 256) && sameLetter opc l q && s.chargeEnds q.cost then
      some (q.letter, q.gap, ({ s with lb := { s.lb with queue := s.lb.queue.erase q, charged := 0 } }).admitHeld)
    else none
  | none => none

/-- A letter row: `dt` passes; a letter that the lane takes goes through the gate and has its effect; otherwise only the time
passes. -/
def State.serve (opc : Nat) (h : Handler) (l : Letter) (s : State) : State :=
  let s := s.advance l.dt
  match opInfo opc, s.taken opc l with
  | some i, some (q, gap, s') =>
    (match s'.gate opc i h q gap with
     | .error t => t
     | .ok t => t.conclude opc i h q gap)
  | _, _ => s

/-- The letter of a row, its gap bit and the state in which its effect is tried, if the row's letter is taken and passes the gate. -/
def State.admitted (opc : Nat) (h : Handler) (l : Letter) (s : State) : Option (OpInfo × Letter × Bool × State) :=
  match opInfo opc, (s.advance l.dt).taken opc l with
  | some i, some (q, gap, s') =>
    (match s'.gate opc i h q gap with
     | .error _ => none
     | .ok t => some (i, q, gap, t))
  | _, _ => none

/-- A handler without the register view: arguments, then the effect. -/
def handler (bad : State → List Byte → Option Nat) (run : Letter → State → Reply × State) : Handler :=
  { bad := fun s l => bad s l.payload, needsPriv := fun _ _ => false, run := run }

/-- A refusal that leaves the state. -/
def refuse (st : Status) (detail : Nat) (s : State) : Reply × State := (.refuse st detail 0, s)

/-- A refusal with receipt bytes 16-19. -/
def refuseWith (st : Status) (detail further : Nat) (s : State) : Reply × State := (.refuse st detail (word further), s)

/-- DONE with nothing in bytes 16-19. -/
def doneWith (s : State) : Reply × State := (.done 0 [], s)

end Sys2Proof.Machine
end

