-- ==== Sys2Proof/Machine/Can.lean ====
section
/-! DEFINITION. The CAN FD controllers (R451-R474): states, bit timing, message RAM, filters, reception, transmission, errors
and bus-off. What ISO 11898-1 makes of errors, and the outcome of an attempt, come from outside with the frame. -/
namespace Sys2Proof.Machine

/-- The block base of a controller (R33). -/
def canBase (c : Nat) : Nat := 0xB0000 + 0x10000 * c

/-- A controller's event code 0xnn.. (R46). -/
def canEvent (c : Fin 3) (k : Nat) : Nat := 0x0B00 + 0x100 * c.val + k

/-- A controller replaced. -/
def State.setCan (c : Fin 3) (q : CanSt) (s : State) : State := { s with can := s.can.set c q }

/-- CANx_BUFn.USE, and the FIFO of a member (R458). -/
def State.bufUse (s : State) (c : Fin 3) (b : Nat) : Nat := s.fld (canBase c.val + 0x1000 + 4 * b) 0 2
/-- CANx_BUFn.FIFO. -/
def State.bufFifo (s : State) (c : Fin 3) (b : Nat) : Nat := s.fld (canBase c.val + 0x1000 + 4 * b) 2 1

/-- A field of CANx_CFG. -/
def State.canCfg (s : State) (c : Fin 3) (lo len : Nat) : Nat := s.fld (canBase c.val + 4) lo len

/-- A buffer that belongs to a fixed user (R458). -/
def State.canOwned (s : State) (c : Fin 3) (b : Nat) : Bool :=
  (c.val < 2 && s.group.state ≠ 0 && decide (b < 8)) || (s.canCfg c 9 1 = 1 && decide (252 ≤ b ∧ b < 256))

/-- A stored buffer. -/
def CanSt.buf (q : CanSt) (b : Nat) : CanRec := aget (fun _ => CanRec.zero) b q.bufs
/-- A buffer stored. -/
def CanSt.putBuf (b : Nat) (r : CanRec) (q : CanSt) : CanSt := { q with bufs := aset (fun _ => CanRec.zero) b r q.bufs }
/-- A full shadow buffer. -/
def CanSt.shadow (q : CanSt) (b : Nat) : Option CanRec := (q.shadows.find? (·.1 = b)).map (·.2)
/-- A filter element. -/
def CanSt.filter (q : CanSt) (e : Nat) : CanFilter := aget (fun _ => ⟨0, 0, 0⟩) e q.filters

/-- The member buffers of a receive FIFO, ascending (R464). -/
def State.members (s : State) (c : Fin 3) (f : Nat) : List Nat :=
  (List.range 256).filter fun b => s.bufUse c b = 3 && s.bufFifo c b = f && !s.canOwned c b

/-- The error counters as event detail and in CANx_ERR (R472). -/
def CanSt.counters (q : CanSt) : Nat := min q.txc 255 + 256 * min q.rxc 255

/-- A pending buffer's CAN_TX ends (R466); none of an attempt that runs on after its receipt (R470). -/
def State.endTx (c : Fin 3) (p : CanPend) (st : Status) (detail further : Nat) (s : State) : State :=
  if p.ended then s else s.complete (.canTx c p.buf) st detail further

/-- Every pending buffer of a controller is cancelled; `counts`: bytes 16-19 give the attempts. -/
def State.cancelPend (c : Fin 3) (ps : List CanPend) (detail : Nat) (counts : Bool) (s : State) : State :=
  let q := s.can[c]
  let s := s.setCan c { q with pend := q.pend.filter fun p => !(ps.any (·.buf = p.buf)) }
  ps.foldl (fun s p => s.endTx c p .failed detail (if counts then p.attempts else 0)) s

/-! ### Bit timing (R454) -/

/-- Whether CANx_NBT and CANx_DBT together break R454. -/
def bitTimingBad (nbt dbt : Nat) : Bool :=
  let nb := bitsAt nbt 0 6
  let n1 := bitsAt nbt 6 9
  let n2 := bitsAt nbt 15 7
  let nj := bitsAt nbt 22 7
  let db := bitsAt dbt 0 6
  let d1 := bitsAt dbt 6 5
  let d2 := bitsAt dbt 11 4
  let dj := bitsAt dbt 15 4
  let nq := nb * (1 + n1 + n2)
  let dq := db * (1 + d1 + d2)
  decide (nb < 1 ∨ 32 < nb ∨ n1 < 2 ∨ 256 < n1 ∨ n2 < 1 ∨ 127 < n2 ∨ nj < 1 ∨ n2 < nj) ||
    decide (db < 1 ∨ 32 < db ∨ d1 < 1 ∨ d2 < 1 ∨ dj < 1 ∨ d2 < dj) ||
    decide (nq < 80 ∨ 8000 < nq ∨ dq < 10 ∨ nq < dq) || (decide (dq < 40) && !bitAt dbt 19)

/-- A register write in a CAN block is refused (R453, R454, R458): `a` the address, `v` the new stored value. -/
def State.canRefused (s : State) (a v : Nat) : Option (Status × Nat × Nat) :=
  let c : Fin 3 := fidx 2 ((a - 0xB0000) / 0x10000)
  let o := (a - 0xB0000) % 0x10000
  let q := s.can[c]
  if o = 8 ∧ bitTimingBad v (s.reg (canBase c.val + 12)) then some (.badArg, 4, 0)
  else if o = 12 ∧ bitTimingBad (s.reg (canBase c.val + 8)) v then some (.badArg, 4, 0)
  else if 0x1400 ≤ o then none
  else if 0x1000 ≤ o ∧ s.canOwned c ((o - 0x1000) / 4) then some (.wrongState, 0xB3, 0)
  else if (o = 4 ∨ o = 8 ∨ o = 12 ∨ 0x1000 ≤ o) ∧ q.state ≠ 0 then some (.wrongState, 0xB0, 0)
  else none

/-! ### States (R452) -/

/-- The pin CANx_STB is driven high: the transceiver is in standby in state 3 and at reset (R452, R548). -/
def State.canStb (s : State) (c : Fin 3) : Bool := s.inReset || s.can[c].state = 3

/-- The controller of a letter. -/
def canOf (p : List Byte) : Fin 3 := fidx 2 (u8 p 0)

/-- The buffers that a change of state ends: all pending ones, but the one on the bus when the new state is 0 (R484). -/
def CanSt.leaving (m : Nat) (q : CanSt) : List CanPend := q.pend.filter fun p => !(m = 0 && q.onBus = some p.buf)

/-- A controller's state set (R452, R473). -/
def State.canState (c : Fin 3) (m : Nat) (s : State) : State :=
  let q := s.can[c]
  let s := if q.state = 1 ∧ m ≠ 1 then s.cancelPend c (q.leaving m) 0xB6 false else s
  let q := s.can[c]
  let fresh := (m = 1 || m = 2) && (q.state = 0 || q.state = 3)
  let recover := q.errst = 2 && m = 1
  s.setCan c { q with state := m, integ := fresh || (q.integ && (m = 1 || m = 2)),
                      errst := if recover then 3 else if m = 0 ∧ 2 ≤ q.errst then 0 else q.errst,
                      txc := if m = 0 ∧ 2 ≤ q.errst then 0 else q.txc, rxc := if m = 0 ∧ 2 ≤ q.errst then 0 else q.rxc,
                      onBus := if m = 0 ∨ m = q.state then q.onBus else none }

/-- CAN_MODE (R452). -/
def canModeHandler : Handler :=
  handler (fun _ p => lowestBad p [(2, 2)] [(0, decide (2 < u8 p 0)), (1, decide (3 < u8 p 1))])
    fun l s =>
      let c := canOf l.payload
      let m := u8 l.payload 1
      if s.can[c].state = 1 ∧ m ≠ 1 ∧ c.val < 2 ∧ s.group.mask.getLsbD c.val ∧ s.group.state ≠ 0 then refuse .wrongState 0xB3 s
      else doneWith (s.canState c m)

/-- CAN_MODE: sets a controller to initialisation, normal, listen-only or off. -/
def execCanMode (l : Letter) (s : State) : Host.Outcome State Fault Refusal := .next (s.serve 0x0B0 canModeHandler l)

/-- CAN_FILTER (R461, R462). -/
def canFilterHandler : Handler :=
  handler (fun _ p =>
      let w0 := u32 p 4
      let w1 := u32 p 8
      let w2 := u32 p 12
      let key := bitsAt w0 0 29
      let span := bitsAt w1 0 29
      let rsv := bitsAt w0 30 2 ≠ 0 || bitsAt w1 29 3 ≠ 0 || bitAt w2 7 || bitsAt w2 16 16 ≠ 0
      lowestBad p [] [(0, decide (2 < u16 p 0)), (2, decide (255 < u16 p 2)),
        (4, (!bitAt w0 29 && decide (0x7FF < key ∨ 0x7FF < span)) || decide (bitsAt w2 0 2 = 2 ∧ span < key)),
        (12, rsv || bitsAt w2 2 2 = 3 || decide (4 ≤ bitsAt w2 4 3))])
    fun l s =>
      let p := l.payload
      let c := canOf p
      let q := s.can[c]
      if q.state ≠ 0 then refuse .wrongState 0xB0 s
      else if bitsAt (u32 p 12) 4 3 = 3 ∧ s.bufUse c (bitsAt (u32 p 12) 8 8) ≠ 2 then refuse .wrongState 0xB1 s
      else
        let e : CanFilter := ⟨word (u32 p 4), word (u32 p 8), word (u32 p 12)⟩
        doneWith (s.setCan c { q with filters := aset (fun _ => ⟨0, 0, 0⟩) (u16 p 2) e q.filters })

/-- CAN_FILTER: writes a filter element of a controller in initialisation. -/
def execCanFilter (l : Letter) (s : State) : Host.Outcome State Fault Refusal := .next (s.serve 0x0B1 canFilterHandler l)

/-! ### Transmission (R466-R471) -/

/-- The frame that a CAN_TX carries. -/
def txFrame (p : List Byte) : CanFrame :=
  let fl := u8 p 2
  let n := (frameLen (bitAt fl 0) (bitAt fl 2) (u8 p 3)).getD 0
  { id := bitsAt (u32 p 4) 0 29, xtd := bitAt (u32 p 4) 29, fdf := bitAt fl 0, brs := bitAt fl 1, esi := false, rtr := bitAt fl 2,
    dlc := u8 p 3, data := slice p 12 n }

/-- CAN_TX (R466). -/
def canTxHandler : Handler :=
  handler (fun s p =>
      let fl := u8 p 2
      let id := u32 p 4
      lowestBad p [(8, 4)] [(0, decide (2 < u8 p 0)),
        (2, (bitAt fl 0 && s.canCfg (canOf p) 0 1 = 0) || (bitAt fl 1 && !bitAt fl 0) || (bitAt fl 2 && bitAt fl 0) ||
          decide (bitsAt fl 5 3 ≠ 0)),
        (3, decide (15 < u8 p 3)),
        (4, (!bitAt id 29 && decide (0x7FF < bitsAt id 0 29)) || decide (bitsAt id 30 2 ≠ 0))])
    fun l s =>
      let p := l.payload
      let c := canOf p
      let b : Fin 256 := fidx 255 (u8 p 1)
      let q := s.can[c]
      if s.canOwned c b.val then refuse .wrongState 0xB3 s
      else if s.bufUse c b.val ≠ 1 then refuse .wrongState 0xB1 s
      else if q.pend.any (·.buf = b) then refuse .wrongState 0xB2 s
      else if q.state ≠ 1 then refuse .wrongState 0xB0 s
      else
        let q := q.putBuf b.val { CanRec.zero with frame := txFrame p }
        let pd : CanPend := { buf := b, twinStop := bitAt (u8 p 2) 3, single := bitAt (u8 p 2) 4, attempts := 0, twinCnt := 0,
                              twinSeen := false, late := false, ended := false }
        (.queued (.canTx c b), s.setCan c { q with pend := q.pend ++ [pd] })

/-- CAN_TX: loads a frame into a transmit buffer and makes it pending. -/
def execCanTx (l : Letter) (s : State) : Host.Outcome State Fault Refusal := .next (s.serve 0x0B2 canTxHandler l)

/-- The argument check of CAN_READ and CAN_CANCEL (R465). -/
def canBufBad (s : State) (p : List Byte) : Option Nat :=
  let c := canOf p
  let b := u16 p 2
  lowestBad p [] [(0, decide (2 < u16 p 0)),
    (2, decide (0x101 < b) || (decide (0x100 ≤ b) && (s.members c (b - 0x100)).isEmpty) || (decide (b < 0x100) && s.bufUse c b = 0))]

/-- A cancel request for a pending buffer (R468): whether it is late. -/
def State.cancelTx (c : Fin 3) (b : Fin 256) (s : State) : Bool × State :=
  let q := s.can[c]
  if q.onBus = some b then
    let q := { q with pend := q.pend.map fun p => if p.buf = b then { p with late := true } else p }
    (true, (s.setCan c q).post (canEvent c 2) b.val)
  else
    (false, (s.setCan c { q with pend := q.pend.filter (·.buf ≠ b) }).complete (.canTx c b) .aborted 0 0)

/-- CAN_CANCEL (R468). -/
def canCancelHandler : Handler :=
  handler canBufBad fun l s =>
    let c := canOf l.payload
    let b := u16 l.payload 2
    if s.canOwned c b then refuse .wrongState 0xB3 s
    else if !(s.can[c].pend.any fun p => decide (p.buf.val = b) && !p.ended) then refuse .wrongState 0xB4 s
    else
      let r := s.cancelTx c (fidx 255 b)
      (.done (word (b2n r.1)) [], r.2)

/-- CAN_CANCEL: requests cancellation of a pending transmit buffer and reports whether it was late. -/
def execCanCancel (l : Letter) (s : State) : Host.Outcome State Fault Refusal := .next (s.serve 0x0B3 canCancelHandler l)

/-- An ABORT makes a cancel request at its tick instant (R470): both ABORTED receipts carry that instant. -/
def State.abortTx (c : Fin 3) (b : Fin 256) (s : State) : Nat × State :=
  let q := s.can[c]
  if q.onBus = some b then
    let q := { q with pend := q.pend.map fun p => if p.buf = b then { p with late := true, ended := true } else p }
    (1, (s.setCan c q).post (canEvent c 2) b.val)
  else (0, s.setCan c { q with pend := q.pend.filter (·.buf ≠ b) })

/-- The 80 bytes of a buffer record (R459). -/
def CanRec.bytes (r : CanRec) : List Byte :=
  bytesLE 4 (r.frame.id % 2 ^ 29 + 2 ^ 29 * b2n r.frame.xtd) ++
    [BitVec.ofNat 8 (r.frame.dlc % 16), BitVec.ofNat 8 (b2n r.frame.fdf + 2 * b2n r.frame.brs + 4 * b2n r.frame.esi + 8 * b2n r.frame.rtr),
     BitVec.ofNat 8 r.acc, BitVec.ofNat 8 (b2n r.fresh + 2 * b2n r.lost + 4 * b2n r.cancelLate + 8 * b2n r.sent)] ++
    bytesLE 8 r.pm ++ slice r.frame.data 0 64

/-- CAN_READ (R465). -/
def canReadHandler : Handler :=
  handler canBufBad fun l s =>
    let c := canOf l.payload
    let b := u16 l.payload 2
    let q := s.can[c]
    if s.canOwned c b then refuse .wrongState 0xB3 s
    else if b < 0x100 then
      let r := q.buf b
      let s := if s.bufUse c b = 2 then s.setCan c (q.putBuf b { r with fresh := false, lost := false }) else s
      (.done 0 r.bytes, s)
    else
      let one := b = 0x101
      match (if one then q.fifo1 else q.fifo0) with
      | [] => refuse .wrongState 0xB4 s
      | n :: rest =>
        let lost := if one then q.fifoLost1 else q.fifoLost0
        let r := q.buf n
        let q := q.putBuf n { r with fresh := false, lost := false }
        let q := if one then { q with fifo1 := rest, fifoLost1 := false } else { q with fifo0 := rest, fifoLost0 := false }
        (.done 0 ({ r with lost := r.lost || lost }).bytes, s.setCan c q)

/-- CAN_READ: returns a buffer or FIFO head record, clearing NEW and LOST or removing the FIFO frame. -/
def execCanRead (l : Letter) (s : State) : Host.Outcome State Fault Refusal := .next (s.serve 0x0B4 canReadHandler l)

/-! ### Locks (R463) -/

/-- A released lock moves a full shadow's frame into its buffer. -/
def CanSt.release (b : Nat) (q : CanSt) : CanSt :=
  match q.shadow b with
  | some r => { (q.putBuf b { r with fresh := true }) with shadows := adel b q.shadows }
  | none => q

/-- CANx_LOCKw written: bits of buffers that are not dedicated receive buffers are ignored. -/
def State.lockWrite (c : Fin 3) (w v : Nat) (s : State) : State :=
  let q := s.can[c]
  let new : BitVec 256 := maskOf 256 fun b =>
    if b / 32 = w then bitAt v (b % 32) && s.bufUse c b = 2 else q.lock.getLsbD b
  let freed := (List.range 256).filter fun b => q.lock.getLsbD b && !new.getLsbD b
  s.setCan c (freed.foldl (fun q b => q.release b) { q with lock := new })

/-! ### Reception (R460-R464) -/

/-- The frame types that GROUP takes (R460), and all that R263 lists. -/
def groupTypes : List Nat := [0x01, 0x10, 0x20, 0x40, 0x41, 0x50, 0x51]

/-- The frame type, sender and qualifier of an extended identifier (R263). -/
def frameType (id : Nat) : Nat := bitsAt id 12 8
/-- The sender field. -/
def frameSender (id : Nat) : Nat := bitsAt id 20 6
/-- The qualifier field. -/
def frameQual (id : Nat) : Nat := bitsAt id 0 12

/-- A listed frame that GROUP ignores and counts (R264). Letter and receipt segments: a sender of 1-63, qualifier bits [11:6] 0, and
64 data bytes or, for a LAST one, at least its control byte and one more (R49). -/
def groupFrameBad (f : CanFrame) : Bool :=
  let t := frameType f.id
  let len := match t with
    | 0x01 => 32
    | 0x10 | 0x51 => 64
    | 0x70 | 0x71 => if bitAt (u8 f.data 0) 6 then f.data.length else 64
    | _ => 8
  let n := frameSender f.id
  let q := frameQual f.id
  let range := match t with
    | 0x40 | 0x41 => q = 0
    | 0x51 => n = 0 || 64 ≤ q || q = 0
    | 0x70 | 0x71 => n = 0 || 64 ≤ q || decide (f.data.length < 2)
    | _ => n = 0 || q ≠ 0
  f.data.length ≠ len || range

/-- One more in GROUP_COUNT.DISCARD. -/
def State.groupDiscard (s : State) : State :=
  { s with group := { s.group with discard := satAdd 0xFF s.group.discard 1 } }

/-- The own number for letters (R460). -/
def State.ownNumber (s : State) (c : Fin 3) : Nat :=
  if c.val < 2 ∧ s.group.car ≠ 0 then s.group.car else s.canCfg c 16 6

/-- A frame for the letterbox (R460). -/
def State.letterFrame (s : State) (c : Fin 3) (f : CanFrame) : Bool :=
  s.canCfg c 9 1 = 1 && f.xtd && frameType f.id = 0x70 && bitsAt f.id 6 6 = 0 && bitsAt f.id 0 6 = s.ownNumber c

/-- A filter element matches a frame (R461, R462). -/
def CanFilter.accepts (e : CanFilter) (f : CanFrame) : Bool :=
  let w0 := e.w0.toNat
  let key := bitsAt w0 0 29
  let span := bitsAt e.w1.toNat 0 29
  let m := bitsAt e.w2.toNat 0 2
  let fm := bitsAt e.w2.toNat 2 2
  bitAt w0 29 = f.xtd && (fm = 0 || (fm = 1 && !f.fdf) || (fm = 2 && f.fdf)) &&
    (match m with
     | 1 => f.id &&& span = key &&& span
     | 2 => decide (key ≤ f.id ∧ f.id ≤ span)
     | 3 => f.id = key || f.id = span
     | _ => false)

/-- RX_OVERRUN: posted and counted (R463, R464). -/
def State.rxOverrun (c : Fin 3) (detail : Nat) (s : State) : State :=
  let q := s.can[c]
  (s.setCan c { q with overrun := satAdd 0xFF q.overrun 1 }).post (canEvent c 6) detail

/-- A rejected frame. -/
def State.rejectFrame (c : Fin 3) (s : State) : State :=
  let q := s.can[c]
  s.setCan c { q with rej := satAdd 0xFF q.rej 1 }

/-- A frame stored in a dedicated receive buffer or its shadow (R463). -/
def State.storeBuf (c : Fin 3) (b : Nat) (r : CanRec) (s : State) : State :=
  let q := s.can[c]
  if q.lock.getLsbD b then
    match q.shadow b with
    | none => s.setCan c { q with shadows := aput b r q.shadows }
    | some _ => (s.setCan c { q with shadows := aput b { r with lost := true } q.shadows }).rxOverrun c b
  else
    let old := (q.buf b).fresh
    let s := s.setCan c (q.putBuf b { r with fresh := true, lost := old })
    if old then s.rxOverrun c b else s

/-- The ring position after the last one stored. -/
def nextMember (ms : List Nat) (last : Option Nat) : Option Nat :=
  match last with
  | none => ms.head?
  | some k => match ms.find? (k < ·) with
    | some n => some n
    | none => ms.head?

/-- A frame stored in a receive FIFO (R464). -/
def State.storeFifo (c : Fin 3) (f : Nat) (r : CanRec) (s : State) : State :=
  let q := s.can[c]
  let ms := s.members c f
  let one := f = 1
  let held := if one then q.fifo1 else q.fifo0
  let full := decide (ms.length ≤ held.length)
  match nextMember ms (if one then q.fifoLast1 else q.fifoLast0) with
  | none => s.rejectFrame c
  | some n =>
    if full && s.canCfg c (7 + f) 1 = 0 then
      (s.setCan c (if one then { q with fifoLost1 := true } else { q with fifoLost0 := true })).rxOverrun c (0x100 + f)
    else
      let q := q.putBuf n { r with fresh := true }
      let held := (if full then held.drop 1 else held) ++ [n]
      let q := if one then { q with fifo1 := held, fifoLast1 := some n, fifoLost1 := q.fifoLost1 || full }
        else { q with fifo0 := held, fifoLast0 := some n, fifoLost0 := q.fifoLost0 || full }
      let s := s.setCan c q
      if full then s.rxOverrun c (0x100 + f) else s

/-- A frame offered to the filter elements (R462). -/
def State.filterFrame (c : Fin 3) (f : CanFrame) (pm : Postmark) (s : State) : State :=
  let q := s.can[c]
  let base : CanRec := { CanRec.zero with frame := f, pm := pm }
  match (List.range 256).find? fun e => (q.filter e).accepts f with
  | none =>
    (match s.canCfg c 5 2 with
     | 1 => s.storeFifo c 0 { base with acc := 0xFF }
     | 2 => s.storeFifo c 1 { base with acc := 0xFF }
     | _ => s.rejectFrame c)
  | some e =>
    let w := (q.filter e).w2.toNat
    let r := { base with acc := e }
    match bitsAt w 4 3 with
    | 1 => s.storeFifo c 0 r
    | 2 => s.storeFifo c 1 r
    | 3 => if s.bufUse c (bitsAt w 8 8) = 2 then s.storeBuf c (bitsAt w 8 8) r else s.rejectFrame c
    | _ => s.rejectFrame c

/-- The counters after an attempt to transmit (R472, ISO 11898-1; notes/assumptions/99.md): one less after a frame sent, as they
were after a lost arbitration; after an error the transmit counter has not fallen. -/
def CanSt.afterTx (r : TxEnd) (x : BusIn) (q : CanSt) : Nat × Nat :=
  match r with
  | .sent => (q.txc - 1, q.rxc)
  | .lostArbitration => (q.txc, q.rxc)
  | _ => (max q.txc (min x.txc 255), q.rxc)

/-- The counters after a frame received: one less after a correct one, and 119 to 127 from above 127; after an error the receive
counter has risen. -/
def CanSt.afterRx (ok : Bool) (x : BusIn) (q : CanSt) : Nat × Nat :=
  if ok then (q.txc, if q.rxc ≤ 127 then q.rxc - 1 else max 119 (min x.rxc 127))
  else (q.txc, max (min (q.rxc + 1) 255) (min x.rxc 255))

/-- The counters `n` and the errors that a frame leaves (R455, R472); ERROR_PASSIVE on entering error passive. In state 2 the
counters do not change. -/
def State.canBusIn (c : Fin 3) (n : Nat × Nat) (seen : BitVec 13) (s : State) : State :=
  let q := s.can[c]
  let q := { q with errSeen := q.errSeen ||| seen }
  if q.state = 2 then s.setCan c q
  else
    let q := { q with txc := n.1, rxc := n.2 }
    let passive := decide (128 ≤ n.1 ∨ 128 ≤ n.2)
    match q.errst with
    | 0 => if passive then (s.setCan c { q with errst := 1 }).post (canEvent c 3) q.counters else s.setCan c q
    | 1 => s.setCan c { q with errst := if passive then 1 else 0 }
    | _ => s.setCan c q

/-- The wake receiver watches the bus (R474). -/
def State.wakeReceiver (s : State) (c : Fin 3) : Bool :=
  s.fld (canBase c.val + 0x90) 0 1 = 1 && (s.pwr.mode = .park || s.pwr.mode = .sleep || s.can[c].state = 3)

/-- A frame decoded without error is a wake frame (R474). -/
def State.wakeFrame (c : Fin 3) (f : CanFrame) (s : State) : Bool :=
  let b := canBase c.val + 0x90
  let mask := s.reg (b + 8) % 2 ^ 29
  !f.fdf && !f.rtr && f.id &&& mask = s.reg (b + 4) &&& mask && (f.xtd == (s.fld b 2 1 = 1)) &&
    (s.fld b 3 1 = 0 || (f.dlc = s.fld b 4 4 && natLE f.data &&& s.pair (b + 20) ≠ 0))

/-- What the wake receiver makes of a frame (R474): a wake frame or the 32nd decoding error in a row wakes. -/
def State.wakeRx (c : Fin 3) (f : CanFrame) (ok : Bool) (s : State) : State :=
  let q := s.can[c]
  if f.fdf then s
  else
    let n := if ok then 0 else satAdd 32 q.wakeErrs 1
    (s.setCan c { q with wakeErrs := n }).noteIf ((ok && s.wakeFrame c f) || n = 32) (2 + c.val)

/-- The controller takes part in its bus. -/
def State.canActive (s : State) (c : Fin 3) : Bool :=
  let q := s.can[c]
  (q.state = 1 || q.state = 2) && !q.integ && q.errst < 2 && (s.pwr.mode = .run || s.pwr.mode = .doze)

/-- An FD frame while CANx_CFG.FD is 0 (R451): a protocol exception, with nothing received and no error, or, while PEX is 0, a form
error. -/
def State.fdForeign (c : Fin 3) (x : BusIn) (s : State) : State :=
  let q := s.can[c]
  if s.canCfg c 1 1 = 1 then s.setCan c { q with errSeen := q.errSeen ||| x.seen ||| 0x1000#13 }
  else s.canBusIn c (q.afterRx false x) (x.seen ||| 4#13)

/-- CAN_FRAME_RX: a frame on the bus ends (R460-R464). `ok`: received without error; `age`: counts since its start of frame.
Group frames that keep R263 reach GROUP by rows of their own. -/
def execCanFrameRx (dt : Nat) (c : Fin 3) (f : CanFrame) (ok : Bool) (age : Nat) (x : BusIn) (s : State) :
    Host.Outcome State Fault Refusal :=
  let s := s.advance dt
  if s.inReset then .next s else
  if s.wakeReceiver c then .next (s.wakeRx c f ok)
  else if !s.canActive c then .next s
  else if f.fdf && s.canCfg c 0 1 = 0 then .next (s.fdForeign c x)
  else
    let s := s.canBusIn c (s.can[c].afterRx ok x) x.seen
    if !ok then .next s
    else
      let onGroup := c.val < 2 && s.group.state ≠ 0 && f.xtd
      let taken := onGroup && groupTypes.contains (frameType f.id)
      let listed := taken || frameType f.id = 0x70 || frameType f.id = 0x71
      let s := if onGroup && (!listed || groupFrameBad f) then s.groupDiscard else s
      let own := taken || s.letterFrame c f
      if own && s.canCfg c 4 1 = 0 then .next s else .next (s.filterFrame c f (s.now - age))

/-! ### Sending (R467-R472) -/

/-- The order of arbitration (ISO 11898-1): lower wins. -/
def arbKey (f : CanFrame) : Nat :=
  2 * (if f.xtd then bitsAt f.id 18 11 * 2 ^ 21 + 2 ^ 20 + 2 ^ 19 + bitsAt f.id 0 18 * 2 + b2n f.rtr
    else bitsAt f.id 0 11 * 2 ^ 21 + b2n f.rtr * 2 ^ 20) + b2n f.fdf

/-- The least pending buffer under a key. -/
def leastBy (k : CanPend → Nat) : List CanPend → Option CanPend
  | [] => none
  | p :: l => match leastBy k l with
    | none => some p
    | some r => if k p ≤ k r then some p else some r

/-- CAN_TX_CHOICE: at a start of frame, the controller chooses one pending buffer (R467). -/
def execCanTxChoice (dt : Nat) (c : Fin 3) (s : State) : Host.Outcome State Fault Refusal :=
  let s := s.advance dt
  if s.inReset then .next s else
  let q := s.can[c]
  if !s.canActive c || q.state ≠ 1 || q.onBus.isSome then .next s
  else
    let ready := q.pend.filter fun p => !p.late && !p.ended && decide (p.twinCnt < s.canCfg c 24 4)
    let key (p : CanPend) : Nat := if s.canCfg c 3 1 = 1 then p.buf.val else arbKey (q.buf p.buf.val).frame * 256 + p.buf.val
    match leastBy key ready with
    | none => .next s
    | some p =>
      let q := q.putBuf p.buf.val { q.buf p.buf.val with pm := s.now }
      .next (s.setCan c { q with onBus := some p.buf,
                                 pend := q.pend.map fun r => if r.buf = p.buf then { r with attempts := r.attempts + 1 } else r })

/-- TWIN: posted and counted (R471). -/
def State.twinPost (c : Fin 3) (b : Fin 256) (s : State) : State :=
  let q := s.can[c]
  (s.setCan c { q with twin := satAdd 0xFF q.twin 1 }).post (canEvent c 1) b.val

/-- CAN_TX_END: the attempt on the bus ends (R466, R468, R470, R471, R484). -/
def execCanTxEnd (dt : Nat) (c : Fin 3) (r : TxEnd) (x : BusIn) (s : State) : Host.Outcome State Fault Refusal :=
  let s := s.advance dt
  if s.inReset then .next s else
  match s.can[c].onBus with
  | none => .next s
  | some b =>
    let s := s.canBusIn c (s.can[c].afterTx r x) x.seen
    let q := { s.can[c] with onBus := none }
    let fdf := (q.buf b.val).frame.fdf
    let q := if fdf && bitAt (s.reg (canBase c.val + 12)) 19 then { q with loopDly := min x.loopDly 127 } else q
    match q.pend.find? (·.buf = b) with
    | none => .next (s.setCan c q)
    | some p =>
      let gone := { q with pend := q.pend.filter (·.buf ≠ b) }
      if r = .sent then
        let gone := gone.putBuf b.val { gone.buf b.val with sent := true, cancelLate := p.late }
        .next ((s.setCan c gone).endTx c p .done 0 (b2n p.late + 2 * b2n p.twinSeen))
      else
        let cnt := if r = .dataBitError then p.twinCnt + 1 else 0
        let reached := decide (s.canCfg c 24 4 ≤ cnt)
        if p.late || p.ended || p.single || q.state ≠ 1 then
          let s := s.setCan c gone
          let s := if reached then s.twinPost c b else s
          if q.state ≠ 1 ∧ ¬ p.late then .next (s.endTx c p .failed 0xB6 0)
          else .next (s.endTx c p .aborted 0 (2 * b2n (p.twinSeen || reached)))
        else .next (s.setCan c { q with pend := q.pend.map fun t => if t.buf = b then { t with twinCnt := cnt } else t })

/-- TWIN: a buffer's count of data-field bit errors has reached TWINMAX (R471). -/
def execTwin (dt : Nat) (c : Fin 3) (b : Fin 256) (s : State) : Host.Outcome State Fault Refusal :=
  let s := s.advance dt
  if s.inReset then .next s else
  match s.can[c].pend.find? (·.buf = b) with
  | none =>
    -- a GROUP buffer that goes on trying (R302, R458)
    .next (if s.group.state ≠ 0 ∧ c ≠ 2 ∧ b.val < 8 ∧ s.canActive c then s.twinPost c b else s)
  | some p =>
    if p.twinCnt < s.canCfg c 24 4 then .next s
    else
      let s := s.twinPost c b
      let q := s.can[c]
      if p.twinStop then
        .next ((s.setCan c { q with pend := q.pend.filter (·.buf ≠ b) }).endTx c p .failed 0xB7 p.attempts)
      else
        .next (s.setCan c { q with pend := q.pend.map fun t => if t.buf = b then { t with twinCnt := 0, twinSeen := true } else t })

/-! ### Bus-off (R472, R473) -/

/-- BUS_OFF: with its transmit counter above 255, the controller enters bus-off and cancels its pending buffers. -/
def execBusOff (dt : Nat) (c : Fin 3) (x : BusIn) (s : State) : Host.Outcome State Fault Refusal :=
  let s := s.advance dt
  if s.inReset then .next s else
  let q := s.can[c]
  if q.state ≠ 1 ∨ 2 ≤ q.errst ∨ x.txc < 256 then .next s
  else
    let q := { q with errst := 2, onBus := none, boAt := s.now, busOff := satAdd 0xFF q.busOff 1, txc := 255,
                      errSeen := q.errSeen ||| x.seen }
    .next (((s.setCan c q).post (canEvent c 4) q.counters).cancelPend c q.pend 0xB5 true)

/-- BUS_OFF_RECOVERY_START: after BODELAY ms, while BORECOV is 1, the recovery sequence starts. -/
def execBusOffRecoveryStart (dt : Nat) (c : Fin 3) (s : State) : Host.Outcome State Fault Refusal :=
  let s := s.advance dt
  if s.inReset then .next s else
  let q := s.can[c]
  if q.errst = 2 ∧ s.canCfg c 2 1 = 1 ∧ q.boAt + s.fld (canBase c.val + 0x18) 0 16 * 80000 ≤ s.now then
    .next (s.setCan c { q with errst := 3 })
  else .next s

/-- BUS_RECOVERED: the 128th occurrence of 11 consecutive recessive bits returns the controller to error active, with its counters at
0 (R473); `seqs`: the occurrences since the recovery sequence started. -/
def execBusRecovered (dt : Nat) (c : Fin 3) (seqs : Nat) (s : State) : Host.Outcome State Fault Refusal :=
  let s := s.advance dt
  if s.inReset then .next s else
  let q := s.can[c]
  if q.errst ≠ 3 ∨ seqs ≠ 128 then .next s
  else
    let q := { q with errst := 0, txc := 0, rxc := 0 }
    .next ((s.setCan c q).post (canEvent c 7) q.counters)

/-- CAN_INTEGRATION_DONE: 11 consecutive recessive bits end the wait (R452). -/
def execCanIntegrationDone (dt : Nat) (c : Fin 3) (s : State) : Host.Outcome State Fault Refusal :=
  let s := s.advance dt
  if s.inReset then .next s else
  .next (s.setCan c { s.can[c] with integ := false })

end Sys2Proof.Machine
end

