-- ==== Sys2Proof/Machine/Trig.lean ====
section
/-! DEFINITION. Sine, cosine, square roots and π with 100 fraction bits, for the vector primitive (R174-R178) and the notch
(R168). The spec computes with exact real values and rounds once; here the irrational intermediate values carry 100
fraction bits (notes/assumptions/13.md). -/
namespace Sys2Proof.Machine

/-- 2^100, the scale of the fixed-point values of this file. -/
def fx : Nat := 2 ^ 100

/-- π with 100 fraction bits. -/
def piFx : Nat := 3982441812995697363688351113952

/-- √3 with 100 fraction bits. -/
def sqrt3Fx : Nat := isqrt (3 * 2 ^ 200)

/-- The terms `t − t·x²/((k+1)(k+2)) + …` of an alternating Taylor series, from the term `t` of degree `k`. -/
def taylor : Nat → Nat → Int → Int → Int
  | 0, _, _, _ => 0
  | n + 1, k, t, x => t - taylor n (k + 2) (t * x / fx * x / (fx * ((k + 1) * (k + 2)) : Nat)) x

/-- cos x for x in [0, 2π], scaled. -/
def cosFx (x : Int) : Int := taylor 48 0 fx x

/-- sin x for x in [0, 2π], scaled. -/
def sinFx (x : Int) : Int := taylor 48 1 x x

/-- An angle of `n / d` revolutions as a scaled number of radians in [0, 2π). -/
def radFx (n : Int) (d : Nat) : Int := (n % (d : Int)) * (2 * piFx : Nat) / d

/-- The product of two scaled values. -/
def mulFx (a b : Int) : Int := a * b / fx

/-- The step of a vector in its quadrant, in 4,096ths of a revolution: the largest k below 1,024 with tan(2π k / 4,096) ≤ v / u, found
bit by bit; u, v not negative. The margin covers the last places of sine and cosine. -/
def quadrantStep (u v : Int) : Nat :=
  [512, 256, 128, 64, 32, 16, 8, 4, 2, 1].foldl (fun k b =>
    let r := radFx ((k + b : Nat) : Int) 4096
    if u * sinFx r ≤ v * cosFx r + (u + v) * 2 ^ 20 then k + b else k) 0

/-- The arctangent of y over x in 4,096 steps, the step that contains it; 0 for the null vector (R196, R197). -/
def atanStep (x y : Int) : Nat :=
  if x = 0 ∧ y = 0 then 0
  else if 0 < x ∧ 0 ≤ y then quadrantStep x y
  else if x ≤ 0 ∧ 0 < y then 1024 + quadrantStep y (-x)
  else if x < 0 ∧ y ≤ 0 then 2048 + quadrantStep (-x) (-y)
  else 3072 + quadrantStep (-y) x

end Sys2Proof.Machine
end

