-- ==== Sys2Proof/Machine/Sense.lean ====
section
/-! DEFINITION. The SENSE block (R192-R220): latching, encoders, the tape, sigma-delta and converter channels, landings. -/
namespace Sys2Proof.Machine

/-! ### Encoders (R195-R202) -/

/-- The base address of an encoder channel's registers. -/
def encBase (k : Nat) : Nat := 0x40100 + 0x100 * k

/-- The mode of an encoder channel. -/
def State.encMode (s : State) (k : Nat) : Nat := s.fld (encBase k) 0 3

/-- Counts per revolution (R195's table). -/
def State.encCpr (s : State) (k : Nat) : Nat :=
  let l := s.fld (encBase k + 4) 0 24
  match s.encMode k with
  | 2 => 4096 * l
  | 3 => 6 * l
  | _ => 4 * l

/-- A count step with the sign of DIR. -/
def State.encDir (s : State) (k : Nat) (d : Int) : Int := if s.fld (encBase k) 3 1 = 1 then -d else d

/-- A signed 48-bit count. -/
def wrap48 (i : Int) : Int := sext 48 (ucode 48 i)

/-- The position of an encoder channel: round(c × SCALE / 2^48) + OFS (R195). -/
def State.encPos (s : State) (k : Nat) (c : Int) : Int :=
  roundAway (c * (s.pair (encBase k + 8) : Int)) (2 ^ 48) + s.pairInt (encBase k + 0x10)

/-- The speed of an encoder channel in µm/s (R202). -/
def State.encSpeed (s : State) (k : Nat) (d : Int) : Int :=
  roundAway (d * (s.pair (encBase k + 8) : Int) * 1000000) (2 ^ 48 * s.fld (encBase k) 16 12)

/-- θ_m of ENC0 in 2^-32 revolutions (R197). -/
def State.encAngle (s : State) : Nat :=
  let cpr := s.encCpr 0
  if cpr = 0 then 0 else ((s.sense.cnt[0] + s.sense.cabs) % (cpr : Int)).toNat * 2 ^ 32 / cpr

/-- Times of the encoder samples, in 2.5 ns. -/
def State.fineNow (s : State) : Nat := s.now * 5

/-- The count of a history at a time; before its first entry, the first count it holds. -/
def histAt (t : Nat) (l : List (Nat × Int)) : Int :=
  match l.find? (fun e => decide (e.1 ≤ t)) with
  | some e => e.2
  | none => match l.getLast? with | some e => e.2 | none => 0

/-- c(t) − c(t − W) at this instant (R202). -/
def State.encDiff (s : State) (k : Fin 3) : Int :=
  s.sense.cnt[k] - histAt (s.fineNow - s.fld (encBase k.val) 16 12 * 400) s.sense.ch[k].hist

/-- The entries that a speed window can still reach. -/
def State.histTrim (k : Fin 3) (s : State) : State :=
  let q := s.sense.ch[k]
  let r := q.hist.span fun e => decide (s.fineNow < e.1 + 4096 * 400)
  { s with sense := { s.sense with ch := s.sense.ch.set k { q with hist := r.1 ++ r.2.take 1 } } }

/-- Whether an encoder channel has no cause of invalidity (R193). -/
def State.encGood (s : State) (k : Fin 3) : Bool :=
  s.encMode k.val ≠ 0 && !s.sense.fault[k] && (k.val ≠ 0 || s.sense.angleValid)

/-- HOMED is cleared in the units whose feedback source is `c` (R128). -/
def State.clearHomed (c : Nat) (s : State) : State :=
  { s with ramp := Vector.ofFn fun u => if s.fld (rampBase u + 4) 0 4 = c then { s.ramp[u] with homed := false } else s.ramp[u] }

/-- ENC_FAULT raised: FAULT and KIND set, the source invalid, the event posted (R200). -/
def State.encFault (k : Fin 3) (kind : Nat) (s : State) : State :=
  let c := srcIdx (3 + k.val)
  let s := { s with sense := { s.sense with fault := s.sense.fault.set k true, kind := s.sense.kind.set k kind,
                                            known := s.sense.known.set c false } }
  (s.clearHomed (3 + k.val)).post 0x0401 (k.val + 256 * kind)

/-- ENC_FAULT raised unless the channel is in fault. -/
def State.encFaultNew (k : Fin 3) (kind : Nat) (s : State) : State := if s.sense.fault[k] then s else s.encFault k kind

/-- The counting of a channel replaced. -/
def State.setCh (k : Fin 3) (q : EncCh) (s : State) : State := { s with sense := { s.sense with ch := s.sense.ch.set k q } }

/-- The count moves by `d` steps, before DIR, at a time (R195, R202). -/
def State.encCount (k : Fin 3) (t : Nat) (d : Int) (s : State) : State :=
  if d = 0 then s
  else
    let c := wrap48 (s.sense.cnt[k] + s.encDir k.val d)
    let q := s.sense.ch[k]
    ({ s with sense := { s.sense with cnt := s.sense.cnt.set k c } }).setCh k { q with hist := (t, c) :: q.hist }

/-- A sample of an A/B channel: every edge that the filter lets pass counts one step, forward where A leads B; edges of both
tracks are an illegal transition (R198; notes/assumptions/89.md). -/
def State.abStep (k : Fin 3) (x : EncSample) (s : State) : State :=
  let q := s.sense.ch[k]
  let t := s.fineNow - 2 * x.age
  let filt := s.fld (encBase k.val) 8 3 * 5
  if !q.seen then s.setCh k { q with seen := true, a := x.a, b := x.b }
  else
    let ea := x.a != q.a && decide (q.atA + filt ≤ t)
    let eb := x.b != q.b && decide (q.atB + filt ≤ t)
    let n := { q with a := if ea then x.a else q.a, b := if eb then x.b else q.b, atA := if ea then t else q.atA,
                      atB := if eb then t else q.atB }
    let d : Int := if ea && eb then 0 else if ea then (if x.a != q.b then 1 else -1)
      else if eb then (if x.b = q.a then 1 else -1) else 0
    let s := (s.setCh k n).encCount k t d
    if ea && eb then s.encFaultNew k 3 else s

/-- The quadrant that the comparators of A and B show. -/
def quadrantOf (a b : Bool) : Nat := if b then (if a then 0 else 1) else (if a then 3 else 2)

/-- A sin/cos sample (R196): the comparators count periods, the arctangent gives the step within one; the amplitude is held to
its window; the two quadrants agree. -/
def State.sinStep (k : Fin 3) (x : EncSample) (s : State) : State :=
  let q := s.sense.ch[k]
  let sq := (x.x * x.x + x.y * x.y).toNat
  let lo := s.fld 0x40130 0 16
  let hi := s.fld 0x40130 16 16
  let new := quadrantOf x.a x.b
  let old := if q.seen then quadrantOf q.a q.b else new
  let per := if old = 3 ∧ new = 0 then q.periods + 1 else if old = 0 ∧ new = 3 then q.periods - 1 else q.periods
  let step := atanStep x.x x.y
  let low := if sq < lo * lo then q.low + 1 else 0
  let high := if hi * hi < sq then q.high + 1 else 0
  let n := { q with seen := true, a := x.a, b := x.b, periods := per, fine := per * 4096 + step, low := low, high := high }
  let s := ({ s with sense := { s.sense with amp := min 4095 (isqrt sq) } }).setCh k n
  let s := s.encCount k (s.fineNow - 2 * x.age) (n.fine - q.fine)
  let s := if 3 ≤ low then s.encFaultNew k 1 else s
  let s := if 3 ≤ high then s.encFaultNew k 2 else s
  if step / 1024 ≠ new ∨ (new + 4 - old) % 4 = 2 then s.encFaultNew k 3 else s

/-- A Hall sample (R199): a step to the adjacent sector counts, a jump is a count error, the states 0b000 and 0b111 are invalid. -/
def State.hallSample (k : Fin 3) (x : EncSample) (s : State) : State :=
  let q := s.sense.ch[k]
  let h := x.hall.val
  if h = 0 ∨ h = 7 then s.encFaultNew k 7
  else
    let d : Int := if q.sector = 0 ∨ h = q.sector then 0 else if h = q.sector % 6 + 1 then 1 else if q.sector = h % 6 + 1 then -1 else 0
    let jump := q.sector ≠ 0 && h ≠ q.sector && d = 0
    let s := (s.setCh k { q with seen := true, sector := h }).encCount k (s.fineNow - 2 * x.age) d
    if jump then s.encFaultNew k 3 else s

/-- One sample of a channel, as its mode takes it. -/
def State.encStep (k : Fin 3) (s : State) (x : EncSample) : State :=
  let s := if k.val = 2 then { s with sense := { s.sense with hall := x.hall.val } } else s
  match s.encMode k.val with
  | 0 => s
  | 2 => s.sinStep k x
  | 3 => s.hallSample k x
  | _ => s.abStep k x

/-- The samples of a channel since the command before, oldest first. -/
def State.encRun (k : Fin 3) (l : List EncSample) (s : State) : State := l.foldl (State.encStep k) s

/-- What the receivers of an A/B pair find: an open or shorted pair is a fault (R198). -/
def State.encLine (k : Fin 3) (ok : Bool) (s : State) : State :=
  let s := { s with sense := { s.sense with lineOk := s.sense.lineOk.set k ok } }
  if !ok && (s.encMode k.val = 1 || s.encMode k.val = 4) then s.encFaultNew k 5 else s

/-- Whether the cause of an encoder fault is absent now (R201). -/
def State.encCauseAbsent (s : State) (k : Fin 3) : Bool :=
  match s.sense.kind[k] with
  | 1 => decide (s.fld 0x40130 0 16 ≤ s.sense.amp)
  | 2 => decide (s.sense.amp ≤ s.fld 0x40130 16 16)
  | 5 => s.sense.lineOk[k]
  | 7 => decide (s.sense.hall ≠ 0 ∧ s.sense.hall ≠ 7)
  | 8 => s.sense.angleValid
  | _ => true

/-- FAULT cleared by a write of 1 while its cause is absent: the source is valid again (R193, R201). -/
def State.encFaultClear (k : Fin 3) (s : State) : State :=
  if s.sense.fault[k] then
    let s := { s with sense := { s.sense with fault := s.sense.fault.set k false } }
    if s.encGood k then
      ({ s with sense := { s.sense with known := s.sense.known.set (srcIdx (3 + k.val)) true } }).post 0x0405 (3 + k.val)
    else s
  else s

/-- An encoder source that has no cause of invalidity is valid again: SENSOR_VALID, used from the next tick (R193, R194). -/
def State.encRevive (k : Fin 3) (s : State) : State :=
  let i := srcIdx (3 + k.val)
  if s.encGood k && !s.sense.known[i] then
    ({ s with sense := { s.sense with known := s.sense.known.set i true } }).post 0x0405 (3 + k.val)
  else s

/-- A channel starts in its mode: count 0, the angle to be established (R195's opening, R197). -/
def State.encStart (k : Fin 3) (s : State) : State :=
  let q := { s.sense with cnt := s.sense.cnt.set k 0, refz := s.sense.refz.set k none,
                          ch := s.sense.ch.set k (EncCh.init s.fineNow) }
  { s with sense := if k.val = 0 then { q with cabs := 0, zsync := false, encOn := s.now,
                                               angleValid := decide (s.fld 0x40100 4 2 = 0) } else q }

/-- A channel whose mode changed from off to another. -/
def State.encEnable (k : Fin 3) (s : State) : State := (s.encStart k).encRevive k

/-- A channel whose mode changed to off is invalid (R193). -/
def State.encDisable (k : Fin 3) (s : State) : State :=
  { s with sense := { s.sense with known := s.sense.known.set (srcIdx (3 + k.val)) false } }

/-- One encoder channel at a tick instant: count, position, speed, validity, its latch. -/
def State.encLatch (k : Fin 3) (x : EncIn) (s : State) : State :=
  if s.encMode k.val = 0 then
    { s with sense := { s.sense with known := s.sense.known.set (srcIdx (3 + k.val)) false,
                                     lvalid := s.sense.lvalid.set (srcIdx (3 + k.val)) false } }
  else
    let s := (((s.encRun k x.samples).encLine k x.lineOk).histTrim k)
    let p := s.encPos k.val s.sense.cnt[k]
    let s := if s.encGood k && !posOk (ucode 64 p) then s.encFault k 6 else s
    let i := srcIdx (3 + k.val)
    if s.encGood k then
      if s.sense.known[i] then
        { s with sense := { s.sense with lvalid := s.sense.lvalid.set i true, pos := s.sense.pos.set i p,
                                         spd := s.sense.spd.set i (s.encSpeed k.val (s.encDiff k)),
                                         angle := if k.val = 0 then s.encAngle else s.sense.angle } }
      else ({ s with sense := { s.sense with known := s.sense.known.set i true, lvalid := s.sense.lvalid.set i false } }).post
        0x0405 (3 + k.val)
    else { s with sense := { s.sense with known := s.sense.known.set i false, lvalid := s.sense.lvalid.set i false } }

/-! ### The tape (R203-R206) -/

/-- Bits of a frame, n = BITS + STATUS + PARITY (R203). -/
def State.ssiBits (cfg : Nat) : Nat := bitsAt cfg 0 6 + bitsAt cfg 7 2 + bitsAt cfg 9 1

/-- T_f in ns for a configuration and timing word: (n + 1) / f (R204). -/
def ssiFrameNs (cfg tim : Nat) : Nat :=
  if bitsAt tim 0 9 = 0 then 0 else ceilDiv ((State.ssiBits cfg + 1) * 100000) (bitsAt tim 0 9)

/-- The time that a configuration needs, T_f + MONO + 2 µs, in ns (R204). -/
def ssiNeedNs (cfg tim : Nat) : Nat := ssiFrameNs cfg tim + bitsAt tim 16 7 * 1000 + 2000

/-- Whether a configuration keeps the read-timing rule of R204: a disabled one always does. -/
def State.ssiTimingOk (s : State) (cfg tim : Nat) : Bool :=
  bitsAt cfg 15 1 = 0 || (bitsAt tim 0 9 ≠ 0 && ssiNeedNs cfg tim ≤ (bitsAt cfg 12 3 + 1) * s.sys.period * 1250)

/-- SSI0 is enabled and its reads run. -/
def State.ssiOn (s : State) : Bool := s.fld 0x40400 15 1 = 1

/-- Gray to binary: the exclusive or of all right shifts, for up to 48 bits. -/
def grayDecode (n : Nat) : Nat := (List.range 48).foldl (fun a i => a ^^^ (n >>> (i + 1))) n

/-- The number of ones among the low 64 bits. -/
def popParity (n : Nat) : Bool := (List.range 64).foldl (fun b i => b ^^ n.testBit i) false

/-- The position that a raw value stands for (R206). -/
def State.ssiPos (s : State) (n : Nat) : Int :=
  let t := roundAway ((n : Int) * (s.pair 0x40408 : Int)) (2 ^ 48)
  if s.fld 0x40400 20 1 = 1 then s.pairInt 0x40410 - t else s.pairInt 0x40410 + t

/-- The speed in force, from the two latest good reads (R206). -/
def State.ssiSpeed (s : State) : Int :=
  match s.sense.ssiNew, s.sense.ssiOld with
  | some a, some b => if b.pm < a.pm then roundAway ((s.ssiPos a.raw - s.ssiPos b.raw) * 80000000) (a.pm - b.pm) else 0
  | _, _ => 0

/-- The kind of a bad read, if it is bad (R205). -/
def State.ssiBadKind (s : State) (x : SsiIn) (raw : Nat) (pm : Postmark) : Option Nat :=
  let cfg := s.reg 0x40400
  let nst := bitsAt cfg 7 2
  let st := x.status % 2 ^ nst
  let active := if bitAt cfg 10 then st ≠ 0 else st ≠ 2 ^ nst - 1
  if bitAt cfg 9 && (popParity (x.data % 2 ^ bitsAt cfg 0 6) ^^ popParity st ^^ x.parity) then some 1
  else if nst ≠ 0 && active then some 2
  else if !x.lineHigh then some 3
  else match s.sense.ssiNew with
    | some r =>
      let d := (s.ssiPos raw - s.ssiPos r.raw) * 80000000 - s.ssiSpeed * ((pm : Int) - r.pm)
      if s.reg 0x4042C ≠ 0 && d.natAbs > s.reg 0x4042C * 80000000 then some 4 else none
    | none => none

/-- A read may end at this instant (R204): its last bit arrives 1 µs before a tick instant that the grid of DIV serves, it started
at `pm`, after SSI0 was enabled, and it is the first that serves this instant. -/
def State.ssiDue (s : State) (pm : Postmark) : Bool :=
  let t := s.now + 80
  decide (t % s.tickLen = 0 ∧ t / s.tickLen % (s.fld 0x40400 12 3 + 1) = 0 ∧ s.sense.ssiFrom < pm) &&
    (match s.sense.ssiStart with | some p => decide (p ≠ pm) | none => true)

/-- SSI_READ: an SSI read completes and is checked; the tape position and speed are updated from it (R203-R206). -/
def execSsiRead (dt : Nat) (x : SsiIn) (s : State) : Host.Outcome State Fault Refusal :=
  let s := s.advance dt
  if s.inReset then .next s else
  if !s.ssiOn then .next s else
  let cfg := s.reg 0x40400
  let pm := s.now - ssiFrameNs cfg (s.reg 0x40404) * 8 / 100
  if !s.ssiDue pm then .next s else
  let s := { s with sense := { s.sense with ssiStart := some pm } }
  let v := x.data % 2 ^ bitsAt cfg 0 6
  let raw := if bitAt cfg 6 then grayDecode v else v
  match s.ssiBadKind x raw pm with
  | some kind =>
    let bad := s.sense.ssiBad + 1
    let s := { s with sense := { s.sense with ssiBad := bad, ssiGood := 0, ssiErr := satAdd 0xFFFF s.sense.ssiErr 1 } }
    if bad = s.fld 0x40400 16 4 ∨ (s.fld 0x40400 16 4 < bad ∧ s.sense.known[1] = true) then
      let s := { s with sense := { s.sense with known := s.sense.known.set 1 false, ssiNew := none, ssiOld := none } }
      .next ((s.clearHomed 1).post 0x0402 kind)
    else .next s
  | none =>
    let good := s.sense.ssiGood + 1
    let s := { s with sense := { s.sense with ssiBad := 0, ssiGood := good, ssiOld := s.sense.ssiNew,
                                              ssiNew := some ⟨raw, pm⟩, ssiLast := some ⟨raw, pm⟩ } }
    if !s.sense.known[1] && decide (2 ≤ good) then
      .next (({ s with sense := { s.sense with known := s.sense.known.set 1 true } }).post 0x0405 1)
    else .next s

/-- The tape at a tick instant (R206). -/
def State.ssiLatch (s : State) : State :=
  let ok := s.ssiOn && s.sense.known[1]
  let s := if s.ssiOn then s else { s with sense := { s.sense with known := s.sense.known.set 1 false, ssiGood := 0 } }
  match s.sense.ssiNew with
  | some r =>
    let v := s.ssiSpeed
    let n := s.ssiPos r.raw
    let p := if s.fld 0x40400 11 1 = 1 then roundAway (n * 80000000 + v * ((s.now : Int) - r.pm)) 80000000 else n
    if ok then { s with sense := { s.sense with pos := s.sense.pos.set 1 p, spd := s.sense.spd.set 1 v,
                                                lvalid := s.sense.lvalid.set 1 true } }
    else { s with sense := { s.sense with lvalid := s.sense.lvalid.set 1 false } }
  | none => { s with sense := { s.sense with lvalid := s.sense.lvalid.set 1 false } }

/-- The car position at a tick instant (R208): the newest sample moved to the tick; a sample that reports the tape invalid makes the
source invalid (R193). -/
def State.carLatch (s : State) : State :=
  if !s.machine then { s with sense := { s.sense with known := s.sense.known.set 2 false, lvalid := s.sense.lvalid.set 2 false } }
  else match s.sense.car with
  | none => { s with sense := { s.sense with lvalid := s.sense.lvalid.set 2 false, known := s.sense.known.set 2 false } }
  | some c =>
    let age := s.now - c.pm
    let q := { s.sense with carAge := satAdd 0xFFFFFFFF (age / 80) 0 }
    if s.sense.known[2] && c.valid && decide (age ≤ 60000) then
      let p := roundAway (c.p * 80000000 + c.v * ((s.now : Int) - c.pm)) 80000000 + s.pairInt 0x40710
      { s with sense := { q with pos := q.pos.set 2 p, spd := q.spd.set 2 c.v, lvalid := q.lvalid.set 2 true } }
    else { s with sense := { q with known := q.known.set 2 false, lvalid := q.lvalid.set 2 false } }

/-! ### Sigma-delta and converter channels (R211-R216) -/

/-- Moving sums of length `m`: entry i is the sum of `m` values from position i on. -/
def boxSums (m n : Nat) (l : List Nat) : List Nat := (List.range n).map fun i => ((l.drop i).take m).foldl (· + ·) 0

/-- The sum S of a sinc3 decimator of length `m` over the latest bits, newest first: three cascaded moving sums (R212). -/
def sincSum (m : Nat) (bits : List Bool) : Nat :=
  (boxSums m 1 (boxSums m m (boxSums m (2 * m) (bits.map b2n)))).getD 0 0

/-- The length M of a decimator. -/
def State.sdLen (s : State) (k : Fin 3) : Nat := s.fld (0x40510 + 0x10 * k.val) 0 9

/-- The current of a channel at its latest modulator clock, in mA (R212). -/
def State.sdCurrent (s : State) (k : Fin 3) : Int :=
  let b := 0x40510 + 0x10 * k.val
  let m := s.sdLen k
  if m = 0 then s.regInt (b + 8)
  else roundAway ((2 * (sincSum m s.sense.sd[k].bits : Int) - (m * m * m : Nat)) * s.regInt (b + 4)) (m * m * m) + s.regInt (b + 8)

/-- A decimator is enabled and its clock runs. -/
def State.sdOn (s : State) (k : Fin 3) : Bool := s.fld 0x40500 7 1 = 1 && s.fld (0x40510 + 0x10 * k.val) 13 1 = 1

/-- Readers use the channel: it is valid, and was so at a tick instant since its SENSOR_VALID (R194). -/
def State.sdUsed (s : State) (k : Fin 3) : Bool := s.sense.sdValid[k] && s.sense.sd[k].used

/-- The sigma-delta channel after a bit (R211, R213). -/
def SdCh.push (len : Nat) (b : Bool) (q : SdCh) : SdCh :=
  let same := if q.bits.head? = some b then q.same + 1 else 0
  { q with bits := (b :: q.bits).take 768, same := same, good := if 512 ≤ same then 0 else q.good + 1, clk := (q.clk + 1) % len }

/-- A current above TRIP in magnitude makes the six outputs inactive and latches TRIP (R180). -/
def State.tripCheck (k : Fin 3) (s : State) : State :=
  if s.machine && decide (s.fld 0x3400C 0 20 * 10 < (s.sdCurrent k).natAbs) then
    ({ s with loop := { s.loop with trip := true, phase := k.val, enabled := false } }).post 0x0303 k.val
  else s

/-- One modulator clock of a channel: a line without a change for 512 clocks makes it invalid (R213), 3M clocks without that
cause make it valid (R193), and every M clocks its current is compared for the trip (R212, R180). -/
def State.sdStep (k : Fin 3) (s : State) (b : Bool) : State :=
  let q := SdCh.push (s.sdLen k) b s.sense.sd[k]
  let set (q : SdCh) (valid : Bool) (s : State) : State :=
    { s with sense := { s.sense with sd := s.sense.sd.set k q, sdValid := s.sense.sdValid.set k valid } }
  let s := if q.same = 512 then (set { q with used := false } false s).post 0x0403 (k.val + 256)
    else if 3 * s.sdLen k ≤ q.good ∧ s.sense.sdValid[k] = false then (set q true s).post 0x0405 (0x10 + k.val)
    else set q s.sense.sdValid[k] s
  if q.clk = 0 then s.tripCheck k else s

/-- The bits of a channel since the command before, oldest first; none while it is off. -/
def State.sdRun (k : Fin 3) (bits : List Bool) (s : State) : State := if s.sdOn k then bits.foldl (State.sdStep k) s else s

/-- A sigma-delta channel at a tick instant. -/
def State.sdLatch (k : Fin 3) (bits : List Bool) (s : State) : State :=
  let s := s.sdRun k bits
  if s.sense.sdValid[k] then
    { s with sense := { s.sense with sdVal := s.sense.sdVal.set k (s.sdCurrent k),
                                     sd := s.sense.sd.set k { s.sense.sd[k] with used := true } } }
  else s

/-- A channel that is off is invalid, and starts anew when it is switched on (R193). -/
def State.sdSwitch (k : Fin 3) (s : State) : State :=
  if s.sdOn k then s
  else { s with sense := { s.sense with sd := s.sense.sd.set k SdCh.init, sdValid := s.sense.sdValid.set k false } }

/-- The low end of a converter channel's range and its step, in half millivolts (R214). -/
def adcRange (k : Nat) : Int × Nat := if k < 2 then (-20480, 10) else if k < 12 then (0, 5) else (0, 1)

/-- A converter channel at a tick instant: the newest conversion, or the mean, in mV (R214, R215). -/
def State.adcLatch (k : Fin 16) (conv : List (Fin 4096)) (s : State) : State :=
  let cfg := s.reg (0x40600 + 4 * k.val)
  if !bitAt cfg 0 then s else
  match conv.getLast? with
  | none => s
  | some newest =>
    let r := adcRange k.val
    let half (c : Fin 4096) : Int := r.1 + (c.val * r.2 : Nat)
    let v := if bitAt cfg 1 then roundAway ((conv.map half).foldl (· + ·) 0) (2 * conv.length) else roundAway (half newest) 2
    let s := { s with sense := { s.sense with adc := s.sense.adc.set k v } }
    let ends := if bitAt cfg 1 then decide (conv.all (·.val = 0)) || decide (conv.all (·.val = 4095))
      else decide (newest.val = 0 ∨ newest.val = 4095)
    if (bitAt cfg 2 && decide (v < 500)) || ends then s.post 0x0406 k.val else s

/-- The load measurement at a tick instant (R216). -/
def State.loadLatch (s : State) : State :=
  let cfg := s.reg 0x40840
  let ch : Fin 16 := ⟨bitsAt cfg 4 4 % 16, Nat.mod_lt _ (by decide)⟩
  match bitsAt cfg 0 2 with
  | 1 =>
    let mv := s.sense.adc[ch]
    if bitAt (s.reg (0x40600 + 4 * ch.val)) 2 && decide (mv < 500) then
      { s with sense := { s.sense with loadValid := false } }
    else { s with sense := { s.sense with loadValid := true,
                                          load := roundAway ((mv - s.regInt 0x40844) * s.regInt 0x40848) 65536 } }
  | 2 =>
    match s.sense.car with
    | some c => if s.machine && s.sense.lvalid[2] && c.loadValid then
        { s with sense := { s.sense with loadValid := true, load := c.load } }
      else { s with sense := { s.sense with loadValid := false } }
    | none => { s with sense := { s.sense with loadValid := false } }
  | _ => { s with sense := { s.sense with loadValid := false, load := 0 } }

/-! ### Landings and the mismatch check (R209, R210) -/

/-- The nearest landing: index and distance, ties to the lower index. -/
def nearestLand (p : Int) : Nat → List Int → Option (Nat × Int)
  | _, [] => none
  | i, l :: r => match nearestLand p (i + 1) r with
    | none => some (i, p - l)
    | some (j, d) => if (p - l).natAbs ≤ d.natAbs then some (i, p - l) else some (j, d)

/-- The door-zone results at a tick instant (R210). -/
def State.landLatch (s : State) : State :=
  let q := match s.sense.landNext with
    | some l => { s.sense with land := l, landNext := none }
    | none => s.sense
  let c := s.fld 0x40824 8 4
  match nearestLand (s.srcPos c) 0 q.land with
  | some (i, d) =>
    if s.srcValid c && decide (1 ≤ c ∧ c ≤ 5) then
      { s with sense := { q with landNear := i, landDist := d, landValid := true,
                                 inZone := decide (d.natAbs ≤ s.reg 0x40828), inLevel := decide (d.natAbs ≤ s.reg 0x4082C) } }
    else { s with sense := { q with landValid := false, inZone := false, inLevel := false } }
  | none => { s with sense := { q with landValid := false, inZone := false, inLevel := false } }

/-- The gearing term and step carrier of a unit, rounded: RAMPu_GEAROFS (R130, R132). -/
def RampSt.gearOfs (r : RampSt) : Int := roundAway (r.gear.g * 65536 + r.gear.e) 65536

/-- The comparison of two sources at a tick instant (R209): the count, and MISMATCH clearing. -/
def State.cmpLatch (s : State) : State :=
  let cfg := s.reg 0x40800
  let a := bitsAt cfg 4 4
  let b := bitsAt cfg 8 4
  if !bitAt cfg 0 then { s with sense := { s.sense with cmpCnt := 0 } }
  else if s.srcValid a && s.srcValid b then
    let g := match bitsAt cfg 12 3 with
      | 0 => s.ramp[0].gearOfs
      | 1 => s.ramp[1].gearOfs
      | 2 => s.ramp[2].gearOfs
      | 3 => s.ramp[3].gearOfs
      | _ => 0
    let d := s.srcPos a - s.srcPos b - g
    if s.reg 0x40804 < d.natAbs then { s with sense := { s.sense with cmpDiff := d, cmpCnt := s.sense.cmpCnt + 1 } }
    else { s with sense := { s.sense with cmpDiff := d, cmpCnt := 0, mismatch := false } }
  else s

/-- SENSE_LATCH: everything that a tick instant latches (R192, R194). -/
def State.senseLatch (x : TickIn) (s : State) : State :=
  let s := ((s.encLatch 0 x.enc[0]).encLatch 1 x.enc[1]).encLatch 2 x.enc[2]
  let s := s.ssiLatch.carLatch
  let s := ((s.sdLatch 0 x.sd[0]).sdLatch 1 x.sd[1]).sdLatch 2 x.sd[2]
  let s := (List.finRange 16).foldl (fun s k => s.adcLatch k x.adc[k]) s
  s.loadLatch.landLatch.cmpLatch

/-! ### The event rows of the block -/

/-- ENC_ABS_ANGLE_SET: after 50 µs of C/D reading, c_abs is set so that θ_m equals the arctangent of D over C to 12 bits; an
amplitude outside AMPWIN raises kind 8 (R197). `c`, `d`: the tracks in mV. -/
def execEncAbsAngleSet (dt : Nat) (c d : Int) (s : State) : Host.Outcome State Fault Refusal :=
  let s := s.advance dt
  if s.inReset then .next s else
  if s.encMode 0 = 2 ∧ s.fld 0x40100 4 2 ≠ 0 ∧ s.sense.angleValid = false ∧ s.now = s.sense.encOn + 4000 then
    let sq := (c * c + d * d).toNat
    if sq < s.fld 0x40130 0 16 ^ 2 ∨ s.fld 0x40130 16 16 ^ 2 < sq then .next (s.encFault 0 8)
    else
      let n := ceilDiv (atanStep c d * s.encCpr 0) 4096
      .next (({ s with sense := { s.sense with cabs := (n : Int) - s.sense.cnt[0], angleValid := true } }).encRevive 0)
  else .next s

/-- ENC_Z_SYNC: a Z mark, after the channel's samples up to it. With ABS 2 the first mark corrects the angle once (R197); with
REFCHK the first mark is recorded and every later one checked (R198). -/
def execEncZSync (dt : Nat) (k : Fin 3) (enc : List EncSample) (s : State) : Host.Outcome State Fault Refusal :=
  let s := s.advance dt
  if s.inReset then .next s else
  let m := s.encMode k.val
  if m = 0 ∨ m = 3 then .next s else
  let s := s.encRun k enc
  let count := s.sense.cnt[k]
  let s := if k.val = 0 ∧ m = 2 ∧ s.fld 0x40100 4 2 = 2 ∧ s.sense.angleValid ∧ s.sense.zsync = false then
      let n := ceilDiv (s.reg 0x40134 * s.encCpr 0) (2 ^ 32)
      { s with sense := { s.sense with cabs := (n : Int) - count, zsync := true } }
    else s
  if s.fld (encBase k.val) 6 1 = 1 then
    match s.sense.refz[k] with
    | none => .next { s with sense := { s.sense with refz := s.sense.refz.set k (some count) } }
    | some r =>
      let cpr := s.encCpr k.val
      let tol : Int := if m = 2 then 64 else 2
      if cpr = 0 then .next s else
      let d := (count - r) % (cpr : Int)
      if d ≤ tol ∨ (cpr : Int) - tol ≤ d then .next s else .next (s.encFaultNew k 4)
  else .next s

/-- SD_FAULT: the bits of a channel up to the clock at which its data line has not changed for 512 clocks, which makes the channel
invalid (R213). -/
def execSdFault (dt : Nat) (x : SdIn) (s : State) : Host.Outcome State Fault Refusal :=
  let s := s.advance dt
  if s.inReset then .next s else .next (s.sdRun x.k x.bits)

/-- SD_VALID: the bits of a channel up to the clock at which 3M clocks have passed without the cause, which makes the channel
valid again (R193). -/
def execSdValid (dt : Nat) (x : SdIn) (s : State) : Host.Outcome State Fault Refusal :=
  let s := s.advance dt
  if s.inReset then .next s else .next (s.sdRun x.k x.bits)

/-- POSITION_MISMATCH: |D| beyond the window for TIME consecutive ticks sets MISMATCH (R209). -/
def execPositionMismatch (dt : Nat) (s : State) : Host.Outcome State Fault Refusal :=
  let s := s.advance dt
  if s.inReset then .next s else
  if s.fld 0x40800 0 1 = 1 ∧ s.sense.mismatch = false ∧ s.fld 0x40800 16 16 ≤ s.sense.cmpCnt ∧ s.sense.cmpCnt ≠ 0 then
    .next (({ s with sense := { s.sense with mismatch := true } }).post 0x0404 (ucode 32 (satS 32 s.sense.cmpDiff)))
  else .next s

end Sys2Proof.Machine
end

