-- ==== Sys2Proof/Machine/Loop.lean ====
section
/-! DEFINITION. One sample of a loop slot (R136-R155), its coefficients (R156-R166), the notch (R167-R169), the schedule
(R159-R163) and the feed-forward terms (R170, R171). -/
namespace Sys2Proof.Machine

/-! ### Descriptors and source codes -/

/-- A source code is valid (R136). -/
def codeOk (c : Nat) : Bool :=
  let i := c % 16
  match c / 16 with
  | 0 => i = 0
  | 1 => i < 4
  | 2 => i < 4
  | 3 => i < 4
  | 4 => 1 ≤ i && i ≤ 5
  | 5 => 1 ≤ i && i ≤ 5
  | 6 => true
  | 7 => i ≤ 4
  | 8 => true
  | 9 => i ≤ 7
  | 10 => i ≤ 7
  | 11 => i = 0
  | 12 => i = 0
  | 13 => i ≤ 1
  | _ => false

/-- A source code names a physical quantity (R136). -/
def codePhys (c : Nat) : Bool := [1, 2, 3, 4, 5, 7, 8, 9, 10, 12].contains (c / 16)

/-- A source code names a normalised quantity (R136). -/
def codeNorm (c : Nat) : Bool := [6, 11, 13].contains (c / 16)

/-- A source code needs the machine station (R136). -/
def codeMachine (c : Nat) : Bool := c = 0x42 || c = 0x52 || c / 16 = 7

/-- A byte of a slot's descriptor. -/
def SlotSt.d (q : SlotSt) (o : Nat) : Nat := u8 q.desc o

/-- A signed word of a slot's descriptor. -/
def SlotSt.dInt (q : SlotSt) (o : Nat) : Int := sext 32 (u32 q.desc o)

/-- A Q1.30 word of a slot's descriptor: bits [30:0], bit 31 ignored (R13). -/
def SlotSt.dQ30 (q : SlotSt) (o : Nat) : Int := sext 31 (u32 q.desc o)

/-- The slot holds a descriptor. -/
def SlotSt.configured (q : SlotSt) : Bool := !q.desc.isEmpty

/-- The slot is OFF and no other mode is asked for (notes/assumptions/14.md). -/
def SlotSt.off (q : SlotSt) : Bool := q.mode = 0 && (q.req = none || q.req = some 0)

/-- Section `k` is integrating. -/
def SlotSt.integ (q : SlotSt) (k : Nat) : Bool := (q.d 2).testBit k

/-- The base address of a slot's registers. -/
def slotBase (i : Nat) : Nat := 0x30100 + 0x40 * i

/-- The slot replaced. -/
def State.setSlot (i : Fin 16) (q : SlotSt) (s : State) : State :=
  { s with loop := { s.loop with slots := s.loop.slots.set i q } }

/-- The slot numbered by an operand. -/
def slotIdx (n : Nat) : Fin 16 := ⟨n % 16, Nat.mod_lt _ (by decide)⟩

/-- The slot is scheduled. -/
def State.scheduled (s : State) (i : Nat) : Bool := s.loop.var ≠ 3 && s.loop.mask.testBit i

/-- A set of the schedule could not be read into a bank of the slot: it lacks its coefficients (R148). -/
def State.noCoef (s : State) (i : Fin 16) : Bool := s.scheduled i.val && s.loop.slots[i].lost

/-- The notch is on and carried by slot `i`; its section. -/
def State.notchOn (s : State) (i : Nat) : Option Nat :=
  let c := s.reg 0x35000
  if bitAt c 0 ∧ bitsAt c 4 4 = i then some (bitsAt c 8 3) else none

/-- The bank in use while scheduling is off. -/
def State.bankSel (s : State) (i : Nat) : Bool := s.fld (slotBase i) 3 1 = 1

/-- The bank in use. -/
def State.bankOf (s : State) (i : Fin 16) : List Int :=
  if s.bankSel i.val then s.loop.slots[i].bank1 else s.loop.slots[i].bank0

/-- A bank replaced. -/
def SlotSt.putBank (b : Bool) (c : List Int) (q : SlotSt) : SlotSt := if b then { q with bank1 := c } else { q with bank0 := c }

/-- A queued single write made (R164). -/
def SlotSt.putCoef (x : Bool × Nat × Int) (q : SlotSt) : SlotSt :=
  q.putBank x.1 ((if x.1 then q.bank1 else q.bank0).set x.2.1 x.2.2)

/-- A slot with destination `d`, if one is configured. -/
def State.destSlot (s : State) (d : Nat) : Option (Fin 16) :=
  (List.finRange 16).find? fun i => s.loop.slots[i].configured && s.loop.slots[i].d 7 = d

/-- The conditions of R179 that do not concern the slot with destination 2 itself. -/
def State.hoistBase (s : State) : Bool :=
  s.permit (s.fld 0x34000 20 4) && s.grant && !s.lock.stoA && !s.lock.stoB && !s.loop.trip

/-- The slot with destination 2 runs and its permit is true. -/
def State.torqueRuns (s : State) : Bool :=
  match s.destSlot 2 with
  | some i => s.loop.slots[i].mode ≠ 0 && s.permit (s.loop.slots[i].d 22)
  | none => false

/-- The slot is BLOCKED: its permit is withdrawn (R152), or, at the current rate, a condition of R179 fails. -/
def State.slotBlocked (s : State) (i : Fin 16) : Bool :=
  let q := s.loop.slots[i]
  !s.permit (q.d 22) || (q.d 0 = 1 && (!s.hoistBase || (q.d 7 ≠ 2 && !s.torqueRuns)))

/-! ### Coefficients -/

/-- A coefficient of a bank. -/
def coefAt (c : List Int) (i : Nat) : Int := c.getD i 0

/-- The section rule of R141, for the denominator a1, a2 (Q3.28). -/
def sectionStable (integ : Bool) (a1 a2 : Int) : Bool :=
  decide (a2.natAbs < 2 ^ 28) &&
    (if integ then decide ((2 ^ 28 : Int) + a1 + a2 = 0) else decide ((a1.natAbs : Int) < 2 ^ 28 + a2))

/-- The first section of a set that is not stable (R141, R156: sections at or above N count too). -/
def SlotSt.unstable (q : SlotSt) (c : List Int) : Option Nat :=
  (List.range 8).find? fun k => !sectionStable (q.integ k) (coefAt c (5 * k + 3)) (coefAt c (5 * k + 4))

/-- A cleared bank: every coefficient 0, but a1 of each integrating section −1.0 (R134). -/
def clearedBank (imask : Nat) : List Int :=
  (List.range 42).map fun i => if i < 40 ∧ i % 5 = 3 ∧ imask.testBit (i / 5) then -(2 ^ 28) else 0

/-- A coefficient set from its 192 bytes (R156). -/
def coefSet (b : List Byte) : List Int := (List.range 42).map fun i => sext 31 (u32 b (4 * i))

/-- The coefficients with the notch's in its section (R167). -/
def State.withNotch (s : State) (i : Nat) (c : List Int) : List Int :=
  match s.notchOn i with
  | some k => c.take (5 * k) ++ s.loop.notch ++ c.drop (5 * k + 5)
  | none => c

/-! ### Sections (R139, R140) -/

/-- Saturation to the range of Q1.30, −1 to 1 − 2^−30: a signed value of 31 bits (R13). -/
def q30 (i : Int) : Int := satS 31 i

/-- The output of a section: b0·x + s1, rounded to Q1.30 and saturated. -/
def secOut (b0 s1 x : Int) : Int := q30 (roundAway (b0 * x + s1) (2 ^ 28))

/-- Inputs and outputs of `n` sections from section `k` on, for the input `x`. -/
def chain (c s1 : List Int) : Nat → Nat → Int → List (Int × Int)
  | 0, _, _ => []
  | n + 1, k, x =>
    let y := secOut (coefAt c (5 * k)) (s1.getD k 0) x
    (x, y) :: chain c s1 n (k + 1) y

/-- The chain output of a list of section inputs and outputs; the input when there is no section. -/
def chainOut (x : Int) (l : List (Int × Int)) : Int := match l.getLast? with | some p => p.2 | none => x

/-- G_j: the product of b0 over the sections after `j`, with 28 fraction bits each (R142). -/
def gainAfter (c : List Int) (n j : Nat) : Int :=
  (List.range (n - 1 - j)).foldl (fun g k => g * coefAt c (5 * (j + 1 + k))) 1

/-- Steps 1 and 2 of R139 for the states, unless the section is held (R142). -/
def stateUpdate (c : List Int) (k : Nat) (x y s2 : Int) : Int × Int :=
  (satS 64 (coefAt c (5 * k + 1) * x - coefAt c (5 * k + 3) * y + s2),
   satS 64 (coefAt c (5 * k + 2) * x - coefAt c (5 * k + 4) * y))

/-! ### Inputs (R136, R137, R154) -/

/-- The value of a source and whether it is valid; `rd` reads the outputs of other slots (R144). -/
def State.slotSrc (s : State) (i : Fin 16) (rd : Nat → Int) (c : Nat) : Int × Bool :=
  let k := c % 16
  let u := unitOfIdx k
  match c / 16 with
  | 1 => (s.ramp[u].sp, true)
  | 2 => (s.ramp[u].spVel, true)
  | 3 => (s.ramp[u].spAcc, true)
  | 4 => (s.sense.pos[srcIdx k], s.sense.lvalid[srcIdx k])
  | 5 => (s.sense.spd[srcIdx k], s.sense.lvalid[srcIdx k])
  | 6 => (rd k, true)
  | 7 =>
    -- a tick-rate slot reads the currents latched at the tick (R192), a current-rate slot those of the sample (R173)
    let ph (k : Fin 3) (j : Fin 7) : Int := if s.loop.slots[i].d 0 = 0 then s.sense.sdVal[k] else s.loop.cur[j]
    let all := s.sdUsed 0 && s.sdUsed 1 && s.sdUsed 2
    (match k with
     | 0 => (s.loop.cur[5], all)
     | 1 => (s.loop.cur[6], all)
     | 2 => (ph 0 0, s.sdUsed 0)
     | 3 => (ph 1 1, s.sdUsed 1)
     | _ => (ph 2 2, s.sdUsed 2))
  | 8 => (s.sense.adc[slotIdx k], true)
  | 9 => (((s.fio.ctr[ctrIdx k]).value : Int), (s.view k).valid)
  | 10 => (((s.fio.ctr[ctrIdx k]).value : Int), (s.view k).valid)
  | 11 => (s.regQ (slotBase i.val + 0x0C), true)
  | 12 => (s.sense.load, s.sense.loadValid)
  | 13 =>
    let b := if k = 0 then s.loop.brake[0] else s.loop.brake[1]
    let w := s.reg (0x34024 + 0x10 * (k % 2))
    (match b with
     | 1 => sext 16 (bitsAt w 0 16) * 2 ^ 15
     | 2 => sext 16 (bitsAt w 16 16) * 2 ^ 15
     | _ => 0, true)
  | _ => (0, true)
where
  unitOfIdx (n : Nat) : Fin 4 := ⟨n % 4, Nat.mod_lt _ (by decide)⟩
  ctrIdx (n : Nat) : Fin 8 := ⟨n % 8, Nat.mod_lt _ (by decide)⟩

/-- f′ with 46 fraction bits (R137). -/
def fbTerm (code fs : Nat) (f : Int) : Int :=
  if code / 16 = 0 then 0 else if codePhys code then f * 2 ^ 46 else f * fs * 2 ^ 16

/-- r′ with 46 fraction bits (R137). -/
def refTerm (code : Nat) (g r : Int) : Int :=
  if code / 16 = 0 then 0 else if codePhys code then r * g * 2 ^ 30 else r * g * 2 ^ 16

/-- A feed-forward value as numerator and denominator (R137). -/
def ffTerm (code fs : Nat) (v : Int) : Int × Nat :=
  if code / 16 = 0 then (0, 1) else if codePhys code then (v, max fs 1) else (v, 2 ^ 30)

/-- The law output y, summed exactly and rounded once (R138 step 3; notes/assumptions/15.md). -/
def lawSum (c kv ka : Int) (v a : Int × Nat) (add : Int) : Int :=
  q30 (roundAway ((c + add) * (v.2 * a.2 : Nat) + kv * v.1 * 4 * (a.2 : Nat) + ka * a.1 * 4 * (v.2 : Nat)) (v.2 * a.2))

/-- The cogging term for an angle, or the word in which it cannot be read (R170). -/
def State.cogging (angle : Nat) (s : State) : Except (Nat × State) (Int × State) :=
  let a := s.reg 0x36004
  let i := angle / 2 ^ 22 % 1024
  let j := (i + 1) % 1024
  let e := s.eccRead (a + 2 * i) 2
  match e.1 with
  | some w => .error (w, e.2)
  | none =>
    let e := e.2.eccRead (a + 2 * j) 2
    match e.1 with
    | some w => .error (w, e.2)
    | none =>
      let t (k : Nat) : Int := sext 16 (natLE (e.2.cellsFrom (a + 2 * k) 2))
      .ok (roundAway ((t i * 2 ^ 22 + (t j - t i) * (angle % 2 ^ 22 : Nat)) * 2 ^ 15) (2 ^ 22), e.2)

/-- The friction term of a slot (R171). Where the slot's feedback is no position or speed source, or FRIC_BAND is 0, the
spec states no value and a free one is taken (notes/assumptions/16.md). -/
def State.friction (i : Fin 16) (s : State) : Int × State :=
  let q := s.loop.slots[i]
  let fb := q.d 6
  let band := s.reg 0x36010
  if (fb / 16 = 4 ∨ fb / 16 = 5) ∧ band ≠ 0 then
    let w := s.sense.spd[srcIdx (fb % 16)]
    let fs := max (u32 q.desc 8) 1
    (roundAway (s.regQ 0x36008 * clamp (-band) band w * fs + s.regQ 0x3600C * w * 4 * band) (band * fs), s)
  else
    let x := s.freeWord
    (sext 31 x.1.toNat, x.2)

/-- The term t_cf of a slot: its cogging and friction terms as FLAGS selects them, held while ENC0 is invalid (R171). -/
def State.tcf (i : Fin 16) (angle : Nat) (s : State) : Except (Nat × State) (Int × State) :=
  let q := s.loop.slots[i]
  let cog := (q.d 23).testBit 0 && s.fld 0x36000 0 1 = 1
  let fric := (q.d 23).testBit 1 && s.fld 0x36000 1 1 = 1
  if !s.sense.lvalid[3] then .ok ((if cog then q.tcog else 0) + (if fric then q.tfric else 0), s)
  else
    match (if cog then s.cogging angle else .ok (0, s)) with
    | .error e => .error e
    | .ok (c, s) =>
      let f := if fric then s.friction i else (0, s)
      let s := f.2
      let q := s.loop.slots[i]
      .ok (c + f.1, s.setSlot i { q with tcog := if cog then c else q.tcog, tfric := if fric then f.1 else q.tfric })

/-! ### Injection (R184, R185) -/

/-- The capture waiting for an INJECT on a slot is hit by it (R186, trigger kind 1). -/
def CapSt.onInject (i : Nat) (c : CapSt) : CapSt :=
  if c.trig % 16 = 1 ∧ bitsAt c.trig 8 8 = i then { c with hit := true } else c

/-- The injected values of a sample at points 0, 1 and 2, and the sequence advanced; an unreadable table word stops the
sample. -/
def State.injection (i : Fin 16) (s : State) : Except (Nat × State) ((Int × Int × Int) × State) :=
  let q := s.loop.slots[i]
  let c := s.reg (slotBase i.val)
  let m : Int × Int × Int := if bitsAt c 10 3 = 0 then (0, 0, 0) else
    match bitsAt c 8 2 with
    | 0 => (q.injVal, 0, 0)
    | 1 => (0, q.injVal, 0)
    | _ => (0, 0, q.injVal)
  match q.inj with
  | none => .ok (m, s)
  | some x =>
    let a := x.addr + 4 * x.i
    let e := s.eccRead a 4
    let s := e.2
    let s := if x.i = 0 then { s with loop := { s.loop with cap := s.loop.cap.map (CapSt.onInject i.val) } } else s
    let s := if x.i + 1 = x.n then (s.setSlot i { q with inj := none }).complete (.inject i) .done 0 0
             else s.setSlot i { q with inj := some { x with i := x.i + 1 } }
    match e.1 with
    | some w => .error (w, s)
    | none =>
      let v := sext 31 (s.cell32 a)
      .ok (match x.point with
        | 0 => (m.1 + v, m.2.1, m.2.2)
        | 1 => (m.1, m.2.1 + v, m.2.2)
        | _ => (m.1, m.2.1, m.2.2 + v), s)

/-! ### Emission, saturation -/

/-- The emitted output, with the slew in force (R138 step 5). -/
def slew (prev yl sl : Int) : Int := if sl = 0 then yl else prev + clamp (-sl) sl (yl - prev)

/-- The run at a limit that LOOP_SAT watches (R143). -/
def SlotSt.satTrack (now : Postmark) (q : SlotSt) : SlotSt :=
  let run (hi : Bool) : SlotSt :=
    match q.satAt with
    | some (h, _) => if h = hi then q else { q with satAt := some (hi, now), satPosted := false }
    | none => { q with satAt := some (hi, now), satPosted := false }
  if !q.configured || q.mode = 0 then { q with satAt := none, satPosted := false }
  else if q.ye = q.dQ30 36 then run true
  else if q.ye = q.dQ30 32 then run false
  else { q with satAt := none, satPosted := false }

/-- What a computed sample leaves for the state update. -/
structure Commit where
  coef : List Int
  xys : List (Int × Int)
  y : Int
  hi : Bool
  lo : Bool

/-- The state update of a computed sample, with the saturation known (R142). -/
def SlotSt.commit (x : Commit) (q : SlotSt) : SlotSt :=
  let n := q.d 1
  let held (k : Nat) (xk : Int) : Bool :=
    q.integ k && (let g := gainAfter x.coef n k * xk
      (x.hi && decide (0 < g)) || (x.lo && decide (g < 0)))
  let upd := (List.range 8).map fun k =>
    match x.xys[k]? with
    | some (xk, yk) => if held k xk then (q.s1.getD k 0, q.s2.getD k 0) else stateUpdate x.coef k xk yk (q.s2.getD k 0)
    | none => (q.s1.getD k 0, q.s2.getD k 0)
  { q with s1 := upd.map (·.1), s2 := upd.map (·.2), satHi := x.hi, satLo := x.lo,
           frozen := (List.range n).any fun k => match x.xys[k]? with | some (xk, _) => held k xk | none => false }

/-- The highest integrating section that can be preset, |G_j| ≥ 2^−16 (R151). -/
def SlotSt.presetSection (c : List Int) (q : SlotSt) : Option Nat :=
  let n := q.d 1
  ((List.range n).filter fun j => q.integ j &&
    decide (2 ^ (28 * (n - 1 - j)) ≤ (gainAfter c n j).natAbs * 2 ^ 16)).getLast?

/-- The preset of R151 toward a clamped target: the states s1, the chain and y without i_2. -/
def SlotSt.preset (c : List Int) (law : Int → Int) (e target : Int) (q : SlotSt) : List Int × List (Int × Int) × Int :=
  let n := q.d 1
  let xys := chain c q.s1 n 0 e
  let y := law (chainOut e xys)
  match q.presetSection c with
  | none => (q.s1, xys, y)
  | some j =>
    let g := gainAfter c n j
    let num := (target - y) * 2 ^ 28 * 2 ^ (28 * (n - 1 - j))
    let s1 := q.s1.set j (satS 64 (q.s1.getD j 0 + roundAway (if g < 0 then -num else num) g.natAbs))
    let xys := chain c s1 n 0 e
    (s1, xys, law (chainOut e xys))

/-! ### One sample -/

/-- A storage error leaves the slot without a value: it keeps its previous output, but for the 0 of a BLOCKED slot (R148, R152). -/
def State.keepOutput (i : Fin 16) (blk : Bool) (s : State) : State :=
  let q := s.loop.slots[i]
  (s.setSlot i { q with prev := q.ye, ye := if blk then 0 else q.ye, state := if blk then 2 else q.state }).post 0x0302 i.val

/-- A word that the sample needs cannot be read (R38, R148). -/
def State.loopOverrun (i : Fin 16) (w : Nat) (blk : Bool) (s : State) : State := (s.memUncorr w).keepOutput i blk

/-- The mode change of a switch sample (R149, R150, R155): recorded while the permit is withdrawn, and in AUTO or ALT while the
feedback is invalid. -/
def State.switchMode (i : Fin 16) (rd : Nat → Int) (blk : Bool) (s : State) : State :=
  let q := s.loop.slots[i]
  match q.req with
  | none => s
  | some m =>
    if blk then s.setSlot i { q with reqBlk := true }
    else if (q.mode = 1 || q.mode = 2) && !(s.slotSrc i rd (q.d 6)).2 then s
    else if m = q.mode then s.setSlot i { q with req := none, reqBlk := false }
    else
      let q := { q with mode := m, req := none, reqBlk := false, handover := (m = 1 || m = 2) && !q.reqBlk, refInvalid := false,
                        refHeld := 0 }
      if m = 0 then
        let s := if q.inj.isSome then s.complete (.inject i) .failed 0x3C 0 else s
        s.setSlot i { q with s1 := List.replicate 8 0, s2 := List.replicate 8 0, law := 0, inj := none,
                             state := 0, remainder := false, slewing := false, satHi := false, satLo := false, frozen := false }
      else
        let fb := q.d 6
        let r := if m = 1 then q.d 4 else q.d 5
        let f := s.slotSrc i rd fb
        s.setSlot i { q with cntBase := if r / 16 = 10 then (s.slotSrc i rd r).1.toNat else q.cntBase,
                             fbBase := if r / 16 = 10 then fbTerm fb (u32 q.desc 8) f.1 else q.fbBase }

/-- Coefficient changes of a sample: a set given to the bank in use, and the oldest queued write; the answer tells whether
a preset is due (R157, R158, R161, R164; notes/assumptions/91.md). -/
def State.coefStep (i : Fin 16) (s : State) : Bool × State :=
  let q := s.loop.slots[i]
  let b := s.bankSel i.val
  let q0 := match q.newSet with
    | some c => { (q.putBank b c) with newSet := none }
    | none => q
  let q1 := match q0.queue with
    | [] => q0
    | x :: r => { (q0.putCoef x) with queue := r }
  let base := if s.scheduled i.val then q1.tickEff else if b then q1.bank1 else q1.bank0
  (q.newSet.isSome || q1.change || (s.scheduled i.val && decide (q1.tickEff ≠ q1.eff)),
   s.setSlot i { q1 with change := false, eff := base })

/-- A sample of a slot in AUTO or ALT whose coefficients `old` were those of the previous sample (R137, R138, R150-R154). -/
def State.lawSample (i : Fin 16) (rd : Nat → Int) (angle : Nat) (blk chg : Bool) (old : List Int) (s : State) :
    State × Option Commit :=
  let q := s.loop.slots[i]
  let fs := u32 q.desc 8
  let rc := if q.mode = 1 then q.d 4 else q.d 5
  let g := if q.mode = 1 then q.dInt 12 else q.dInt 16
  let rv := s.slotSrc i rd rc
  let fv := s.slotSrc i rd (q.d 6)
  -- R154
  let raw : Int := if rc / 16 = 10 then (((rv.1 - q.cntBase) % (2 ^ 32 : Int))) else rv.1
  -- a position source holds its last valid value itself (R193)
  let r := if rv.2 || rc / 16 = 1 || rc / 16 = 4 then raw else if rc / 16 = 10 then q.refHeld else 0
  let s := if !rv.2 && !q.refInvalid then s.post 0x0305 (i.val + 256 * rc) else s
  let q := { q with refInvalid := !rv.2, refHeld := if rv.2 then raw else q.refHeld }
  let s := s.setSlot i q
  if !blk && !fv.2 then
    let s := match s.injection i with
      | .error (w, s) => s.memUncorr w
      | .ok (_, s) => s
    let q := s.loop.slots[i]
    (s.setSlot i { q with state := 3, handover := true, prev := q.ye, slewing := false, satHi := false, satLo := false,
                          frozen := false }, none)
  else
    match s.injection i with
    | .error (w, s) => (s.loopOverrun i w blk, none)
    | .ok ((p0, p1, p2), s) =>
      match s.tcf i angle with
      | .error (w, s) => (s.loopOverrun i w blk, none)
      | .ok (tcf, s) =>
        let q := s.loop.slots[i]
        let rT := refTerm rc g r + (if rc / 16 = 10 then q.fbBase else 0)
        let fT := fbTerm (q.d 6) fs fv.1
        let den := max fs 1 * 2 ^ 16
        let e := q30 (q30 (q30 (roundAway (rT - fT) den) + p0) + p1)
        let v := ffTerm (q.d 20) (u32 q.desc 24) (s.slotSrc i rd (q.d 20)).1
        let a := ffTerm (q.d 21) (u32 q.desc 28) (s.slotSrc i rd (q.d 21)).1
        let law (add : Int) (c : List Int) (out : Int) : Int := lawSum out (coefAt c 40) (coefAt c 41) v a (tcf + add)
        let cNew := s.withNotch i.val q.eff
        let cOld := s.withNotch i.val old
        let lim (x : Int) : Int := clamp (q.dQ30 32) (q.dQ30 36) x
        let target : Option Int :=
          if blk then some 0
          else if q.handover then some q.ye
          else if chg then some (law 0 cOld (chainOut e (chain cOld q.s1 (q.d 1) 0 e)))
          else none
        let res := match target with
          | some t => q.preset cNew (law 0 cNew) e (lim t)
          | none =>
            let xys := chain cNew q.s1 (q.d 1) 0 e
            (q.s1, xys, law 0 cNew (chainOut e xys))
        let y := law p2 cNew (chainOut e res.2.1)
        let yl := lim y
        let sl := q.dQ30 40
        let miss := match target with
          | some t => if sl = 0 then decide (lim res.2.2 ≠ lim t) else decide (sl < ((yl - q.ye).natAbs : Int))
          | none => false
        let rem := q.remainder || (!blk && miss)
        let inForce := if rem then (if sl = 0 then q.dQ30 44 else min sl (q.dQ30 44)) else sl
        let ye := if blk then 0 else slew q.ye yl inForce
        let hi := decide (q.dQ30 36 ≤ y) || (!blk && decide (ye < yl))
        let lo := decide (y ≤ q.dQ30 32) || (!blk && decide (yl < ye))
        let q := { q with s1 := res.1, prev := q.ye, ye := ye, law := y, err := e, handover := false,
                          ref := q30 (q30 (roundAway rT den) + p0), fbk := q30 (roundAway fT den),
                          state := if blk then 2 else 1, remainder := rem && decide (ye ≠ yl),
                          slewing := !blk && decide (ye ≠ yl) }
        (s.setSlot i q, some { coef := cNew, xys := res.2.1, y := y, hi := hi, lo := lo })

/-- A sample of a slot, up to the state update (R138, R149, R152). -/
def State.slotCompute (i : Fin 16) (rd : Nat → Int) (angle : Nat) (s : State) : State × Option Commit :=
  if !s.loop.slots[i].configured then (s, none) else
  let blk := s.slotBlocked i
  let s := s.switchMode i rd blk
  let old := s.loop.slots[i].eff
  let cs := s.coefStep i
  let s := cs.2
  let blk := s.slotBlocked i
  let q := s.loop.slots[i]
  let idle (q : SlotSt) : SlotSt := { q with slewing := false, satHi := false, satLo := false, frozen := false }
  match q.mode with
  | 0 => (s.setSlot i { (idle q) with state := 0, prev := q.ye, ye := 0 }, none)
  | 1 => if s.noCoef i then (s.keepOutput i blk, none) else s.lawSample i rd angle blk cs.1 old
  | 2 => if s.noCoef i then (s.keepOutput i blk, none) else s.lawSample i rd angle blk cs.1 old
  | m =>
    match s.injection i with
    | .error (w, s) => (s.loopOverrun i w blk, none)
    | .ok (_, s) =>
      let q := s.loop.slots[i]
      if blk then (s.setSlot i { (idle q) with state := 2, prev := q.ye, ye := 0 }, none)
      else if m = 3 then
        let yl := clamp (q.dQ30 32) (q.dQ30 36) (s.regQ (slotBase i.val + 8))
        let sl := q.dQ30 40
        let ye := slew q.ye yl (if q.remainder then (if sl = 0 then q.dQ30 44 else min sl (q.dQ30 44)) else sl)
        (s.setSlot i { (idle q) with state := 0, prev := q.ye, ye := ye, slewing := decide (ye ≠ yl),
                                     satHi := decide (ye < yl), satLo := decide (yl < ye),
                                     remainder := q.remainder && decide (ye ≠ yl) }, none)
      else (s.setSlot i { (idle q) with state := 0, prev := q.ye }, none)

/-! ### The clamps of the door stage on the demand of the slot with destination 5 -/

/-- The open permit of the door: the permits that DOOR_CFG and the image name (R244, R316). -/
def State.openPermit (s : State) : Bool := s.permit (s.fld 0x50004 8 4) && s.imagePermit 0x9D4

/-- The closing-force bound of R247 in mA with 30 fraction bits; none outside mode 1 and the closing states. -/
def State.forceBound (s : State) : Option Int :=
  let ke := s.reg 0x5004C
  if s.door.mode = 1 && [2, 3, 4, 7, 8].contains s.door.state && decide (ke ≠ 0) then
    let c := clamp 0 20000 (-(s.sense.spd[5]))
    some (-(((s.fld 0x50068 0 16 * 20000 : Nat) + (s.fld 0x50060 16 16 : Int) * c) * 10 * 2 ^ 30 / (3 * ke : Nat)))
  else none

/-- What the clamps make of a demand i* (mA, 30 fraction bits), and which of them act. -/
structure DoorClamp where
  i : Int
  /-- R244. -/
  perm : Bool
  /-- R247. -/
  force : Bool
  /-- R250. -/
  energy : Bool

/-- The demand after the clamps of R244, R247 and R250; the larger lower bound applies. -/
def State.doorClamp (s : State) (i : Int) : DoorClamp :=
  let f := match s.forceBound with | some b => decide (i < b) | none => false
  let e := s.door.mode = 1 && s.door.ecap && decide (i < 0)
  let i1 := if e then 0 else match s.forceBound with | some b => max i b | none => i
  let p := !s.openPermit && decide (0 < i1)
  { i := if p then 0 else i1, perm := p, force := f, energy := e }

/-- Whether the door stage saturates the slot with destination 5, high and low (R232, R244, R247, R250). -/
def State.doorSat (s : State) (q : SlotSt) (y : Int) : Bool × Bool :=
  if q.d 7 = 5 && (s.door.mode = 1 || s.door.mode = 3) then
    let c := s.doorClamp (q.ye * s.reg 0x50054)
    (c.perm || (s.door.vlimit && decide (0 < y)), c.force || c.energy || (s.door.vlimit && decide (y < 0)))
  else (false, false)

/-- A whole sample of a tick-rate slot. -/
def State.slotSample (i : Fin 16) (rd : Nat → Int) (angle : Nat) (s : State) : State :=
  let r := s.slotCompute i rd angle
  let q := r.1.loop.slots[i]
  let q := match r.2 with
    | some x =>
      let d := r.1.doorSat q x.y
      q.commit { x with hi := x.hi || d.1, lo := x.lo || d.2 }
    | none => q
  r.1.setSlot i (q.satTrack s.now)

/-! ### Release of outputs (R144-R146) -/

/-- c of a tick-rate slot in ns (R145), for a descriptor. -/
def tickCost (desc : List Byte) (notch : Bool) : Nat :=
  500 + 100 * u8 desc 1 + (if notch then 300 else 0) + (if u8 desc 23 ≠ 0 then 200 else 0)

/-- c of a current-rate slot in ns (R147). -/
def curCost (desc : List Byte) : Nat := 200 + 50 * u8 desc 1

/-- Σ c over the configured tick-rate slots below `n` in ns. -/
def State.tickLoad (s : State) (n : Nat) : Nat :=
  (List.finRange 16).foldl (fun t i =>
    let q := s.loop.slots[i]
    if i.val < n && q.configured && q.d 0 = 0 then t + tickCost q.desc (s.notchOn i.val).isSome else t) 0

/-- Σ c over the configured current-rate slots in ns. -/
def State.curLoad (s : State) : Nat :=
  (List.finRange 16).foldl (fun t i =>
    let q := s.loop.slots[i]
    if q.configured && q.d 0 = 1 then t + curCost q.desc else t) 0

/-- Σ c over the configured current-rate slots up to `i` in ns: slot `i` finishes 1.0 µs and this sum after its sample (R147, R173). -/
def State.curUpTo (s : State) (i : Fin 16) : Nat :=
  (List.finRange 16).foldl (fun t j =>
    let q := s.loop.slots[j]
    if j ≤ i && q.configured && q.d 0 = 1 then t + curCost q.desc else t) 0

/-- The output of a slot as released by now: a witnessed slot at the next tick instant, a prompt tick-rate slot 0.9 µs after t_i,
a current-rate slot when it has run (R144-R146, R173). -/
def State.released (s : State) (i : Fin 16) : Int :=
  let q := s.loop.slots[i]
  if q.d 0 = 1 then
    (match s.loop.sampledAt with
     | some p => if p * 1000 + (1000 + s.curUpTo i) * 80 ≤ s.now * 1000 then q.ye else q.prev
     | none => q.ye)
  else if q.d 3 = 1 then (if s.sys.tickAt + s.tickLen ≤ s.now then q.ye else q.prev)
  else if s.sys.tickAt * 1000 + (1500 + s.tickLoad (i.val + 1) + 900) * 80 ≤ s.now * 1000 then q.ye
  else q.prev

/-- The tick-rate slots at a tick instant, in ascending number (R144). `rel` is what was released by the tick instant, the outputs
that witnessed slots release at it included (notes/assumptions/92.md). -/
def State.tickSlots (s : State) : State :=
  let rel := Vector.ofFn fun i : Fin 16 => if s.loop.slots[i].d 0 = 1 then s.released i else s.loop.slots[i].ye
  let s := { s with loop := { s.loop with cogOld := none } }
  (List.finRange 16).foldl (fun s i =>
    let q := s.loop.slots[i]
    if q.configured && q.d 0 = 0 then
      let rd (k : Nat) : Int :=
        let j := slotIdx k
        let p := s.loop.slots[j]
        if p.d 0 = 0 && p.d 3 = 0 && j.val < i.val then p.ye else rel[j]
      s.slotSample i rd s.sense.angle
    else s) s

end Sys2Proof.Machine
end

