-- ==== Sys2Proof/Machine/LoopTick.lean ====
section
/-! DEFINITION. What the loop engine does besides the slots at a sample: the schedule (R159-R163), the notch (R167-R169),
the brakes (R182, R183) and the capture (R186-R188); and the event rows LOOP_SAT and BRAKE_PICK_END. -/
namespace Sys2Proof.Machine

/-! ### Schedule -/

/-- The schedule variable and whether it is valid (R159, R163). -/
def State.schedValue (s : State) : Int × Bool :=
  let c := s.fld 0x30010 0 4
  match s.loop.var with
  | 0 => (s.srcPos c, s.srcValid c)
  | 1 => (s.srcSpd c, s.srcValid c)
  | _ => (s.sense.load, s.sense.loadValid)

/-- The boundary nearest to `v`, the lower of two equally near (R161); 0 when there is none. -/
def nearBoundary (v : Int) (regions : List (Int × Nat)) : Nat :=
  let d (i : Nat) : Nat := (v - (regions.getD i (0, 0)).1).natAbs
  (List.range (regions.length - 2)).foldl (fun best i => if d (i + 2) < d best then i + 2 else best)
    (if regions.length ≤ 1 then 0 else 1)

/-- The place of a slot among the scheduled slots (R160). -/
def schedRank (mask i : Nat) : Nat := ((List.range i).filter mask.testBit).length

/-- One set of the schedule read into a bank of a slot; an unreadable one leaves the slot without its coefficients (R148). -/
def State.loadSet (i : Fin 16) (b : Bool) (region : Nat) (s : State) : State :=
  let a := (s.loop.regions.getD region (0, 0)).2 + 192 * schedRank s.loop.mask i.val
  let e := s.eccRead a 192
  match e.1 with
  | some w => (e.2.memUncorr w).setSlot i { e.2.loop.slots[i] with lost := true }
  | none =>
    let s := e.2
    s.setSlot i (s.loop.slots[i].putBank b (coefSet (s.cellsFrom a 192)))

/-- The sets of regions i − 1 and i are loaded into the two banks of every scheduled slot (R161). -/
def State.loadBanks (bnd : Nat) (s : State) : State :=
  let s := (List.finRange 16).foldl (fun s i =>
    if s.scheduled i.val then ((s.setSlot i { s.loop.slots[i] with lost := false }).loadSet i false (bnd - 1)).loadSet i true bnd
    else s) s
  { s with loop := { s.loop with region := bnd } }

/-- λ as numerator and denominator (R161). -/
def lambda (v l : Int) (band : Nat) : Nat × Nat :=
  if band = 0 then (if v < l then (0, 1) else (1, 1))
  else ((clamp 0 (2 * band : Nat) (2 * (v - l) + band)).toNat, 2 * band)

/-- c_0 + λ · (c_1 − c_0), rounded to Q3.28 (R161). -/
def blend (lam : Nat × Nat) (c0 c1 : List Int) : List Int :=
  (List.range 42).map fun k =>
    roundAway (coefAt c0 k * lam.2 + lam.1 * (coefAt c1 k - coefAt c0 k)) lam.2

/-- SCHEDULE_UPDATE: the schedule at a tick instant (R161-R163). -/
def State.schedTick (s : State) : State :=
  if s.loop.var = 3 then s else
  let v := s.schedValue
  if !v.2 then { s with loop := { s.loop with schedFrozen := true } }
  else
    let b := s.loop.region
    let lam := if b = 0 then (0, 1) else lambda v.1 (s.loop.regions.getD b (0, 0)).1 s.loop.band
    let slots := Vector.ofFn fun i : Fin 16 =>
      let q := s.loop.slots[i]
      if s.scheduled i.val then { q with tickEff := blend lam q.bank0 q.bank1 } else q
    let n := nearBoundary v.1 s.loop.regions
    let s := { s with loop := { s.loop with slots := slots, schedFrozen := false, near := n,
                                            lam := (roundAway (lam.1 * 2 ^ 30 : Nat) lam.2).toNat } }
    if n = b ∧ !((List.finRange 16).any s.noCoef) then s else s.loadBanks n

/-! ### Notch -/

/-- The notch coefficients for a position, with f in 0.001 Hz; none if one lies outside Q3.28 (R168, R169). DESIGN CHOICE: the spec
gives NOTCH_DEPTH as Q1.30 with the range 0 to 1.0, and 1.0 is no value of Q1.30; the bits [30:0] are read as an unsigned number over
2^30, so that 0x4000_0000 is 1.0 (notes/assumptions/93.md). -/
def State.notchCoefs (s : State) (p : Int) : Option (List Int × Nat) :=
  let per := s.sys.period
  let l := (max (s.pairInt 0x35010 - p) 1000000).toNat
  let fr := s.reg 0x35004
  let f0 := isqrt (fr * fr * s.reg 0x35008 * fx * fx / (1000000 * l))
  let lo := s.fld 0x35018 0 16 * fx / 100
  let hi := s.fld 0x35018 16 16 * fx / 100
  let f := if f0 < lo then lo else if hi < f0 then hi else f0
  let c := cosFx (radFx (f * per : Nat) (800000 * fx))
  let one : Int := fx
  let r := one - (piFx * s.reg 0x3501C * per / 800000000 : Nat)
  let ρ := one - (s.fld 0x35020 0 31 : Int) * (one - r) / (2 ^ 30)
  let den := one - 2 * mulFx ρ c + mulFx ρ ρ
  if den ≤ 0 then none else
  let g := (one - 2 * mulFx r c + mulFx r r) * fx / den
  let q (x : Int) : Int := roundAway (x * 2 ^ 28) fx
  let cs := [q g, q (-2 * mulFx (mulFx ρ c) g), q (mulFx (mulFx ρ ρ) g), q (-2 * mulFx r c), q (mulFx r r)]
  if cs.all fun x => decide (-(2 ^ 30) ≤ x ∧ x < 2 ^ 30) then some (cs, (roundAway (f * 1000 : Nat) fx).toNat) else none

/-- NOTCH_UPDATE and NOTCH_HELD: the notch at a tick instant (R168, R169). -/
def State.notchTick (s : State) : State :=
  let cfg := s.reg 0x35000
  if !bitAt cfg 0 then s else
  let src := bitsAt cfg 12 4
  if !s.srcValid src then s.post 0x0306 1
  else match s.notchCoefs (s.srcPos src) with
    | some (c, f) => { s with loop := { s.loop with notch := c, fnow := f } }
    | none => s.post 0x0306 0

/-- The refusals of R167 for a section that the notch of NOTCH_CFG = `cfg` is on, takes or leaves, after the write of `new`: detail
and bytes 16-19. -/
def State.notchBad (cfg new : Nat) (s : State) : Option (Nat × Nat) :=
  let i := slotIdx (bitsAt cfg 4 4)
  let q := s.loop.slots[i]
  let per := s.sys.period
  let k := bitsAt cfg 8 3
  let fmin := s.fld 0x35018 0 16
  let fmax := s.fld 0x35018 16 16
  if !q.off then some (0x30, 0)
  else if !q.configured || q.d 0 ≠ 0 || q.integ k || q.d 1 ≤ k then some (0x3E, 0)
  else if fmax < fmin ∨ 32000000 ≤ fmax * per ∨ fx * 400000000 ≤ piFx * s.reg 0x3501C * per then some (0x3E, 0)
  else
    let sum := (s.setReg 0x35000 new).tickLoad 16
    if bitAt new 0 && decide (6600 < sum) then some (0x32, sum) else none

/-- The refusals of a write to NOTCH_CFG that sets or clears EN, or that moves the notch while EN is 1 (R145, R167;
notes/assumptions/94.md). -/
def State.notchRefused (old new : Nat) (s : State) : Option (Nat × Nat) :=
  let moved := bitsAt old 4 7 ≠ bitsAt new 4 7
  match bitAt old 0, bitAt new 0 with
  | false, false => none
  | true, false => s.notchBad old new
  | false, true => s.notchBad new new
  | true, true => if moved then (if s.loop.slots[slotIdx (bitsAt old 4 4)].off then s.notchBad new new else some (0x30, 0)) else none

/-! ### Brakes -/

/-- BRAKEb_CMD.OPEN. -/
def State.brakeOpen (s : State) (b : Fin 2) : Bool := s.fld (0x34028 + 0x10 * b.val) 0 1 = 1

/-- The brake slot is configured and not BLOCKED. -/
def State.brakeFree (s : State) (b : Fin 2) : Bool :=
  match s.destSlot (3 + b.val) with
  | some i => !s.slotBlocked i
  | none => false

/-- The profile of a brake before the slots of a tick (R182). -/
def State.brakeProfile (b : Fin 2) (s : State) : State :=
  if !s.brakeOpen b || !s.brakeFree b then { s with loop := { s.loop with brake := s.loop.brake.set b 0 } }
  else if s.loop.brake[b] = 0 then
    { s with loop := { s.loop with brake := s.loop.brake.set b (if s.fld (0x34020 + 0x10 * b.val) 16 16 = 0 then 2 else 1),
                                   brakeAt := s.loop.brakeAt.set b s.now } }
  else s

/-- The brake PWM after the slots of a tick (R182, R183, R334). -/
def State.brakePwm (b : Fin 2) (s : State) : State :=
  let d := match s.destSlot (3 + b.val) with
    | some i =>
      let q := s.loop.slots[i]
      if s.brakeOpen b && s.brakeGate b && !s.slotBlocked i && (q.mode = 1 || q.mode = 2) then
        clamp 0 (2 ^ 30) (if q.d 3 = 1 then q.prev else q.ye) else 0
    | none => 0
  { s with loop := { s.loop with brakeDuty := s.loop.brakeDuty.set b d } }

/-! ### Capture -/

/-- A capture signal code is valid (R188). -/
def capCodeOk (c : Nat) : Bool :=
  let k := c % 16
  match c / 16 with
  | 6 => k ≤ 12
  | 7 => k ≤ 11
  | 8 => true
  | 9 => true
  | n => n ≤ 5

/-- The value of a capture signal at a sample of its clock (R188): at the servo tick the currents latched there (R192). -/
def State.capValue (s : State) (clock c : Nat) : Int :=
  let k := c % 16
  let q := s.loop.slots[slotIdx k]
  match c / 16 with
  | 0 => q.ref
  | 1 => q.fbk
  | 2 => q.err
  | 3 => q.law
  | 4 => q.ye
  | 5 => match ((List.range (q.d 1)).filter q.integ).getLast? with
    | some j => q30 (roundAway (q.s1.getD j 0) (2 ^ 28))
    | none => 0
  | 6 => match k with
    | 7 => s.loop.md
    | 8 => s.loop.mq
    | 9 => (s.loop.theta : Int)
    | 10 => q30 s.loop.dutyNext[0]
    | 11 => q30 s.loop.dutyNext[1]
    | 12 => q30 s.loop.dutyNext[2]
    | k =>
      if h : k < 3 ∧ clock = 0 then s.sense.sdVal[k]'h.1
      else if h : k < 7 then s.loop.cur[k] else 0
  | 7 =>
    let r := s.ramp[(⟨k % 4, Nat.mod_lt _ (by decide)⟩ : Fin 4)]
    if k < 4 then sext 32 (ucode 32 r.sp) else if k < 8 then r.spVel else r.spAcc
  | 8 => s.sense.adc[slotIdx k]
  | _ => q.injVal

/-- A capture signal is Q1.30 (R188). -/
def capQ30 (c : Nat) : Bool := c / 16 ≤ 5 || c / 16 = 9 || (c / 16 = 6 && [7, 8, 10, 11, 12].contains (c % 16))

/-- LOOP_CAPLEVEL in the units of a signal (R186, R188): Q1.30, the 32-bit angle, or signed. -/
def State.capLevel (s : State) (c : Nat) : Int :=
  if capQ30 c then s.regQ 0x37040 else if c = 0x69 then (s.reg 0x37040 : Int) else s.regInt 0x37040

/-- LOOP_CAPSELk. -/
def State.capSel (s : State) (k : Nat) : Nat := s.fld (0x37000 + 4 * k) 0 8

/-- The bytes of a capture record (R186). -/
def State.capRecord (s : State) (trig mask : Nat) : List Byte :=
  bytesLE 8 s.now ++ ((List.range 16).filter mask.testBit).flatMap fun k =>
    bytesLE 4 (ucode 32 (s.capValue (bitsAt trig 4 1) (s.capSel k)))

/-- The size of a capture record. -/
def capSize (mask : Nat) : Nat := 8 + 4 * ((List.range 16).filter mask.testBit).length

/-- One sample of the capture's clock: 0 tick, 1 current sample (R186, R187). -/
def State.capStep (clock : Nat) (s : State) : State :=
  match s.loop.cap with
  | none => s
  | some c =>
    if bitsAt c.trig 4 1 ≠ clock then s else
    let v := s.capValue clock (s.capSel (bitsAt c.trig 8 8 % 16))
    let level := s.capLevel (s.capSel (bitsAt c.trig 8 8 % 16))
    let fires := match bitsAt c.trig 0 4 with
      | 0 => true
      | 3 => (match c.last with | some p => decide (p < level ∧ level ≤ v) | none => false)
      | _ => c.hit
    let take := if c.triggered then decide (c.skip + 1 = c.dec) else fires
    let c := { c with triggered := c.triggered || fires, last := some v, skip := if take then 0 else c.skip + 1 }
    let s := { s with loop := { s.loop with cap := some c, capTrig := c.triggered } }
    if take then
      let s := s.storeMerged (0x10200000 + s.loop.capRecs * capSize c.mask) (s.capRecord c.trig c.mask)
      let n := s.loop.capRecs + 1
      if n = c.count then ({ s with loop := { s.loop with capRecs := n, cap := none } }).complete .capture .done 0 n
      else { s with loop := { s.loop with capRecs := n } }
    else s

/-- The loop engine at a tick instant: schedule, notch, brake profiles, slots, brake outputs, capture (R22, R138). -/
def State.loopTick (s : State) : State :=
  let s := s.schedTick.notchTick
  let s := (s.brakeProfile 0).brakeProfile 1
  let s := s.tickSlots
  let s := (s.brakePwm 0).brakePwm 1
  s.capStep 0

/-! ### Event rows -/

/-- LOOP_SAT: an emitted output that has equalled a limit for SATTIME is posted (R143). -/
def execLoopSat (dt : Nat) (i : Fin 16) (s : State) : Host.Outcome State Fault Refusal :=
  let s := s.advance dt
  if s.inReset then .next s else
  let q := s.loop.slots[i]
  match q.satAt with
  | some (hi, pm) =>
    if !q.satPosted && decide (pm + u16 q.desc 48 * 80000 ≤ s.now) then
      .next ((s.setSlot i { q with satPosted := true }).post 0x0301 (i.val + (if hi then 0 else 256)))
    else .next s
  | none => .next s

/-- BRAKE_PICK_END: PICKTIME has passed since the first sample with OPEN 1, so the profile gives HOLD (R182). -/
def execBrakePickEnd (dt : Nat) (b : Fin 2) (s : State) : Host.Outcome State Fault Refusal :=
  let s := s.advance dt
  if s.inReset then .next s else
  if s.loop.brake[b] = 1 ∧ s.loop.brakeAt[b] + s.fld (0x34020 + 0x10 * b.val) 16 16 * 80000 ≤ s.now then
    .next { s with loop := { s.loop with brake := s.loop.brake.set b 2 } }
  else .next s

end Sys2Proof.Machine
end

