-- ==== Sys2Proof/Machine/Segments.lean ====
section
/-! DEFINITION. Segment tables of the ramp units (R97-R102): the exact cubic, its checks, and the planned stops of R116. -/
namespace Sys2Proof.Machine

/-- The limits in force of a unit: RAMPu_LIM_* (R94). -/
def State.limits (s : State) (u : Fin 4) : Limits :=
  { speed := s.reg (rampBase u + 0x10), acc := s.reg (rampBase u + 0x14), dec := s.reg (rampBase u + 0x18),
    jerk := s.reg (rampBase u + 0x1C), hdec := s.reg (rampBase u + 0x20) }

/-- The limits that letters are checked against: those served last (R95). -/
def State.limitsLane (s : State) (u : Fin 4) : Limits :=
  match s.ramp[u].next with
  | some l => l
  | none => s.limits u

/-- Limits put in force. -/
def State.putLimits (u : Fin 4) (l : Limits) (s : State) : State :=
  ((((s.setReg (rampBase u + 0x10) l.speed).setReg (rampBase u + 0x14) l.acc).setReg (rampBase u + 0x18) l.dec).setReg
    (rampBase u + 0x1C) l.jerk).setReg (rampBase u + 0x20) l.hdec

/-- A segment from its 32 bytes (R97). -/
def segOf (b : List Byte) : Seg :=
  { n := bitsAt (u32 b 0) 0 24, j := sext 32 (u32 b 4), p0 := sext 64 (u64 b 8), v0 := sext 32 (u32 b 16),
    a0 := sext 32 (u32 b 20) }

/-- Check 1 of R99: the format of a segment. -/
def segFormatOk (b : List Byte) : Bool :=
  bitsAt (u32 b 0) 0 24 ≠ 0 && u8 b 3 = 0 && posOk (u64 b 8) && u64 b 24 = 0

/-- Ticks per second × PERIOD: t = n · PERIOD / 800,000 s. -/
def tickHz : Nat := 800000

/-- p(n) of R98 over the denominator 6 · 800,000³, `q` = n · PERIOD. -/
def Seg.pNum (g : Seg) (q : Nat) : Int :=
  6 * g.p0 * (tickHz : Int) ^ 3 + 6 * g.v0 * q * (tickHz : Int) ^ 2 + 3 * g.a0 * (q : Int) ^ 2 * tickHz + g.j * (q : Int) ^ 3

/-- v(n) of R98 over the denominator 2 · 800,000². -/
def Seg.vNum (g : Seg) (q : Nat) : Int := 2 * g.v0 * (tickHz : Int) ^ 2 + 2 * g.a0 * q * tickHz + g.j * (q : Int) ^ 2

/-- a(n) of R98 over the denominator 800,000. -/
def Seg.aNum (g : Seg) (q : Nat) : Int := g.a0 * tickHz + g.j * q

/-- p(n), v(n), a(n), each rounded once, halves away from zero (R98). -/
def Seg.at (g : Seg) (q : Nat) : Int × Int × Int :=
  (roundAway (g.pNum q) (6 * tickHz ^ 3), roundAway (g.vNum q) (2 * tickHz ^ 2), roundAway (g.aNum q) tickHz)

/-- |a| against A_LIM where a and v have the same sign or v = 0, and against D_LIM otherwise (R99). -/
def accBad (l : Limits) (v a : Int) : Option Nat :=
  if (0 < v ∧ a < 0) ∨ (v < 0 ∧ 0 < a) then (if l.dec < a.natAbs then some 0x12 else none)
  else if l.acc < a.natAbs then some 0x11 else none

/-- Whether v changes sign inside the segment (R99 check 4). -/
def Seg.vTurns (g : Seg) (q : Nat) : Bool :=
  let ve := g.vNum q
  -- the extremum of v lies inside when a changes sign; there v·2j = 2j·v0 − a0²
  let inside := (decide (0 < g.a0) && decide (g.aNum q < 0)) || (decide (g.a0 < 0) && decide (0 < g.aNum q))
  let x := 2 * g.j * g.v0 - g.a0 * g.a0
  let xs : Int := if 0 < g.j then x else -x
  (decide (g.v0 < 0) && decide (0 < ve)) || (decide (0 < g.v0) && decide (ve < 0)) ||
    (inside && ((decide (0 < g.v0) && decide (xs < 0)) || (decide (g.v0 < 0) && decide (0 < xs))))

/-- The end state of a segment (R98). -/
def Seg.fin (g : Seg) (period : Nat) : Int × Int × Int := g.at (g.n * period)

/-- Check 4 of R99 for one segment, in the order of its instants: the detail of the first limit broken. The end state is the
rounded one of R98. -/
def Seg.limitBad (g : Seg) (l : Limits) (period : Nat) : Option Nat :=
  let q := g.n * period
  let e := g.fin period
  let inside := (decide (0 < g.a0) && decide (g.aNum q < 0)) || (decide (g.a0 < 0) && decide (0 < g.aNum q))
  if l.jerk < g.j.natAbs then some 0x13
  else if l.speed < g.v0.natAbs ∨ l.speed < e.2.1.natAbs ∨
      (inside ∧ l.speed * 2 * g.j.natAbs < (2 * g.j * g.v0 - g.a0 * g.a0).natAbs) then some 0x10
  else match accBad l g.v0 g.a0 with
    | some d => some d
    | none => if g.vTurns q && decide ((l.acc : Int) ^ 2 < g.a0 * g.a0 - 2 * g.j * g.v0) then some 0x11
      else accBad l e.2.1 e.2.2

/-- Whether two motion states agree within the tolerances of check 3 (R99). -/
def statesNear (a b : Int × Int × Int) : Bool :=
  decide ((a.1 - b.1).natAbs ≤ 1) && decide ((a.2.1 - b.2.1).natAbs ≤ 10) && decide ((a.2.2 - b.2.2).natAbs ≤ 1000)

/-- The start state of a segment. -/
def Seg.start (g : Seg) : Int × Int × Int := (g.p0, g.v0, g.a0)

/-- Check 3 of R99: the index of the first segment that does not continue the one before it. -/
def firstBreak (period : Nat) : Nat → List Seg → Option Nat
  | i, a :: b :: r => if statesNear (a.fin period) b.start then firstBreak period (i + 1) (b :: r) else some (i + 1)
  | _, _ => none

/-- The first segment that a check faults, with the detail. -/
def firstFault (f : Seg → Option Nat) : Nat → List Seg → Option (Nat × Nat)
  | _, [] => none
  | i, g :: r => match f g with
    | some d => some (d, i)
    | none => firstFault f (i + 1) r

/-- The first segment whose format is invalid. -/
def firstFormat : Nat → List (List Byte) → Option Nat
  | _, [] => none
  | i, b :: r => if segFormatOk b then firstFormat (i + 1) r else some i

/-- The 32-byte records of a table. -/
def State.segBytes (s : State) (a n : Nat) : List (List Byte) := (List.range n).map fun i => s.cellsFrom (a + 32 * i) 32

/-- Checks 1, the start check, 3, 4 and 5 of R99 in their order: detail and segment index of the first failure. -/
def tableBad (startOk : Seg → Bool) (l : Limits) (period : Nat) (bs : List (List Byte)) : Option (Nat × Nat) :=
  match firstFormat 0 bs with
  | some i => some (0x15, i)
  | none =>
    let gs := bs.map segOf
    if gs.head?.any (fun g => !startOk g) then some (0x16, 0)
    else match firstBreak period 0 gs with
    | some i => some (0x14, i)
    | none => match firstFault (fun g => g.limitBad l period) 0 gs with
      | some x => some x
      | none => match gs.getLast? with
        | some g =>
          let e := g.fin period
          if e.2.1.natAbs ≤ 10 ∧ e.2.2.natAbs ≤ 1000 then none else some (0x17, gs.length - 1)
        | none => none

/-! ### Planned stops (R116) -/

/-- Position, velocity and acceleration of a phase `t` after its start, all in 2^-40 units. -/
def StopPhase.at (h : StopPhase) (t : Nat) : Int × Int × Int :=
  (h.p + roundAway (6 * h.v * (t : Int) * 2 ^ 80 + 3 * h.a * (t : Int) ^ 2 * 2 ^ 40 + h.j * (t : Int) ^ 3) (6 * 2 ^ 120),
   h.v + roundAway (2 * h.a * (t : Int) * 2 ^ 40 + h.j * (t : Int) ^ 2) (2 * 2 ^ 80),
   h.a + roundAway (h.j * (t : Int)) (2 ^ 40))

/-- Phases of given durations and jerks, each from the end state of the one before. -/
def chainPhases : Int × Int × Int → List (Nat × Int) → List StopPhase
  | _, [] => []
  | (p, v, a), (d, j) :: r =>
    let h : StopPhase := { dur := d, p := p, v := v, a := a, j := j }
    h :: chainPhases (h.at d) r

/-- Durations (2^-40 s) and jerks (µm/s³) of the shortest ramp stop of at most three constant-jerk phases from (v, a). -/
def rampStopPhases (l : Limits) (v a : Int) : List (Nat × Int) :=
  let j : Nat := if l.jerk = 0 then 1 else l.jerk
  -- v after driving a to 0, times 2j
  let v0 := 2 * (j : Int) * v + a * (a.natAbs : Int)
  if v0 = 0 then (if a = 0 then [] else [(a.natAbs * 2 ^ 40 / j, if 0 < a then -(j : Int) else j)])
  else
    let sg : Int := if v0 < 0 then 1 else -1
    let a' := sg * a
    let w := -(sg * v)
    let peak := isqrt ((2 * (j : Int) * w + a' * a') * 2 ^ 39).toNat
    let d20 := l.dec * 2 ^ 20
    if peak ≤ d20 ∨ l.dec = 0 then
      [(((peak : Int) - a' * 2 ^ 20) * 2 ^ 20 / j).toNat |> fun t => (t, sg * j), (peak * 2 ^ 20 / j, -(sg * j))]
    else
      let d : Int := l.dec
      let up : Int := if a' ≤ d then 1 else -1
      let t1 := (d - a').natAbs * 2 ^ 40 / j
      let hold := ((2 * (j : Int) * w - up * (d * d - a' * a') - d * d) * 2 ^ 40 / (2 * j * d)).toNat
      [(t1, sg * up * j), (hold, 0), (l.dec * 2 ^ 40 / j, -(sg * j))]

/-- The planned stop of segment-table mode from (p, v, a), and its end position in µm (R116). -/
def planStop (hard : Bool) (l : Limits) (p v a : Int) : List StopPhase × Int :=
  let k : Int := 2 ^ 40
  let phases :=
    if hard then
      let h : Nat := if l.hdec = 0 then 1 else l.hdec
      if v = 0 then [] else
        [{ dur := v.natAbs * 2 ^ 40 / h, p := p * k, v := v * k, a := (if 0 < v then -(h : Int) else h) * k, j := 0 }]
    else chainPhases (p * k, v * k, a * k) ((rampStopPhases l v a).map fun x => (x.1, x.2 * k))
  let e := match phases.getLast? with
    | some h => (h.at h.dur).1
    | none => p * k
  (phases, roundAway e (2 ^ 40))

/-- The state of a plan `t` after its start, rounded; none at or after its end. -/
def planAt : List StopPhase → Nat → Option (Int × Int × Int)
  | [], _ => none
  | h :: r, t =>
    if t < h.dur then
      let x := h.at t
      some (roundAway x.1 (2 ^ 40), roundAway x.2.1 (2 ^ 40), roundAway x.2.2 (2 ^ 40))
    else planAt r (t - h.dur)

end Sys2Proof.Machine
end

