-- ==== Sys2Proof/Machine/Ramp.lean ====
section
/-! DEFINITION. Ramp units (R87-R133): segment runs, trapezoid moves, stops, limit inputs, homing and gearing. -/
namespace Sys2Proof.Machine

/-! ### Ends of moves -/

/-- An armed tail is disarmed and ends FAILED 0x21 (R106). -/
def State.untail (u : Fin 4) (s : State) : State :=
  if s.ramp[u].tail.isSome then (s.setRamp u { s.ramp[u] with tail := none }).complete (.tail u) .failed 0x21 0 else s

/-- A move or homing of unit `u` ends with a final receipt; an armed tail ends FAILED 0x21 (R106). -/
def State.endMove (u : Fin 4) (st : Status) (detail further : Nat) (s : State) : State :=
  let s := s.setRamp u { s.ramp[u] with used := [], ended := some (st, detail, further, s.now) }
  let s := s.complete (.move u) st detail further
  (s.complete (.home u) st detail further).untail u

/-- What the first cause of a stop makes of the move's receipt (R92): detail and bytes 16-19. -/
def StopWhy.detail : StopWhy → Nat × Nat
  | .limit i => (0x22, i)
  | .storage a => (0x01, a)
  | .format i => (0x15, i)
  | _ => (0x21, 0)

/-- A position in whole µm, as a unit holds it at standstill (R88; notes/assumptions/45.md). -/
def heldPos (p : Int) : Int := roundAway p 65536 * 65536

/-- Standstill after a stop: the receipts of the move and of every MOVE_STOP (R117, R123, R126, R127). -/
def State.stopEnd (u : Fin 4) (s : State) : State :=
  let r := s.ramp[u]
  let still (r : RampSt) : RampSt := { r with pos := heldPos r.pos, motion := .still, vel := 0, why := [], stopReq := none }
  let s := s.setRamp u (still r)
  let s := match r.homing with
    | some h =>
      (match h.step with
        | .exhausted =>
          (s.setRamp u { still r with homing := none, homed := false }).endMove u .failed 0x23
            (roundAway (r.pos - h.start) 65536).natAbs
        | .limited i => (s.setRamp u { still r with homing := none, homed := false }).endMove u .failed 0x26 i
        | _ =>
          if r.why.any (fun w => match w with | .moveStop | .abort | .door | .takeover => true | _ => false) then
            (s.setRamp u { still r with homing := none, homed := false }).endMove u .failed 0x21 0
          else s)
    | none => match r.why.head? with
      | some w => s.endMove u .failed w.detail.1 w.detail.2
      | none => s
  s.complete (.stop u) .done 0 0

/-- A stop ordered for unit `u`, to start at the next tick; a hard stop is never relaxed (R119). -/
def State.orderStop (u : Fin 4) (hard : Bool) (w : StopWhy) (s : State) : State :=
  let r := s.ramp[u]
  s.setRamp u { r with stopReq := some (hard || r.stopReq = some true), why := r.why ++ [w] }

/-! ### Trapezoid profile (R110-R114) -/

/-- What one tick of a trapezoid profile gives. -/
inductive TrapOut where
  | go (t : TrapRun)
  /-- The target is reached. -/
  | reached
  /-- Stopped beyond the target (R114). -/
  | overshot (um : Nat)
deriving DecidableEq, Repr

/-- A rounded change of a speed with 16 fraction bits by `num / den` µm/s² over one tick (R110). -/
def speedStep (v : Int) (num den period : Nat) : Int :=
  roundAway (v * (den * tickHz : Nat) + (num : Int) * period * 65536) (den * tickHz)

/-- The same with a deceleration. -/
def slowStep (v num den period : Nat) : Nat :=
  (roundAway ((v : Int) * (den * tickHz : Nat) - (num : Int) * period * 65536) (den * tickHz)).toNat

/-- p + s · v · T_tick, rounded to 16 fraction bits (R110). -/
def posStep (p : Int) (up : Bool) (v period : Nat) : Int :=
  roundAway (p * tickHz + (if up then 1 else -1) * (v : Int) * period) tickHz

/-- Whether d ≤ (v² − V_STOP²) / (2 · D) + v · T_tick (R110); d, v with 16 fraction bits. -/
def brakeDue (d : Int) (v vstop num den period : Nat) : Bool :=
  let vs := vstop * 65536
  decide (d * 65536 * 2 * num * tickHz ≤
    ((v : Int) * v - (vs : Int) * vs) * den * tickHz + (v : Int) * period * 65536 * 2 * num)

/-- D_need = (v² − V_STOP²) / (2 · d) as a numerator and denominator, 0 below V_STOP (R113). -/
def TrapRun.need (t : TrapRun) (d : Int) : Nat × Nat := (t.v * t.v - t.vstop * 65536 * (t.vstop * 65536), d.toNat * 2 ^ 17)

/-- Whether D_need is above a deceleration (R113, R114). -/
def TrapRun.needOver (t : TrapRun) (d : Int) (x : Nat) : Bool := decide (x * (t.need d).2 < (t.need d).1)

/-- The deceleration in force after a D_LIM that comes into force at this tick, and in every tick while D_need is used (R113):
the profile, and whether DECEL_HELD arises. -/
def TrapRun.newDecel (l : Limits) (newDec : Bool) (d : Int) (t : TrapRun) : TrapRun × Bool :=
  let held := if newDec then t.needOver d l.dec else t.held
  let n := t.need d
  (if held then { t with dNum := if t.needOver d l.hdec then l.hdec else n.1, dDen := if t.needOver d l.hdec then 1 else n.2, held := true }
   else if newDec then { t with dNum := l.dec, dDen := 1, held := false } else t,
   newDec && held)

/-- The expected overshoot v² / (2 · H_LIM) − d in µm, rounded up (R114). -/
def TrapRun.overshoot (l : Limits) (d : Int) (t : TrapRun) : Nat :=
  if l.hdec = 0 then 0 else ceilDiv ((t.v * t.v : Int) - d * 2 ^ 17 * l.hdec).toNat (2 ^ 33 * l.hdec)

/-- A tick of the deceleration at H_LIM past the target (R114). -/
def TrapRun.overTick (l : Limits) (period : Nat) (pos : Int) (o : Nat) (t : TrapRun) : TrapOut × Int :=
  let v := slowStep t.v l.hdec 1 period
  (if v = 0 then .overshot o else .go { t with v := v, overBy := some o, phase := .decel }, posStep pos t.up v period)

/-- The new speed in the ACCEL and DECEL phases (R110, R112). -/
def TrapRun.newSpeed (l : Limits) (period : Nat) (d : Int) (t : TrapRun) : Nat :=
  let vlim := (match t.vcap with | some c => c | none => l.speed) * 65536
  match t.phase with
  | .accel =>
    if vlim < t.v then max (slowStep t.v t.dNum t.dDen period) vlim
    else
      let a := if t.v < t.vbreak * 65536 then min t.acc1 l.acc else l.acc
      min (speedStep t.v a 1 period).toNat vlim
  | .decel =>
    if !brakeDue d t.v t.vstop t.dNum t.dDen period then t.v
    else
      let w := max (slowStep t.v t.dNum t.dDen period) (t.vstop * 65536)
      if t.vstop = 0 then max w 65536 else w

/-- One tick of R110, with R111-R114: the profile and position after it, whether DECEL_HELD or OVERSHOOT arises. -/
def trapTick (l : Limits) (period : Nat) (newDec : Bool) (pos : Int) (t : TrapRun) : TrapOut × Int × Bool × Option Nat :=
  let d : Int := if t.up then t.target - pos else pos - t.target
  match t.overBy with
  | some o => ((t.overTick l period pos o).1, (t.overTick l period pos o).2, false, none)
  | none =>
    if d * tickHz ≤ (t.v : Int) * period then (.reached, t.target, false, none)
    else
      let x := t.newDecel l newDec d
      let t := x.1
      if t.held && t.needOver d l.hdec then
        let o := t.overshoot l d
        ((t.overTick l period pos o).1, (t.overTick l period pos o).2, x.2, some o)
      else
        let t := if t.phase = .accel && brakeDue d t.v t.vstop t.dNum t.dDen period then { t with phase := .decel } else t
        let v := t.newSpeed l period d
        (.go { t with v := v }, posStep pos t.up v period, x.2, none)

/-- The parameters of R111 and the sign, taken at the first tick; in homing each speed is capped at the step's (R126). -/
def State.trapStart (s : State) (u : Fin 4) (pos : Int) (t : TrapRun) : TrapRun :=
  let cap (n : Nat) : Nat := match t.vcap with | some c => min n c | none => n
  let b := rampBase u
  { t with up := decide (pos ≤ t.target), phase := .accel, vstart := cap (s.reg (b + 0x30)), vstop := cap (s.reg (b + 0x34)),
           vbreak := cap (s.reg (b + 0x38)), acc1 := s.reg (b + 0x3C), v := if t.target = pos then 0 else cap (s.reg (b + 0x30)) * 65536,
           dNum := (s.limits u).dec, dDen := 1, held := false, overBy := none, started := true }

/-- A trapezoid profile that has not made its first tick. -/
def trapNew (target : Int) (vcap : Option Nat) : TrapRun :=
  { target := target, up := true, phase := .accel, vstart := 0, vstop := 0, vbreak := 0, acc1 := 0, vcap := vcap, v := 0,
    dNum := 1, dDen := 1, held := false, overBy := none, started := false }

/-- The emitted acceleration of a change of speed over one tick (R110). -/
def accOf (v0 v1 : Int) (period : Nat) : Int := roundAway ((v1 - v0) * tickHz) (65536 * period)

/-- Signed speed. -/
def signed (up : Bool) (v : Nat) : Int := if up then v else -(v : Int)

/-- The far target of a homing search: beyond every reachable position. -/
def farTarget (up : Bool) : Int := if up then 2 ^ 60 else -(2 ^ 60)

/-! ### One tick of a unit -/

/-- Where a segment index lies in the combined table (R105). -/
def pieceOf (i : Nat) (ps : List SegPiece) : Option (Nat × SegPiece) :=
  (ps.find? fun p => decide (p.first ≤ i ∧ i < p.first + p.count)).map fun p => (p.addr + 32 * (i - p.first), p)

/-- Segments in the combined table. -/
def segTotal (ps : List SegPiece) : Nat := ps.foldl (fun n p => max n (p.first + p.count)) 0

/-- The combined table with the tail from index `f` (R105). -/
def swapTail (t : TailSt) (ps : List SegPiece) : List SegPiece :=
  (ps.filterMap fun p => if p.first < t.f then some { p with count := min p.count (t.f - p.first) } else none) ++
    [{ first := t.f, addr := t.addr, count := t.count }]

/-- One tick of a planned stop. -/
def State.planTick (u : Fin 4) (hard : Bool) (ph : List StopPhase) (e : Int) (n : Nat) (s : State) : State :=
  let r := s.ramp[u]
  match planAt ph (n * s.sys.period * 2 ^ 40 / tickHz) with
  | some (p, v, a) =>
    s.setRamp u { r with pos := p * 65536, vel := v * 65536, acc := a, motion := .stop hard (.plan ph e (n + 1)) }
  | none => (s.setRamp u { r with pos := e * 65536, vel := 0, acc := 0 }).stopEnd u

/-- A stop of a segment run planned from (p, v, a) at this tick, and its emission at this tick; an armed tail is disarmed
(R106, R116). -/
def State.startPlan (u : Fin 4) (hard : Bool) (l : Limits) (p v a : Int) (s : State) : State :=
  let x := planStop hard l p v a
  ((s.setRamp u { s.ramp[u] with stopReq := none }).untail u).planTick u hard x.1 x.2 0

/-- One tick of a stop made tick by tick (R116). -/
def State.stepsTick (u : Fin 4) (hard up : Bool) (v num den : Nat) (s : State) : State :=
  let r := s.ramp[u]
  let w := slowStep v num den s.sys.period
  let r := { r with pos := posStep r.pos up w s.sys.period, vel := signed up w,
                    acc := accOf (signed up v) (signed up w) s.sys.period, motion := .stop hard (.steps up w num den) }
  if w = 0 then (s.setRamp u { r with vel := 0 }).stopEnd u else s.setRamp u r

/-- The segment at an index is read at the tick at which it begins (R100, R102): its emission, or the hold of a bad one. -/
def State.readSeg (u : Fin 4) (x : SegRun) (i : Nat) (s : State) : State :=
  let r := s.ramp[u]
  let prev : Int × Int × Int := match x.seg with
    | some g => g.fin s.sys.period
    | none => (roundAway r.pos 65536, 0, 0)
  match pieceOf i x.pieces with
  | none => s
  | some (a, _) =>
    let e := s.eccRead a 32
    let s := e.2
    match e.1 with
    | some w =>
      let y := planStop true (s.limits u) (roundAway r.pos 65536) prev.2.1 prev.2.2
      (s.memUncorr w).setRamp u { s.ramp[u] with motion := .stop true (.plan y.1 y.2 0), why := r.why ++ [.storage w] }
    | none =>
      let b := s.cellsFrom a 32
      if segFormatOk b then
        let g := segOf b
        let z := g.at 0
        s.setRamp u { s.ramp[u] with pos := z.1 * 65536, vel := z.2.1 * 65536, acc := z.2.2,
                                     motion := .run { x with idx := i, n := 0, seg := some g } }
      else
        let y := planStop true (s.limits u) (roundAway r.pos 65536) prev.2.1 prev.2.2
        s.setRamp u { s.ramp[u] with motion := .stop true (.plan y.1 y.2 0), why := r.why ++ [.format i] }

/-- Whether the next tick of a segment run begins a segment, and which. -/
def SegRun.nextIdx (x : SegRun) : Option Nat :=
  match x.seg with
  | none => some x.idx
  | some g => if g.n ≤ x.n + 1 then some (x.idx + 1) else none

/-- One tick of a segment run; `stop` is a stop that takes effect at this tick (R100, R105, R106, R121). Its first tick is the start of
the move, where DECEL_HELD clears (R113). -/
def State.runTick (u : Fin 4) (x : SegRun) (stop : Option Bool) (s : State) : State :=
  let r := if x.seg.isNone then { s.ramp[u] with declHeld := false } else s.ramp[u]
  let s := s.setRamp u r
  let l := s.limits u
  match x.nextIdx with
  | none =>
    match x.seg with
    | none => s
    | some g =>
      let z := g.at ((x.n + 1) * s.sys.period)
      let s := s.setRamp u { r with pos := z.1 * 65536, vel := z.2.1 * 65536, acc := z.2.2, motion := .run { x with n := x.n + 1 } }
      (match stop with
       | some hard => (s.startPlan u hard l z.1 z.2.1 z.2.2)
       | none => s)
  | some i =>
    match stop, x.seg with
    | some hard, some g =>
      let z := g.fin s.sys.period
      if segTotal x.pieces ≤ i ∧ (r.tail.all fun t => decide (t.f ≠ i)) then
        (((s.setRamp u { r with pos := z.1 * 65536, vel := 0, acc := 0, motion := .still, stopReq := none, why := [] }).endMove u
          .done 0 0).complete (.stop u) .done 0 0)
      else (s.setRamp u { r with pos := z.1 * 65536, vel := z.2.1 * 65536, acc := z.2.2 }).startPlan u hard l z.1 z.2.1 z.2.2
    | some _, none => (s.setRamp u { r with vel := 0, acc := 0 }).stopEnd u
    | none, _ =>
      match r.tail with
      | some t =>
        if t.f = i then
          let ps := swapTail t x.pieces
          let s := (s.setRamp u { r with tail := none, used := ps.map fun p => (p.addr, 32 * p.count) }).complete (.tail u) .done 0 0
          s.readSeg u { x with pieces := ps } i
        else s.readSeg u x i
      | none =>
        if segTotal x.pieces ≤ i then
          let p := match x.seg with
            | some g => (g.fin s.sys.period).1 * 65536
            | none => r.pos
          (s.setRamp u { r with pos := p, vel := 0, acc := 0, motion := .still }).endMove u .done 0 0
        else s.readSeg u x i

/-- The end of a trapezoid profile on its target: the move ends DONE; in homing, standstill on HOMEPOS ends HOME (R126). -/
def State.trapReached (u : Fin 4) (t : TrapRun) (s : State) : State :=
  let r := s.ramp[u]
  let a := accOf (signed t.up t.v) 0 s.sys.period
  let r := { r with pos := heldPos t.target, vel := 0, acc := a, motion := .still }
  match r.homing with
  | some h =>
    if h.step = .creep then
      ((s.setRamp u { r with homing := none, homed := true }).post 0x0204 u.val).endMove u .done 0 0
    else s.setRamp u r
  | none => (s.setRamp u r).endMove u .done 0 0

/-- Position at standstill of a ramp stop made tick by tick from position `p` and speed `v` (R116); `n` bounds the ticks. -/
def rampStopEnd (up : Bool) (dec period : Nat) : Nat → Int → Nat → Int
  | 0, p, _ => p
  | n + 1, p, v =>
    let w := slowStep v dec 1 period
    if w = 0 then p else rampStopEnd up dec period n (posStep p up w period) w

/-- A position with 16 fraction bits within the range of R14. -/
def posWithin (p : Int) : Bool := decide (-(2 ^ 39) * 65536 ≤ p ∧ p ≤ (2 ^ 39 - 1) * 65536)

/-- Whether the search of step 3 is exhausted after this tick: HOMEMAX travelled, or a ramp stop from the next tick would
leave the range of R14 (R126). A stop of `n` ticks, none faster than `v`, cannot leave it while `v` for all of them does not. -/
def State.searchOver (s : State) (u : Fin 4) (h : HomeSt) (pos : Int) (v : Nat) (up : Bool) : Bool :=
  let l := s.limits u
  let n := v / max 1 (v - slowStep v l.dec 1 s.sys.period) + 2
  let far : Int := (n * (v * s.sys.period / tickHz + 1) : Nat)
  decide ((s.reg (rampBase u + 0x78) : Int) * 65536 ≤ ((pos - h.start).natAbs : Int)) ||
    (!posWithin (if up then pos + far else pos - far) && !posWithin (rampStopEnd up l.dec s.sys.period n pos v))

/-- One tick of a trapezoid profile; `stop` as in `runTick`. -/
def State.trapRunTick (u : Fin 4) (t0 : TrapRun) (newDec : Bool) (stop : Option Bool) (s : State) : State :=
  let r := s.ramp[u]
  let l := s.limits u
  let t := if t0.started then t0 else s.trapStart u r.pos t0
  let r := if t0.started then r else { r with declHeld := false }
  let s := s.setRamp u r
  let d : Int := if t.up then t.target - r.pos else r.pos - t.target
  let last := match r.homing with
    | some h => decide (h.step = .creep)
    | none => true
  let ends := last && t.overBy.isNone && decide (d * tickHz ≤ (t.v : Int) * s.sys.period)
  match stop with
  | some hard =>
    if ends then ((s.setRamp u { s.ramp[u] with stopReq := none, why := [] }).trapReached u t).complete (.stop u) .done 0 0
    else if !t0.started then (s.setRamp u { r with vel := 0, acc := 0 }).stopEnd u
    else
      let x := if newDec && t0.started && t.overBy.isNone then t.newDecel l true d else (t, false)
      let s := if x.2 then (s.setRamp u { s.ramp[u] with declHeld := true }).post 0x0201 u.val else s
      let num := if hard then l.hdec else x.1.dNum
      let den := if hard then 1 else x.1.dDen
      (s.setRamp u { s.ramp[u] with stopReq := none }).stepsTick u hard t.up t.v num den
  | none =>
    let o := trapTick l s.sys.period (newDec && t0.started) r.pos t
    let s := if o.2.2.1 then (s.setRamp u { s.ramp[u] with declHeld := true }).post 0x0201 u.val else s
    let s := match o.2.2.2 with
      | some um => s.post 0x0202 um
      | none => s
    match o.1 with
    | .reached => s.trapReached u t
    | .overshot um =>
      let r := s.ramp[u]
      ((s.setRamp u { r with pos := heldPos o.2.1, vel := 0, acc := accOf (signed t.up t.v) 0 s.sys.period, motion := .still,
                             homing := none, homed := if r.homing.isSome then false else r.homed })).endMove u .failed 0x20 um
    | .go t' =>
      let r := s.ramp[u]
      s.setRamp u { r with pos := o.2.1, vel := signed t'.up t'.v, acc := accOf (signed t.up t.v) (signed t'.up t'.v) s.sys.period,
                           motion := .trap t' }

/-- R120: the permit is withdrawn. The move ends, and the unit tracks its feedback source. -/
def State.permitTick (u : Fin 4) (p : Nat) (s : State) : State :=
  let r := s.ramp[u]
  let c := s.fld (rampBase u + 4) 0 4
  let pos := if c = 0 then r.pos else s.srcPos c * 65536
  let busy := r.moving
  let s := s.setRamp u { r with pos := pos, vel := 0, acc := 0, motion := .still, homing := none, why := [], stopReq := none,
                                homed := if r.homing.isSome then false else r.homed, noPermit := true }
  let s := if busy then s.endMove u .failed 0x24 p else s
  s.complete (.stop u) .done 0 0

/-- The profile of a unit at a tick instant (R87-R120). -/
def State.profileTick (u : Fin 4) (s : State) : State :=
  let r := s.ramp[u]
  let oldDec := (s.limits u).dec
  let newDec := match r.next with | some l => decide (l.dec ≠ oldDec) | none => false
  let s := match r.next with
    | some l => (s.putLimits u l).setRamp u { r with next := none }
    | none => s
  let p := s.fld (rampBase u + 4) 4 4
  if !s.permit p then s.permitTick u p
  else
    let r := { s.ramp[u] with noPermit := false }
    let s := s.setRamp u r
    match r.motion with
    | .still =>
      if r.stopReq.isSome then s.stopEnd u else s.setRamp u { r with vel := 0, acc := 0 }
    | .run x => s.runTick u x r.stopReq
    | .trap t => s.trapRunTick u t newDec r.stopReq
    | .stop hard pl =>
      let again := r.stopReq = some true && !hard
      let s := s.setRamp u { r with stopReq := none }
      match pl with
      | .steps up v num den =>
        if again then s.stepsTick u true up v (s.limits u).hdec 1 else s.stepsTick u hard up v num den
      | .plan ph e n =>
        if again then
          match planAt ph (n * s.sys.period * 2 ^ 40 / tickHz) with
          | some (p, v, a) =>
            let y := planStop true (s.limits u) p v a
            s.planTick u true y.1 y.2 0
          | none => s.planTick u hard ph e n
        else match n, ph with
          | 0, h :: _ =>
            -- the hard stop of R100 and R102 starts at this tick
            let y := planStop true (s.limits u) (h.p / 2 ^ 40) (h.v / 2 ^ 40) 0
            (s.untail u).planTick u hard y.1 y.2 0
          | _, _ => s.planTick u hard ph e n

/-- The homing steps that a tick decides: the reference left in step 2, the search exhausted (R126). -/
def State.homingTick (u : Fin 4) (s : State) : State :=
  let r := s.ramp[u]
  match r.homing with
  | none => s
  | some h =>
    match h.step, r.motion with
    | .backOff, .trap _ =>
      if s.inActive h.ref then s
      else
        let left := match (s.view h.ref).edgeOff with | some p => p | none => s.now
        s.setRamp u { r with homing := some { h with step := .backStop left }, stopReq := some (r.stopReq = some true) }
    | _, _ => s

/-! ### Gearing (R129-R133) -/

/-- Σ of R130 over the points, times 2^24. -/
def gearSum (m : Int) : List GearPt → Int
  | [] => 0
  | [p] => p.r * (if p.m < m then m - p.m else 0)
  | p :: q :: l => p.r * (clamp p.m q.m m - p.m) + gearSum m (q :: l)

/-- g(m), rounded once (R130). -/
def GearSt.gOf (g : GearSt) (m : Int) : Int := roundAway (g.g0 * 2 ^ 24 + gearSum m g.pts) (2 ^ 24)

/-- A carrier reduced by SLEW × T_tick toward 0, with 16 fraction bits; SLEW in mm/s (R132). -/
def carryDown (e : Int) (slew period : Nat) : Int :=
  let d : Int := roundAway ((slew : Int) * 1000 * period * 65536) tickHz
  if 0 ≤ e then max 0 (e - d) else min 0 (e + d)

/-- Gearing and emission of a unit at a tick instant (R87, R130, R132, R133). -/
def State.gearTick (u : Fin 4) (s : State) : State :=
  let r := s.ramp[u]
  let g := r.gear
  let e := carryDown g.e (s.fld (rampBase u + 0x90) 16 16) s.sys.period
  let out (g' : GearSt) (s : State) : State :=
    let r := s.ramp[u]
    let v := roundAway (r.vel * s.sys.period + (g'.g - g.g) * tickHz * 65536) (65536 * s.sys.period)
    s.setRamp u { r with gear := g', sp := roundAway (r.pos + g'.g * 65536 + g'.e) 65536, spVel := v, spAcc := r.acc }
  if g.source = 0 then
    if g.fresh then out { g with g := 0, e := g.e + g.g * 65536, fresh := false } s
    else out { g with e := e } s
  else if !s.srcValid g.source then
    let s := if g.frozen then s else s.post 0x0206 (u.val + 256 * g.source)
    out { g with frozen := true, e := e } s
  else
    let n := g.gOf (s.srcPos g.source)
    if g.fresh ∨ g.frozen then out { g with g := n, e := g.e + (g.g - n) * 65536, fresh := false, frozen := false } s
    else out { g with g := n, e := e } s

/-- RAMP_SETPOINT: one unit at a tick instant. -/
def State.rampTick (u : Fin 4) (s : State) : State := ((s.homingTick u).profileTick u).gearTick u

/-- RAMP_SETPOINT: the four units, in order (R87). -/
def State.rampTicks (s : State) : State := (((s.rampTick 0).rampTick 1).rampTick 2).rampTick 3

/-- Whether the move of a unit would end DONE at a tick now: completion wins over an ABORT at that tick (R121). -/
def State.endsNow (s : State) (u : Fin 4) : Bool :=
  let r := s.ramp[u]
  match r.motion with
  | .run x => match x.nextIdx with
    | some i => decide (segTotal x.pieces ≤ i) && r.tail.isNone && x.seg.isSome
    | none => false
  | .trap t =>
    let t := if t.started then t else s.trapStart u r.pos t
    let d : Int := if t.up then t.target - r.pos else r.pos - t.target
    t.overBy.isNone && decide (d * tickHz ≤ (t.v : Int) * s.sys.period) &&
      (match r.homing with | some h => decide (h.step = .creep) | none => true)
  | _ => false

/-! ### Letters of the ramp group -/

/-- The unit that a letter names. -/
def unitOf (n : Nat) : Fin 4 := ⟨n % 4, Nat.mod_lt _ (by decide)⟩

/-- Whether some limit of a set is 0 (R96). -/
def Limits.unset (l : Limits) : Bool := l.speed = 0 || l.acc = 0 || l.dec = 0 || l.jerk = 0 || l.hdec = 0

/-- Whether a limit input guarding a direction is enabled and active (R124). -/
def State.limitGuards (s : State) (u : Fin 4) (up : Bool) : Bool :=
  (List.range 4).any fun k =>
    let w := s.reg (rampBase u + 0x60 + 4 * k)
    bitAt w 6 && (bitAt w 7 = !up) && s.inActive (bitsAt w 0 6)

/-- The state checks that every move letter makes first: moving (R115), limits unset (R96), permit (R120). -/
def State.moveRefused (s : State) (u : Fin 4) : Option Nat :=
  if s.doorOwns u then some 0x51
  else if s.moving u then some 2
  else if (s.limitsLane u).unset then some 4
  else if !s.permit (s.fld (rampBase u + 4) 4 4) then some 7
  else none

/-- The address argument of a table of up to `most` records of `size` bytes: a count that is itself out of range does not make it
wrong, and it is then checked for one record. -/
def tableArg (a size n most : Nat) : Bool := tableRange a (size * (if n = 0 ∨ most < n then 1 else n))

/-- MOVE_RUN (R99, R100, R124). -/
def moveRunHandler : Handler :=
  handler (fun _ p => lowestBad p [] [(0, decide (3 < u32 p 0)), (4, !tableArg (u32 p 4) 32 (u32 p 8) 4096),
      (8, decide (u32 p 8 = 0 ∨ 4096 < u32 p 8))])
    fun l s =>
      let p := l.payload
      let u := unitOf (u32 p 0)
      let a := u32 p 4
      let n := u32 p 8
      match s.moveRefused u with
      | some d => refuse .wrongState d s
      | none =>
        let e := s.eccRead a (32 * n)
        match e.1 with
        | some w => refuseWith .failed 1 w e.2
        | none =>
          let s := e.2
          let bs := s.segBytes a n
          let start (g : Seg) : Bool := decide ((g.p0 * 65536 - s.ramp[u].pos).natAbs ≤ 65536) && g.v0 = 0 && g.a0 = 0
          match tableBad start (s.limitsLane u) s.sys.period bs with
          | some (d, i) => refuseWith .failed d i s
          | none =>
            let fin : Int := match (bs.map segOf).getLast? with
              | some g => (g.fin s.sys.period).1 * 65536
              | none => s.ramp[u].pos
            let dx := fin - s.ramp[u].pos
            if (decide (0 < dx) && s.limitGuards u true) || (decide (dx < 0) && s.limitGuards u false) then
              refuse .wrongState 3 s
            else
              (.queued (.move u), s.setRamp u { s.ramp[u] with
                motion := .run { pieces := [{ first := 0, addr := a, count := n }], idx := 0, n := 0, seg := none }, why := [], used := [(a, 32 * n)] })

/-- MOVE_RUN: checks a segment table and, if it passes, starts the unit playing it. -/
def execMoveRun (l : Letter) (s : State) : Host.Outcome State Fault Refusal := .next (s.serve 0x030 moveRunHandler l)

/-- The distance that R109 needs, in µm rounded up. -/
def trapMinUm (vstart vstop dec period : Nat) : Nat :=
  let a := if vstart ≤ vstop then 0 else vstart * vstart - vstop * vstop
  -- a / (2·dec) + vstart·period/800,000
  if dec = 0 then 0 else ceilDiv (a * tickHz + vstart * period * 2 * dec) (2 * dec * tickHz)

/-- Whether a distance (16 fraction bits) is below that of R109. -/
def trapTooShort (d : Nat) (vstart vstop dec period : Nat) : Bool :=
  let a := if vstart ≤ vstop then 0 else vstart * vstart - vstop * vstop
  decide (d * 2 * dec * tickHz < (a * tickHz + vstart * period * 2 * dec) * 65536)

/-- MOVE_TRAP (R108, R109, R115, R124). -/
def moveTrapHandler : Handler :=
  { bad := fun s l =>
      let p := l.payload
      let t := sext 64 (u64 p 8) + (if u8 p 1 = 1 then roundAway s.ramp[unitOf (u8 p 0)].pos 65536 else 0)
      lowestBad p [(2, 6)] [(0, decide (3 < u8 p 0)), (1, decide (1 < u8 p 1)), (8, !posOk (u64 p 8) || !posOk (ucode 64 t))]
    needsPriv := fun _ _ => false
    run := fun l s =>
      let p := l.payload
      let u := unitOf (u8 p 0)
      match s.moveRefused u with
      | some d => refuse .wrongState d s
      | none =>
        let lim := s.limitsLane u
        let b := rampBase u
        let vstart := s.reg (b + 0x30)
        let vstop := s.reg (b + 0x34)
        let vbreak := s.reg (b + 0x38)
        let pos := s.ramp[u].pos
        let target := if u8 p 1 = 0 then sext 64 (u64 p 8) * 65536 else pos + sext 64 (u64 p 8) * 65536
        if target ≠ pos ∧ s.limitGuards u (decide (pos < target)) then refuse .wrongState 3 s
        else if lim.speed < vstart ∨ lim.speed < vstop ∨ lim.speed < vbreak ∨ (vstart < vbreak ∧ s.reg (b + 0x3C) = 0) then
          refuse .wrongState 5 s
        else
          if target = pos then (.ended (.move u) .done 0 0, s.setRamp u { s.ramp[u] with ended := some (.done, 0, 0, s.now) })
          else if trapTooShort (target - pos).natAbs vstart vstop lim.dec s.sys.period then
            refuseWith .failed 0x25 (trapMinUm vstart vstop lim.dec s.sys.period) s
          else (.queued (.move u), s.setRamp u { s.ramp[u] with motion := .trap (trapNew target none), why := [] }) }

/-- MOVE_TRAP: starts a trapezoid move to an absolute or relative target. -/
def execMoveTrap (l : Letter) (s : State) : Host.Outcome State Fault Refusal := .next (s.serve 0x031 moveTrapHandler l)

/-- The number of tick instants from now to the one at which segment `f` begins, that one included (R104); a run that has not begun
starts its first segment at the next tick instant (R100). -/
def State.ticksTo (s : State) (x : SegRun) (f : Nat) : Nat :=
  let rest := match x.seg with
    | some g => g.n - x.n
    | none => 1
  let first := if x.seg.isSome then x.idx + 1 else x.idx
  (List.range (f - first)).foldl (fun n i =>
    match pieceOf (first + i) x.pieces with
    | some (a, _) => n + (segOf (s.cellsFrom a 32)).n
    | none => n) rest

/-- MOVE_TAIL (R103, R104). -/
def moveTailHandler : Handler :=
  { bad := fun s l =>
      let p := l.payload
      let u := unitOf (u16 p 0)
      let overBy : Bool := match s.ramp[u].motion with
        | .run x => decide (segTotal x.pieces ≤ u16 p 2)
        | _ => false
      lowestBad p [] [(0, decide (3 < u16 p 0)), (2, overBy),
        (4, !tableArg (u32 p 4) 32 (u32 p 8) 4096),
        (8, decide (u32 p 8 = 0 ∨ 4096 < u32 p 8 ∨ 65536 < u16 p 2 + u32 p 8))]
    needsPriv := fun _ _ => false
    run := fun l s =>
      let p := l.payload
      let u := unitOf (u16 p 0)
      let f := u16 p 2
      let a := u32 p 4
      let m := u32 p 8
      if s.doorOwns u then refuse .wrongState 0x51 s
      else if (s.limitsLane u).unset then refuse .wrongState 4 s
      else if !s.permit (s.fld (rampBase u + 4) 4 4) then refuse .wrongState 7 s
      else match s.ramp[u].motion with
      | .run x =>
        if s.ramp[u].tail.isSome then refuse .wrongState 6 s
        else if f < x.idx ∨ (x.seg.isSome ∧ f ≤ x.idx) ∨ s.ticksTo x f < 2 then refuseWith .failed 0x18 x.idx s
        else
          let e := s.eccRead a (32 * m)
          match e.1 with
          | some w => refuseWith .failed 1 w e.2
          | none =>
            let s := e.2
            let before : Int × Int × Int :=
              if f = 0 then match pieceOf 0 x.pieces with
                | some (b, _) => (segOf (s.cellsFrom b 32)).start
                | none => (roundAway s.ramp[u].pos 65536, 0, 0)
              else match pieceOf (f - 1) x.pieces with
                | some (b, _) => (segOf (s.cellsFrom b 32)).fin s.sys.period
                | none => (roundAway s.ramp[u].pos 65536, 0, 0)
            match tableBad (fun g => statesNear before g.start) (s.limitsLane u) s.sys.period (s.segBytes a m) with
            | some (d, i) => refuseWith .failed d (f + i) s
            | none => (.queued (.tail u), s.setRamp u { s.ramp[u] with tail := some { f := f, addr := a, count := m } })
      | _ => refuse .wrongState 2 s }

/-- MOVE_TAIL: checks a tail table and arms it to replace the running table from segment f. -/
def execMoveTail (l : Letter) (s : State) : Host.Outcome State Fault Refusal := .next (s.serve 0x032 moveTailHandler l)

/-- MOVE_STOP (R117). -/
def moveStopHandler : Handler :=
  handler (fun _ p => lowestBad p [(2, 2)] [(0, decide (3 < u8 p 0)), (1, decide (1 < u8 p 1))])
    fun l s =>
      let u := unitOf (u8 l.payload 0)
      if s.doorOwns u then refuse .wrongState 0x51 s
      else if s.moving u then (.queued (.stop u), s.orderStop u (u8 l.payload 1 = 1) .moveStop)
      else (.ended (.stop u) .done 0 0, s)

/-- MOVE_STOP: starts a ramp or hard stop of the unit at the next tick instant. -/
def execMoveStop (l : Letter) (s : State) : Host.Outcome State Fault Refusal := .next (s.serve 0x033 moveStopHandler l)

/-- SET_LIMITS (R94, R95). -/
def setLimitsHandler : Handler :=
  handler (fun _ p =>
      let out (n m : Nat) : Bool := decide (n = 0 ∨ m < n)
      lowestBad p [] [(0, decide (3 < u32 p 0)), (4, out (u32 p 4) 25000000), (8, out (u32 p 8) 20000000),
        (12, out (u32 p 12) 20000000 || decide (u32 p 20 < u32 p 12)), (16, out (u32 p 16) 200000000), (20, out (u32 p 20) 20000000)])
    fun l s =>
      let p := l.payload
      let u := unitOf (u32 p 0)
      if s.doorOwns u then refuse .wrongState 0x51 s
      else doneWith (s.setRamp u { s.ramp[u] with
        next := some { speed := u32 p 4, acc := u32 p 8, dec := u32 p 12, jerk := u32 p 16, hdec := u32 p 20 } })

/-- SET_LIMITS: sets the five motion limits of a unit, in force from the next tick instant. -/
def execSetLimits (l : Letter) (s : State) : Host.Outcome State Fault Refusal := .next (s.serve 0x034 setLimitsHandler l)

/-- HOME (R125, R126): steps 1 and 2, or 1 and 3 while the reference is inactive. While a limit of the unit is 0 there is no speed to
hold the search speed against, and HOME is refused for the limit (R96). -/
def homeHandler : Handler :=
  { bad := fun s l =>
      let p := l.payload
      let lim := s.limitsLane (unitOf (u8 p 0))
      lowestBad p [] [(0, decide (3 < u8 p 0)), (1, decide (1 < u8 p 1)), (2, decide (47 < u8 p 2)),
        (4, decide (u32 p 4 = 0) || (!lim.unset && decide (lim.speed < u32 p 4))), (8, decide (u32 p 8 = 0 ∨ u32 p 4 < u32 p 8)),
        (12, decide (47 < u32 p 12 ∧ u32 p 12 ≠ 255))]
    needsPriv := fun _ _ => false
    run := fun l s =>
      let p := l.payload
      let u := unitOf (u8 p 0)
      match s.moveRefused u with
      | some d => refuse .wrongState d s
      | none =>
        if s.fld (rampBase u + 4) 0 4 = 0 ∨ s.reg (rampBase u + 0x78) = 0 then refuse .wrongState 5 s
        else
          let neg := u8 p 1 = 1
          let active := s.inActive (u8 p 2)
          let h : HomeSt := { neg := neg, ref := u8 p 2, rearm := if u8 p 3 = 0 then 20 else u8 p 3, search := u32 p 4,
                              creep := u32 p 8, opp := u32 p 12, step := if active then .backOff else .search,
                              start := s.ramp[u].pos, capture := 0, oppLast := none, began := s.now, since := s.now }
          let t := if active then trapNew (farTarget neg) (some h.creep) else trapNew (farTarget (!neg)) (some h.search)
          (.queued (.home u), s.setRamp u { s.ramp[u] with homing := some h, homed := false, motion := .trap t, why := [] }) }

/-- HOME: starts the homing procedure that searches for the reference edge and moves the position frame. -/
def execHome (l : Letter) (s : State) : Host.Outcome State Fault Refusal := .next (s.serve 0x035 homeHandler l)

/-- The points of a gearing table (R129). -/
def State.gearPoints (s : State) (a n : Nat) : List GearPt :=
  (List.range n).map fun i => { m := sext 64 (s.cell32 (a + 16 * i) + 2 ^ 32 * s.cell32 (a + 16 * i + 4)),
                                r := sext 32 (s.cell32 (a + 16 * i + 8)) }

/-- Whether a gearing table is in order: positions in range and strictly increasing, reserved bytes 0 (R129, R131). -/
def State.gearTableOk (s : State) (a n : Nat) : Bool :=
  let pts := s.gearPoints a n
  (List.range n).all (fun i => posOk (s.cell32 (a + 16 * i) + 2 ^ 32 * s.cell32 (a + 16 * i + 4)) &&
      (decide (i = 0) || decide (s.cell32 (a + 16 * i + 12) = 0))) &&
    (List.range (n - 1)).all fun i =>
      match pts[i]?, pts[i + 1]? with
      | some x, some y => decide (x.m < y.m)
      | _, _ => true

/-- GEAR_SET (R131, R132). -/
def gearSetHandler : Handler :=
  { bad := fun s l =>
      let p := l.payload
      let n := u32 p 8
      let src := u8 p 1
      lowestBad p [(2, 2)] [(0, decide (3 < u8 p 0)),
        (1, decide (n ≠ 0) && (decide (src = 0 ∨ 9 < src) || (decide (6 ≤ src) && decide (u8 p 0 + 6 ≤ src)))),
        (4, decide (n ≠ 0 ∧ n ≤ 64) && (!tableRange (u32 p 4) (16 * n) || !s.gearTableOk (u32 p 4) n)), (8, decide (64 < n))]
    needsPriv := fun _ _ => false
    run := fun l s =>
      let p := l.payload
      let u := unitOf (u8 p 0)
      let n := u32 p 8
      let g := s.ramp[u].gear
      if s.moving u then refuse .wrongState 2 s
      else if n ≠ 0 ∧ u8 p 1 = 2 ∧ s.carStation then refuse .wrongState 1 s
      else if n = 0 then
        doneWith (s.setRamp u { s.ramp[u] with gear := { g with source := 0, frozen := false, pts := [], g0 := 0,
                                                                 fresh := decide (g.source ≠ 0) || g.fresh } })
      else
        let a := u32 p 4
        let e := s.eccRead a (16 * n)
        match e.1 with
        | some w => refuseWith .failed 1 w e.2
        | none =>
          let s := e.2
          doneWith (s.setRamp u { s.ramp[u] with
            gear := { g with source := u8 p 1, frozen := false, g0 := sext 32 (s.cell32 (a + 12)), pts := s.gearPoints a n,
                             fresh := true } }) }

/-- GEAR_SET: loads a ratio-point table and master source, or turns gearing off. -/
def execGearSet (l : Letter) (s : State) : Host.Outcome State Fault Refusal := .next (s.serve 0x036 gearSetHandler l)

/-! ### Limit inputs and homing events -/

/-- The re-arm window of a limit register, in postmark counts (R122). -/
def rearmCounts (ms : Nat) : Nat := (if ms = 0 then 20 else ms) * 80000

/-- Whether an edge is accepted: none of that input was accepted within its window before (R122). -/
def edgeAccepted (last : Option Postmark) (edge : Postmark) (window : Nat) : Bool :=
  match last with
  | none => true
  | some l => decide (l + window ≤ edge)

/-- LIMIT_STOP: the latest edge of limit input `k` of unit `u` into its active state is accepted or ignored (R122); outside
homing, an accepted edge in the guarded direction starts the configured stop (R123). -/
def execLimitStop (dt : Nat) (u : Fin 4) (k : Fin 4) (s : State) : Host.Outcome State Fault Refusal :=
  let s := s.advance dt
  if s.inReset then .next s else
  let r := s.ramp[u]
  let w := s.reg (rampBase u + 0x60 + 4 * k.val)
  let i := bitsAt w 0 6
  match (s.view i).edgeOn with
  | none => .next s
  | some e =>
    if bitAt w 6 && edgeAccepted r.limLast[k] e (rearmCounts (bitsAt w 16 8)) && r.homing.isNone then
      let s := s.setRamp u { r with limLast := r.limLast.set k (some e) }
      let guarded := if bitAt w 7 then decide (r.vel < 0) else decide (0 < r.vel)
      if r.moving && guarded then .next ((s.orderStop u (bitAt w 8) (.limit i)).post 0x0205 i) else .next s
    else .next s

/-- HOME_REARM_END: standstill after backing off and the re-arm window both past start the search of step 3 (R126). -/
def execHomeRearmEnd (dt : Nat) (u : Fin 4) (s : State) : Host.Outcome State Fault Refusal :=
  let s := s.advance dt
  if s.inReset then .next s else
  let r := s.ramp[u]
  match r.homing with
  | some h =>
    match h.step with
    | .backStop pm =>
      if r.motion = .still ∧ pm + h.rearm * 80000 ≤ s.now then
        .next (s.setRamp u { r with homing := some { h with step := .search, start := r.pos, since := s.now },
                                    motion := .trap (trapNew (farTarget (!h.neg)) (some h.search)) })
      else .next s
    | _ => .next s
  | none => .next s

/-- The limit inputs that end a homing: the enabled limits of the unit but for the reference, and the opposite limit input
(R127). -/
def State.homeLimitInput (s : State) (u : Fin 4) (h : HomeSt) (i : Nat) : Bool :=
  (decide (i = h.opp) || (List.range 4).any fun k =>
    let w := s.reg (rampBase u + 0x60 + 4 * k)
    bitAt w 6 && decide (bitsAt w 0 6 = i)) && decide (i ≠ h.ref)

/-- The re-arm window of an input during homing (R122, R127). -/
def State.homeWindow (s : State) (u : Fin 4) (h : HomeSt) (i : Nat) : Nat :=
  match (List.range 4).find? fun k =>
      let w := s.reg (rampBase u + 0x60 + 4 * k)
      bitAt w 6 && decide (bitsAt w 0 6 = i) with
  | some k => rearmCounts (bitsAt (s.reg (rampBase u + 0x60 + 4 * k)) 16 8)
  | none => h.rearm * 80000

/-- The last accepted edge of an input during homing. -/
def State.homeLast (s : State) (u : Fin 4) (h : HomeSt) (i : Nat) : Option Postmark :=
  match (List.finRange 4).find? fun k =>
      let w := s.reg (rampBase u + 0x60 + 4 * k.val)
      bitAt w 6 && decide (bitsAt w 0 6 = i) with
  | some k => s.ramp[u].limLast[k]
  | none => h.oppLast

/-- A limit input of the homing shows an edge of this homing that is accepted (R122, R127). -/
def State.homeEdge (s : State) (u : Fin 4) (h : HomeSt) (i : Nat) : Option Postmark :=
  match (s.view i).edgeOn with
  | some e =>
    if s.homeLimitInput u h i && decide (h.began ≤ e) && edgeAccepted (s.homeLast u h i) e (s.homeWindow u h i) then some e else none
  | none => none

/-- HOME_CAPTURE: the first edge of the reference captures the feedback position and the postmark of its sample, and starts
a ramp stop (R126 step 4), if the edge falls in step 3; an accepted limit edge in the same sample wins (R121). -/
def execHomeCapture (dt : Nat) (u : Fin 4) (cap : Int) (s : State) : Host.Outcome State Fault Refusal :=
  let s := s.advance dt
  if s.inReset then .next s else
  let r := s.ramp[u]
  match r.homing with
  | some h =>
    match (s.view h.ref).edgeOn with
    | some e =>
      let clash := (List.range 48).any fun i => s.homeEdge u h i = some e
      if h.step = .search ∧ s.inActive h.ref ∧ h.since ≤ e ∧ clash = false then
        .next (s.setRamp u { r with cap := cap, capPm := e, homing := some { h with step := .captured, capture := cap },
                                    stopReq := some (r.stopReq = some true) })
      else .next s
    | none => .next s
  | none => .next s

/-- HOME_ADJUST: at standstill after the capture, HOMEPOS − capture is added to the source's offset and to the held position,
and the creep move to HOMEPOS starts (R126 steps 5 and 6). -/
def execHomeAdjust (dt : Nat) (u : Fin 4) (s : State) : Host.Outcome State Fault Refusal :=
  let s := s.advance dt
  if s.inReset then .next s else
  let r := s.ramp[u]
  match r.homing with
  | some h =>
    if h.step = .captured ∧ r.motion = .still then
      let home := s.pairInt (rampBase u + 0x70)
      let d := home - h.capture
      let s := s.moveSource (s.fld (rampBase u + 4) 0 4) d
      .next (s.setRamp u { r with pos := r.pos + d * 65536, homing := some { h with step := .creep },
                                  motion := .trap (trapNew (home * 65536) (some h.creep)) })
    else .next s
  | none => .next s

/-- HOME_SEARCH_EXHAUSTED: step 3 travelling HOMEMAX without an edge, or about to leave the position range, makes a ramp stop
that ends HOME FAILED 0x23 (R126). -/
def execHomeSearchExhausted (dt : Nat) (u : Fin 4) (s : State) : Host.Outcome State Fault Refusal :=
  let s := s.advance dt
  if s.inReset then .next s else
  let r := s.ramp[u]
  match r.homing, r.motion with
  | some h, .trap t =>
    if h.step = .search ∧ s.searchOver u h r.pos t.v t.up then
      .next (s.setRamp u { r with homing := some { h with step := .exhausted }, stopReq := some (r.stopReq = some true) })
    else .next s
  | _, _ => .next s

/-- A limit edge has ended the homing already (R127). -/
def HomeStep.ended : HomeStep → Bool
  | .limited _ => true
  | _ => false

/-- HOME_LIMIT: an accepted edge on the opposite limit input or another enabled limit during homing starts a hard stop that
ends HOME FAILED 0x26; the capture is discarded (R127). -/
def execHomeLimit (dt : Nat) (u : Fin 4) (input : Fin 48) (s : State) : Host.Outcome State Fault Refusal :=
  let s := s.advance dt
  if s.inReset then .next s else
  let r := s.ramp[u]
  match r.homing with
  | some h =>
    match s.homeEdge u h input.val with
    | some e =>
      if !h.step.ended then
        let lims := Vector.ofFn fun k : Fin 4 =>
          let w := s.reg (rampBase u + 0x60 + 4 * k.val)
          if bitAt w 6 && decide (bitsAt w 0 6 = input.val) then some e else r.limLast[k]
        .next ((s.setRamp u { r with limLast := lims, homing := some { h with step := .limited input.val, oppLast := some e },
                                     stopReq := some true }).post 0x0203 input.val)
      else .next s
    | none => .next s
  | none => .next s

end Sys2Proof.Machine
end

