-- ==== Sys2Proof/Machine/Door.lean ====
section
/-! DEFINITION. The door sequencer and the stops of the DOOR block (R221-R225, R235-R259). -/
namespace Sys2Proof.Machine

/-! ### What the block reads -/

/-- The door unit (DOOR_CFG.UNIT). -/
def State.doorUnit (s : State) : Fin 4 := unitOf (s.fld 0x50004 0 2)

/-- POS_CLOSED. -/
def State.posClosed (s : State) : Int := s.pairInt 0x50020
/-- POS_OPEN. -/
def State.posOpen (s : State) : Int := s.pairInt 0x50028

/-- The closed contact is active. -/
def State.contact (s : State) : Bool := s.inActive (s.fld 0x50004 12 6)
/-- The lock input is active. -/
def State.lockInput (s : State) : Bool := s.inActive (s.fld 0x50004 18 6)

/-- The words of DOOR_OBSTk, DOOR_TIME and DOOR_SEQ, as the next move uses them (R223). -/
def State.doorWords (s : State) : DoorUse :=
  { obst := Vector.ofFn fun k : Fin 4 => s.reg (0x50010 + 4 * k.val), time := s.reg 0x50034, seq := s.reg 0x50038 }

/-- An obstruction input is enabled and active; with `edges`, edge inputs only (R245). -/
def State.obstOf (s : State) (d : DoorUse) (edges : Bool) (k : Fin 4) : Bool :=
  let w := d.obst[k]
  bitAt w 6 && s.inActive (bitsAt w 0 6) && (!edges || !bitAt w 7)

/-- Some obstruction input is enabled and active, as the registers stand. -/
def State.obstructed (s : State) (edges : Bool) : Bool := (List.finRange 4).any (s.obstOf s.doorWords edges)

/-- A word of a door profile (R262). -/
def State.profWord (s : State) (k w : Nat) : Nat := s.reg (0x50100 + 0x20 * k + 4 * w)

/-- A profile is refused (R237). -/
def State.profileBad (s : State) (k : Nat) : Bool :=
  let out (n m : Nat) : Bool := decide (n = 0 ∨ m < n)
  (List.range 4).any (fun w => out (s.profWord k w) 25000000) || out (s.profWord k 4) 20000000 ||
    out (s.profWord k 5) 20000000 || out (s.profWord k 6) 20000000 || decide (s.profWord k 6 < s.profWord k 5) ||
    (List.range 3).any fun w => decide (s.profWord k w < s.profWord k 3)

/-- The door position (R221, R262). -/
def State.doorPos (s : State) : Int :=
  if s.door.mode = 1 ∨ s.door.mode = 3 then s.srcPos 5
  else s.posClosed + roundAway ((s.door.n - s.door.nOfs) * (s.reg 0x50050 : Int)) 256

/-- The legacy input moves the door (R234): n ≠ T, or a step came within 2·T_s. -/
def State.legacyMoving (s : State) : Bool :=
  match s.door.stepAt, s.door.stepTs with
  | some a, some t => decide (s.door.n ≠ s.door.target) || decide (s.now ≤ a + 2 * t)
  | _, _ => decide (s.door.n ≠ s.door.target)

/-- The door is moving (R71, R88). -/
def State.doorMoving (s : State) : Bool :=
  s.carStation && ((decide (1 ≤ s.door.mode ∧ s.door.mode ≤ 3) && s.moving s.doorUnit) || (s.door.mode = 4 && s.legacyMoving))

/-- The DOOR block replaced. -/
def State.setDoor (d : DoorSt) (s : State) : State := { s with door := d }

/-- The door state changes; POSITION_UNKNOWN is posted on entry into state 1 (R235). -/
def State.doorTo (st : Nat) (s : State) : State :=
  let old := s.door.state
  let s := s.setDoor { s.door with state := st }
  if st = 1 ∧ old ≠ 1 then s.post 0x0501 old else s

/-- A homing close has ended and the state stays POSITION_UNKNOWN, which is no entry into it (R240, R242, R245). -/
def State.doorUnknown (s : State) : State := s.setDoor { s.door with state := 1 }

/-- The door unit is at standstill with no stop ordered. -/
def State.doorRest (s : State) : Bool :=
  let r := s.ramp[s.doorUnit]
  r.motion = .still && r.stopReq.isNone

/-- The door position lies within CLOSEDWIN of POS_CLOSED (R235). -/
def State.nearClosed (s : State) : Bool := decide ((s.doorPos - s.posClosed).natAbs ≤ s.reg 0x50030)

/-- An outstanding DOOR_OPEN and DOOR_CLOSE end FAILED. -/
def State.doorFail (detail : Nat) (s : State) : State :=
  (s.complete .doorOpen .failed detail 0).complete .doorClose .failed detail 0

/-! ### Moves -/

/-- The gearing is folded into the profile: off, its term added to the held position (R243). -/
def State.foldGear (u : Fin 4) (s : State) : State :=
  let r := s.ramp[u]
  if r.gear.source = 0 then s
  else s.setRamp u { r with pos := r.pos + r.gear.g * 65536 + r.gear.e,
                            gear := { r.gear with source := 0, frozen := false, pts := [], g0 := 0, g := 0, e := 0, fresh := false } }

/-- A trapezoid move of the door unit to a target with 16 fraction bits, with limits and trapezoid registers from a profile
(R237; notes/assumptions/19.md). The move uses the other words of the block as they stand (R223). -/
def State.startDoor (target : Int) (vlim k : Nat) (s : State) : State :=
  let u := s.doorUnit
  let s := if s.door.state = 10 ∨ s.door.state = 11 then s.foldGear u else s
  let b := rampBase u
  let s := (((s.setReg (b + 0x30) 0).setReg (b + 0x34) (s.profWord k 3)).setReg (b + 0x38) 0).setReg (b + 0x3C) 0
  let l : Limits := { speed := vlim, acc := s.profWord k 4, dec := s.profWord k 5, jerk := 200000000, hdec := s.profWord k 6 }
  (s.setRamp u { s.ramp[u] with next := some l, motion := .trap (trapNew target none), why := [], stopReq := none,
                                ended := none }).setDoor { s.door with profile := some k, use := s.doorWords, next := none }

/-- The closing speed of R249: of a close (1), a nudge (2) or a homing close (3). -/
def State.closeSpeed (s : State) (k kind : Nat) : Nat :=
  let e := if kind = 2 then s.fld 0x5006C 0 16 else s.fld 0x50068 16 16
  let m := s.fld 0x50060 0 16
  let v := s.profWord k kind
  if m = 0 then v else min v (isqrt (18 * e * 1000000000 / m))

/-- An open move starts. -/
def State.openDoor (k : Nat) (s : State) : State :=
  let s := s.startDoor (s.posOpen * 65536) (s.profWord k 0) k
  (s.setDoor { s.door with openAt := some s.now, close := none }).doorTo 5

/-- A close or nudge starts; its time-out counts from `since`. -/
def State.closeDoor (k : Nat) (nudge : Bool) (since : Postmark) (s : State) : State :=
  let v := s.closeSpeed k (if nudge then 2 else 1)
  let s := s.startDoor (s.posClosed * 65536) v k
  (s.setDoor { s.door with vplan := v, holdAt := none, openAt := none,
                           close := some { profile := k, nudge := nudge, since := since } }).doorTo (if nudge then 8 else 7)

/-- A homing close starts (R242); its time-out counts from `since`. -/
def State.homingClose (k : Nat) (nudge : Bool) (since : Postmark) (s : State) : State :=
  let v := s.closeSpeed k 3
  let pos := s.ramp[s.doorUnit].pos
  let s := s.startDoor (pos - (s.posOpen - s.posClosed) * 12 * 65536 / 10) v k
  (s.setDoor { s.door with vplan := v, found := false, close := some { profile := k, nudge := nudge, since := since } }).doorTo 2

/-- An open move of a letter or of LINK_DOOR: at once from rest, else when the stop in progress has ended. -/
def State.openSoon (k : Nat) (s : State) : State :=
  if s.doorRest then s.openDoor k else s.setDoor { s.door with next := some (.openMove k) }

/-- A close move or a homing close: at once from rest, else when the stop in progress has ended (R236, R242). -/
def State.closeSoon (k : Nat) (nudge : Bool) (s : State) : State :=
  if s.doorRest then (if s.door.state = 1 then s.homingClose k nudge s.now else s.closeDoor k nudge s.now)
  else s.setDoor { s.door with next := some (.closeMove k nudge), holdAt := none,
                               close := some { profile := k, nudge := nudge, since := s.now } }

/-! ### Letters -/

/-- DOOR_MODE (R222). -/
def doorModeHandler : Handler :=
  handler (fun _ p => lowestBad p [] [(0, decide (4 < u32 p 0))])
    fun l s =>
      let m := u32 l.payload 0
      let enc := s.encMode 2
      let cfg (i : Nat) : Bool :=
        let c := s.fio.ctr[(⟨i % 8, Nat.mod_lt _ (by decide)⟩ : Fin 8)]
        decide (c.mode ≠ 0) || (match c.next with | some n => decide (n.1 ≠ 0) | none => false)
      let leg := s.reg 0x50008
      if s.doorMoving then refuse .wrongState 0x50 s
      else if s.door.fault then refuse .wrongState 0x56 s
      else if (m = 1 ∧ enc ≠ 3 ∧ enc ≠ 4) ∨ (m = 3 ∧ enc ≠ 1) then refuse .wrongState 0x55 s
      else if (m = 1 ∨ m = 3) ∧ (s.destSlot 5).isNone then refuse .wrongState 0x55 s
      else if (m = 2 ∨ m = 4) ∧ (s.destSlot 5).any fun i => !s.loop.slots[i].off then refuse .wrongState 0x55 s
      else if m = 4 ∧ (bitsAt leg 0 3 = bitsAt leg 4 3 ∨ cfg (bitsAt leg 0 3) ∨ cfg (bitsAt leg 4 3)) then
        refuse .wrongState 0x55 s
      else doneWith (s.setDoor { s.door with modeReq := some m })

/-- DOOR_MODE: sets the door stage mode at the next tick instant, after its requirements are checked. -/
def execDoorMode (l : Letter) (s : State) : Host.Outcome State Fault Refusal := .next (s.serve 0x040 doorModeHandler l)

/-- DOOR_OPEN (R236). -/
def doorOpenHandler : Handler :=
  handler (fun _ p => lowestBad p [] [(0, decide (7 < u16 p 0))])
    fun l s =>
      let k := u16 l.payload 0
      let d := s.door
      if d.mode = 0 ∨ d.mode = 4 then refuse .wrongState 0x54 s
      else if d.fault then refuse .wrongState 0x56 s
      else if !s.openPermit then refuse .wrongState 0x52 s
      else if d.state = 1 ∨ d.state = 2 then refuse .wrongState 0x57 s
      else if s.profileBad k then refuse .wrongState 0x5F s
      else
        let s := s.setDoor { d with hold := u16 l.payload 2, openProfile := k, nudge := false, firstHold := none }
        match d.state with
        | 5 =>
          let s := s.complete .doorOpen .failed 0x5E 0
          if (match d.next with | some _ => true | none => false) then
            (.queued .doorOpen, (s.complete .doorClose .failed 0x5E 0).setDoor { s.door with close := none, next := some (.openMove k) })
          else (.queued .doorOpen, s)
        | 6 => (.ended .doorOpen .done 0 0, s.setDoor { s.door with holdAt := if s.door.hold = 0 then none else some s.now })
        | 7 => (.queued .doorOpen, stopFirst k s)
        | 8 => (.queued .doorOpen, stopFirst k s)
        | 9 =>
          let s := (s.complete .doorOpen .failed 0x5E 0).complete .doorClose .failed 0x5E 0
          (.queued .doorOpen, s.setDoor { s.door with close := none, next := match d.next with
            | some (.closeMove ..) => some (.openMove k)
            | x => x })
        | _ => (.queued .doorOpen, ((s.complete .doorOpen .failed 0x5E 0).complete .doorClose .failed 0x5E 0).openSoon k)
where
  stopFirst (k : Nat) (s : State) : State :=
    let s := (s.complete .doorClose .failed 0x5E 0).orderStop s.doorUnit false .door
    (s.setDoor { s.door with close := none, next := some (.openMove k) }).doorTo 9

/-- DOOR_OPEN: makes the sequencer open the door with a profile and hold time, as the door state allows. -/
def execDoorOpen (l : Letter) (s : State) : Host.Outcome State Fault Refusal := .next (s.serve 0x041 doorOpenHandler l)

/-- The lowest obstruction input that would reverse a close (R245), by the words that the close uses: those of the move in
progress, else as they stand. -/
def State.obstInput (s : State) (edges : Bool) : Option Nat :=
  let d := if s.door.state = 2 ∨ s.door.state = 7 ∨ s.door.state = 8 then s.door.use else s.doorWords
  ((List.finRange 4).find? (s.obstOf d edges)).map fun k => bitsAt d.obst[k] 0 6

/-- DOOR_CLOSE (R236, R245). -/
def doorCloseHandler : Handler :=
  handler (fun _ p => lowestBad p [(2, 2)] [(0, decide (7 < u8 p 0)), (1, decide (1 < u8 p 1))])
    fun l s =>
      let k := u8 l.payload 0
      let nudge := u8 l.payload 1 = 1
      let d := s.door
      if d.mode = 0 ∨ d.mode = 4 then refuse .wrongState 0x54 s
      else if d.fault then refuse .wrongState 0x56 s
      else if s.profileBad k then refuse .wrongState 0x5F s
      else if d.state = 3 then (.ended .doorClose .done 0 0, s)
      else if d.state = 4 then
        (.queued .doorClose, (s.complete .doorClose .failed 0x5E 0).setDoor
          { d with close := some { profile := k, nudge := nudge, since := s.now } })
      else match s.obstInput (nudge && decide (d.state ≠ 1 ∧ d.state ≠ 2)) with
      | some i => (.refuse .failed 0x58 0, s.post 0x0504 i)
      | none =>
        match d.state with
        | 2 => (.queued .doorClose, (s.complete .doorClose .failed 0x5E 0).setDoor
            { d with close := some { profile := k, nudge := nudge, since := s.now } })
        | 5 =>
          let s := ((s.complete .doorOpen .failed 0x5E 0).complete .doorClose .failed 0x5E 0).orderStop s.doorUnit false .door
          (.queued .doorClose, s.setDoor { s.door with openAt := none, next := some (.closeMove k nudge),
                                                       close := some { profile := k, nudge := nudge, since := s.now } })
        | 9 =>
          let s := (s.complete .doorOpen .failed 0x5E 0).complete .doorClose .failed 0x5E 0
          (.queued .doorClose, s.setDoor { s.door with next := some (.closeMove k nudge),
                                                       close := some { profile := k, nudge := nudge, since := s.now } })
        | 7 => (.queued .doorClose, renew k nudge s)
        | 8 => (.queued .doorClose, renew k nudge s)
        | _ => (.queued .doorClose,
            ((s.complete .doorOpen .failed 0x5E 0).complete .doorClose .failed 0x5E 0).closeSoon k nudge)
where
  renew (k : Nat) (nudge : Bool) (s : State) : State :=
    let s := s.complete .doorClose .failed 0x5E 0
    let v := s.closeSpeed k (if nudge then 2 else 1)
    let u := s.doorUnit
    ((s.setRamp u { s.ramp[u] with next := some { s.limitsLane u with speed := v } }).setDoor
      { s.door with vplan := v, close := some { profile := k, nudge := nudge, since := s.now } }).doorTo (if nudge then 8 else 7)

/-- DOOR_CLOSE: makes the sequencer close or nudge the door, or make a homing close, as the door state allows. -/
def execDoorClose (l : Letter) (s : State) : Host.Outcome State Fault Refusal := .next (s.serve 0x042 doorCloseHandler l)

/-- The door is not at rest for DOOR_STOP: it moves, or a move is to follow a stop (R254). -/
def State.doorActs (s : State) : Bool :=
  s.doorMoving || (decide (1 ≤ s.door.mode ∧ s.door.mode ≤ 3) && (s.door.state = 9 || s.door.next ≠ none))

/-- DOOR_STOP (R254). -/
def doorStopHandler : Handler :=
  handler (fun _ _ => none)
    fun _ s =>
      if s.doorActs then (.queued .doorStop, s.setDoor { s.door with stopReq := true })
      else (.ended .doorStop .done 0 0, (s.doorFail 0x5A).setDoor { s.door with holdAt := none, next := none, close := none })

/-- DOOR_STOP: stops the door, cancels holds and automatic closes, and ends outstanding door letters FAILED. -/
def execDoorStop (l : Letter) (s : State) : Host.Outcome State Fault Refusal := .next (s.serve 0x043 doorStopHandler l)

/-- DOOR_LIMITS (R252). -/
def doorLimitsHandler : Handler :=
  handler (fun _ p => lowestBad p [] [(0, decide (u16 p 0 = 0 ∨ 4000 < u16 p 0)), (2, decide (u16 p 2 = 0))])
    fun l s =>
      if s.doorMoving then refuse .wrongState 0x50 s
      else doneWith (s.setDoor { s.door with limNext := some (u16 l.payload 0, u16 l.payload 2) })

/-- DOOR_LIMITS: sets the closing force limit and kinetic energy limit, in force from the next tick. -/
def execDoorLimits (l : Letter) (s : State) : Host.Outcome State Fault Refusal := .next (s.serve 0x044 doorLimitsHandler l)

/-! ### The stage on and off -/

/-- The output that carries E1's copy of the door permits: one gate-driver supply of the stage on the field die (R316, R317). -/
def State.doorSupply1 (s : State) : Bool :=
  s.carStation && s.grant && !s.fio.linkLost && !s.fio.linkOff && s.permitE1 (s.fld 0x50004 4 4) &&
    (match s.image with | some i => s.permitE1 (u8 i 0x9D3) | none => false)

/-- The output that carries E2's copy: the other gate-driver supply (R316, R317). -/
def State.doorSupply2 (s : State) : Bool :=
  s.carStation && s.grant && !s.fio.linkLost && !s.fio.linkOff && s.permitE2 (s.fld 0x50004 4 4) &&
    (match s.imageE2 with | some i => s.permitE2 (u8 i 0x9D3) | none => false)

/-- The stage may switch: both of its gate-driver supplies are on, and nothing else holds it off (R253, R21, R316, R317). -/
def State.stageOk (s : State) : Bool :=
  s.door.mode ≠ 0 && s.engineRuns && s.doorSupply1 && s.doorSupply2 && !s.door.fault &&
    ((s.door.mode ≠ 1 && s.door.mode ≠ 3) || s.sense.lvalid[5])

/-- The state after the stage is switched off, while it stays off (R253). -/
def State.offState (s : State) (enc : Bool) : Nat :=
  let stepper := s.door.mode = 2 || s.door.mode = 4
  match s.door.state with
  | 3 => if s.contact && s.lockInput then 3 else if stepper || enc then 1 else 10
  | 1 => 1
  | 10 => if stepper || enc then 1 else 10
  | 2 => 1
  | 4 => if stepper || enc then 1 else if s.contact then 4 else 10
  | _ => if stepper || enc then 1 else 10

/-- The door unit stops at once at the door position (R253, R120). -/
def State.haltUnit (s : State) : State :=
  let u := s.doorUnit
  let r := s.ramp[u]
  s.setRamp u { r with pos := s.doorPos * 65536, vel := 0, acc := 0, motion := .still, why := [], stopReq := none, homing := none }

/-- DOOR_STAGE_OFF: the stage is switched off, the unit stopped, the letters ended (R253). -/
def State.stageOff (s : State) : State :=
  let enc := (s.door.mode = 1 || s.door.mode = 3) && !s.sense.lvalid[5]
  let st := s.offState enc
  let s := (if s.door.mode = 4 then s else s.haltUnit).doorFail 0x5B
  let s := s.setDoor { s.door with on := false, duty := Vector.replicate 4 none, next := none, close := none, openAt := none,
                                   holdAt := none, trans := none }
  s.doorTo st

/-- The stage switched to what its conditions ask for (R253); while it is off, a move started meanwhile is stopped in the same
way, and the closed states follow their inputs. -/
def State.doorSwitch (s : State) : State :=
  if s.door.on then (if s.stageOk then s else s.stageOff)
  else if s.stageOk then s.setDoor { s.door with on := true, trans := none }
  else if s.carStation && decide (1 ≤ s.door.mode ∧ s.door.mode ≤ 3) && (s.doorActs || [2, 5, 7, 8].contains s.door.state) then
    s.stageOff
  else if s.carStation && s.door.mode ≠ 0 && (s.door.state = 3 || s.door.state = 4) then
    let st := s.offState false
    if st = s.door.state then s else s.doorTo st
  else s

/-- The open move of the door unit ends at the coming tick, with no other move to follow (R259). -/
def State.opensNow (s : State) : Bool := s.door.state = 5 && s.door.next.isNone && s.endsNow s.doorUnit

/-- OPEN_PERMIT_WITHDRAWN: an opening door is stopped hard (R244), but for an open that completes at that tick (R259). -/
def State.doorPermitCheck (s : State) : State :=
  if s.carStation && !s.openPermit && (s.door.state = 5 || s.door.state = 11) && !s.opensNow then
    let u := s.doorUnit
    let s := if s.moving u then s.orderStop u true .door else s
    let s := (s.foldGear u).complete .doorOpen .failed 0x5B 0
    let nx := match s.door.next with
      | some (.openMove _) => none
      | x => x
    (s.setDoor { s.door with openAt := none, next := nx }).doorTo 10
  else s

/-! ### The door at a tick instant -/

/-- DOOR_MODE in force at a tick instant (R222). -/
def State.doorModeTick (s : State) : State :=
  match s.door.modeReq with
  | none => s
  | some m =>
    let s := if s.door.mode = 0 then s else s.doorFail 0x5B
    let s := if s.door.mode ≠ 0 ∧ s.door.mode ≠ 4 ∧ (m = 0 ∨ s.doorMoving) then s.haltUnit else s
    let d := { s.door with mode := m, modeReq := none, on := false, state := if m = 0 then 0 else if m = 4 then 12 else 1,
                           close := none, next := none, openAt := none, holdAt := none, firstHold := none, nudge := false,
                           hold := 0, found := false, freezeAt := none, stepIgnore := false, trans := none, n := 0, nk := 0,
                           nk1 := 0, nOfs := 0, target := 0, nFx := 0, stepAt := none, stepTs := none, moves := false,
                           zeroAt := none, profile := none, use := s.doorWords,
                           ecap := false, fcap := false, fr := 0, energy := 0, stallAt := none, vlimit := false,
                           duty := Vector.replicate 4 none }
    (s.setDoor d).doorSwitch

/-- DOOR_LIMITS in force at a tick (R252). -/
def State.doorLimTick (s : State) : State :=
  match s.door.limNext with
  | none => s
  | some (f, e) =>
    let s := s.setReg 0x50068 (f + 65536 * e)
    let s := if f < s.fld 0x5006C 16 16 then s.setFld 0x5006C 16 16 f else s
    s.setDoor { s.door with limNext := none }

/-- The force and energy estimates of a tick (R246, R250, R248), mode 1 only (R251). -/
def State.doorEstimate (s : State) : State :=
  if s.door.mode ≠ 1 then s.setDoor { s.door with fr := 0, energy := 0, ecap := false, fcap := false, stallAt := none,
                                                  iqSum := 0, iqCnt := 0, vPrev := s.sense.spd[5] }
  else
    let d := s.door
    let v := s.sense.spd[5]
    let m := s.fld 0x50060 0 16
    let raw := truncDiv ((v - d.vPrev) * 800000) s.sys.period
    let acc := Sys2Proof.Config.lowPass d.acc raw s.sys.period (s.fld 0x50070 8 8)
    let iq := if d.iqCnt = 0 then 0 else roundAway d.iqSum d.iqCnt
    let sg : Int := if [2, 4, 3, 7, 8].contains d.state then -1 else if d.state = 5 ∨ d.state = 11 then 1 else 0
    let fm := 30 * (s.reg 0x5004C : Int) * iq
    let fr := if sg = 0 then 0 else
      roundAway (sg * (fm - 2 * m * acc) - (s.fld 0x50060 16 16 : Int) * 100 * clamp 0 20000 (sg * v)) 2000000
    let mv2 := m * (v * v).toNat
    let el := if d.state = 8 then s.fld 0x5006C 0 16 else s.fld 0x50068 16 16
    let ecap := if v < 0 ∧ el * 20000000000 < mv2 then true else d.ecap && !decide (10 * mv2 ≤ 9 * el * 20000000000)
    let stall := if (s.fld 0x5006C 16 16 : Int) ≤ fr ∧ sg ≠ 0 then (match d.stallAt with | some p => some p | none => some s.now)
                 else none
    let e := (roundAway (mv2 : Nat) 20000000000).toNat
    let s := s.setDoor { d with acc := acc, vPrev := v, iqSum := 0, iqCnt := 0, fr := fr, energy := e, ecap := ecap, stallAt := stall }
    if ecap then s.post 0x0503 e else s

/-- DOOR_STOP at its tick instant (R254); an open that completes at this tick completes first, and a door stopped by R253 is
found at rest (R259). -/
def State.doorStopTick (s : State) : State :=
  if !s.door.stopReq then s else
  let u := s.doorUnit
  let d := s.door
  let acts := s.doorActs
  if s.opensNow then s
  else
    let s := s.doorFail 0x5A
    let s := s.setDoor { s.door with stopReq := false, holdAt := none, next := none, close := none, openAt := none }
    if !acts then s.complete .doorStop .done 0 0
    else if d.mode = 1 ∨ d.mode = 3 then
      let s := match d.profile with
        | some _ => s
        | none => s.setRamp u { s.ramp[u] with next := some { s.limitsLane u with hdec := s.profWord 0 6 } }
      (s.orderStop u true .door).doorTo 10
    else if d.mode = 2 then
      let s := s.setDoor { s.door with nk := s.door.n, nk1 := s.door.n, freezeAt := some s.now }
      (s.haltUnit).doorTo 1
    else
      let s := s.setDoor { s.door with target := s.door.n, nFx := s.door.n * 2 ^ 32, stepIgnore := true, freezeAt := some s.now,
                                       stepTs := none }
      s.doorTo 1

/-- HOMING_CLOSE_CONTACT: the closed contact in a homing close (R242). -/
def State.homingContact (s : State) : State :=
  if s.door.state = 2 && !s.door.found && s.door.on && s.contact then
    let u := s.doorUnit
    let s := s.setDoor { s.door with found := true }
    if s.door.mode = 2 then
      let s := s.setDoor { s.door with nOfs := s.door.n, nk := s.door.n, nk1 := s.door.n }
      s.setRamp u { s.ramp[u] with pos := s.posClosed * 65536, vel := 0, acc := 0, motion := .still, why := [], stopReq := none }
    else
      let s := s.moveSource 5 (s.posClosed - s.srcPos 5)
      let s := s.setRamp u { s.ramp[u] with pos := s.posClosed * 65536 }
      if s.moving u then s.orderStop u true .door else s
  else s

/-- The door before the ramp units of a tick. -/
def State.doorPre (s : State) : State :=
  if !s.carStation then s else
  let s := s.doorModeTick.doorLimTick.doorSwitch.doorPermitCheck
  s.doorEstimate.doorStopTick.homingContact

/-- The unit is at rest on POS_CLOSED. -/
def State.atClosed (s : State) : Bool :=
  let r := s.ramp[s.doorUnit]
  r.motion = .still && r.pos = s.posClosed * 65536

/-- CLOSED_LOCKED is reached: the close is DONE, the nudge cleared (R239, R241). -/
def State.closedLocked (s : State) : State :=
  let s := s.setDoor { s.door with close := none, nudge := false, firstHold := none }
  (s.doorTo 3).complete .doorClose .done 0 0

/-- A close rests on POS_CLOSED: CLOSED, or CLOSED_LOCKED with the lock input (R235, R239). -/
def State.reachClosed (s : State) : State :=
  if s.contact && s.nearClosed then (if s.lockInput then s.closedLocked else s.doorTo 4) else s

/-- A move waits for the stop in progress, or a homing close for its move to POS_CLOSED: it starts only while the lane serves
(R30, R258). -/
def State.doorWaits (s : State) : Bool :=
  !s.serving && s.doorRest && (s.door.next.isSome || (s.door.state = 2 && s.door.found && !s.atClosed))

/-- DOOR_STATE_UPDATE: the door state after the moves of a tick (R238, R239, R242, R243). -/
def State.doorStateTick (s : State) : State :=
  let u := s.doorUnit
  let r := s.ramp[u]
  let d := s.door
  let still := s.doorRest
  let failed := match r.ended with
    | some (.failed, x, f, _) => some (x, f)
    | _ => none
  if s.doorWaits then s
  else match d.state with
  | 5 =>
    if !still then s
    else match d.next with
    | some (.closeMove k n) => s.closeDoor k n (match d.close with | some c => c.since | none => s.now)
    | some (.openMove k) => if s.openPermit then s.openDoor k else ((s.complete .doorOpen .failed 0x5B 0).setDoor
        { d with next := none }).doorTo 10
    | none =>
      match failed with
      | some (x, f) => ((s.complete .doorOpen .failed x f).setDoor { d with openAt := none }).doorTo 10
      | none =>
        let h := if d.hold = 0 || d.stopReq then none else some s.now
        let s := ((s.setDoor { d with openAt := none, holdAt := h, stopReq := false }).doorTo 6).complete .doorOpen .done 0 0
        if d.stopReq then s.complete .doorStop .done 0 0 else s
  | 9 =>
    if !still then s
    else match d.next with
    | some (.closeMove k n) => s.closeDoor k n (match d.close with | some c => c.since | none => s.now)
    | some (.openMove k) => if s.openPermit then s.openDoor k else ((s.complete .doorOpen .failed 0x5B 0).setDoor
        { d with next := none }).doorTo 10
    | none => s
  | 10 =>
    if !still then s
    else match d.next with
    | some (.closeMove k n) => s.closeDoor k n (match d.close with | some c => c.since | none => s.now)
    | some (.openMove k) => if s.openPermit then s.openDoor k else ((s.complete .doorOpen .failed 0x5B 0).setDoor
        { d with next := none })
    | none => s
  | 11 =>
    if !still then s
    else match d.next with
    | some (.closeMove k n) => s.closeDoor k n (match d.close with | some c => c.since | none => s.now)
    | some (.openMove k) => s.openDoor k
    | none => s
  | 1 =>
    if !still then s
    else match d.next with
    | some (.closeMove k n) => s.homingClose k n (match d.close with | some c => c.since | none => s.now)
    | _ => s
  | 2 =>
    if !still then s
    else if d.found then
      if s.atClosed then
        s.reachClosed
      else
        let k := d.profile.getD 0
        s.startDoor (s.posClosed * 65536) (s.closeSpeed k 3) k
    else
      let x := match failed with | some y => y | none => (0x5C, 0)
      ((s.complete .doorClose .failed x.1 x.2).setDoor { d with close := none }).doorUnknown
  | 7 => closing s u still failed
  | 8 => closing s u still failed
  | 4 =>
    if s.contact && s.lockInput && s.nearClosed then s.closedLocked
    else preopen s
  | 3 => if s.contact && s.lockInput then preopen s else preopen (s.doorTo 4)
  | _ => s
where
  closing (s : State) (u : Fin 4) (still : Bool) (failed : Option (Nat × Nat)) : State :=
    let _ := u
    if !still then s
    else match failed with
    | some (x, f) => ((s.complete .doorClose .failed x f).setDoor { s.door with close := none }).doorTo 10
    | none => if s.atClosed then s.reachClosed else s
  preopen (s : State) : State :=
    let r := s.ramp[s.doorUnit]
    let term := r.gear.g * 65536 + r.gear.e
    if r.gear.source ≠ 0 ∧ term ≠ 0 ∧ s.reg 0x50030 * 65536 < (r.pos + term - s.posClosed * 65536).natAbs then s.doorTo 11 else s

/-- The microstep counts of a tick (R231) and the commanded speed of mode 2 (R230). -/
def State.doorSteps (s : State) : State :=
  let d := s.door
  if d.mode ≠ 2 then s
  else
    let p := s.reg 0x50050
    let r := s.ramp[s.doorUnit]
    let nk := if p = 0 then d.nk else roundAway ((r.sp - s.posClosed) * 256) p + d.nOfs
    let nk := if d.freezeAt.isSome && r.motion = .still then d.nk else nk
    s.setDoor { d with nk1 := d.nk, nk := nk, moves := decide (r.spVel ≠ 0),
                       zeroAt := if d.moves ∧ r.spVel = 0 then some s.now else d.zeroAt, freezeAt := if r.motion = .still then d.freezeAt else none }

/-- The end of a DOOR_STOP (R254). -/
def State.doorStopEnd (s : State) : State :=
  if !s.outstanding .doorStop || s.door.stopReq then s
  else if s.door.mode = 0 then s.complete .doorStop .done 0 0
  else if s.door.mode = 2 ∨ s.door.mode = 4 then
    match s.door.freezeAt with
    | some t => if t + 4000000 ≤ s.now then s.complete .doorStop .done 0 0 else s
    | none => s.complete .doorStop .done 0 0
  else if s.moving s.doorUnit then s else s.complete .doorStop .done 0 0

/-- The clamp of R247 on the demand of this tick: FCAP and DOOR_FORCE. -/
def State.doorForceTick (s : State) : State :=
  let y := match s.destSlot 5 with | some i => s.loop.slots[i].ye | none => 0
  let c := s.doorClamp (y * s.reg 0x50054)
  let s := s.setDoor { s.door with fcap := c.force }
  if c.force then s.post 0x0502 (ucode 32 s.door.fr) else s

/-- The door after the ramp units and slots of a tick. -/
def State.doorPost (s : State) : State :=
  if !s.carStation then s else
  if s.door.mode = 0 then s.doorStopEnd else
  let s := if s.door.mode = 4 || !s.door.on then s else s.doorStateTick
  s.doorSteps.doorStopEnd.doorForceTick

/-! ### Event rows -/

/-- A close that becomes CLOSED_LOCKED at this instant: completion wins (R259). -/
def State.closesNow (s : State) : Bool :=
  (s.door.state = 7 || s.door.state = 8 || s.door.state = 4) && s.contact && s.lockInput && s.nearClosed &&
    (s.atClosed || s.endsNow s.doorUnit)

/-- The profile of the close in hand. -/
def State.closeProfile (s : State) : Nat :=
  match s.door.close with
  | some c => c.profile
  | none => s.door.profile.getD 0

/-- The stage is on and is not switched off at the coming tick, which would come first (R259). -/
def State.stageHolds (s : State) : Bool := s.door.on && s.stageOk

/-- A close is reversed: hard stop, the letter FAILED 0x58, REVERSING; a homing close stops (R245, R248). -/
def State.reverseDoor (s : State) : State :=
  let homing := s.door.state = 2
  let s := (s.orderStop s.doorUnit true .door).complete .doorClose .failed 0x58 0
  let s := s.setDoor { s.door with close := none, next := none, reopen := s.closeProfile }
  if homing then s.doorUnknown else s.doorTo 9

/-- Obstruction input `k` stops the close in progress: with the door CLOSING, NUDGING for an edge input, or in a homing close
that has not met its contact (R245, R259). -/
def State.obstStops (s : State) (k : Fin 4) : Bool :=
  s.obstOf s.door.use (s.door.state = 8) k &&
    (s.door.state = 7 || s.door.state = 8 || (s.door.state = 2 && !s.contact && !s.door.found))

/-- DOOR_OBSTRUCTED: obstruction input `k`, enabled and active during a close, stops the door and reverses it (R245). -/
def execDoorObstructed (dt : Nat) (k : Fin 4) (s : State) : Host.Outcome State Fault Refusal :=
  let s := s.advance dt
  if s.inReset then .next s else
  if s.carStation && s.stageHolds && s.obstStops k && !s.closesNow then
    .next ((s.post 0x0504 (bitsAt s.door.use.obst[k] 0 6)).reverseDoor)
  else .next s

/-- DOOR_STALL: F_r at or above F_OBS for OBSTIME reverses or stops the door (R248). An obstruction input that stops the door at
the same instant goes before it, and the stage switched off before both (R259). -/
def execDoorStall (dt : Nat) (s : State) : Host.Outcome State Fault Refusal :=
  let s := s.advance dt
  if s.inReset then .next s else
  match s.door.stallAt with
  | some t =>
    if s.carStation && s.door.mode = 1 && s.stageHolds && decide (t + s.fld 0x50070 0 8 * 80000 ≤ s.now) && !s.closesNow &&
        !(List.finRange 4).any s.obstStops then
      let st := s.door.state
      if st = 7 ∨ st = 8 ∨ st = 2 then
        .next (((s.setDoor { s.door with stallAt := none }).post 0x0507 (ucode 32 s.door.fr)).reverseDoor)
      else if st = 5 ∨ st = 11 then
        let s := (s.setDoor { s.door with stallAt := none, openAt := none, next := none }).post 0x0507 (ucode 32 s.door.fr)
        let s := if s.moving s.doorUnit then s.orderStop s.doorUnit true .door else s
        .next ((s.complete .doorOpen .failed 0x58 0).doorTo 10)
      else .next s
    else .next s
  | none => .next s

/-- DOOR_OPEN_TIMEOUT: an open not complete within OPEN_TIME ramp-stops the door (R238). -/
def execDoorOpenTimeout (dt : Nat) (s : State) : Host.Outcome State Fault Refusal :=
  let s := s.advance dt
  if s.inReset then .next s else
  match s.door.openAt with
  | some t =>
    if s.carStation && s.door.state = 5 && s.stageHolds && decide (t + bitsAt s.door.use.time 16 16 * 80000 ≤ s.now) &&
        !s.endsNow s.doorUnit then
      let s := (s.orderStop s.doorUnit false .door).complete .doorOpen .failed 0x5D 0
      .next ((s.setDoor { s.door with openAt := none, next := none }).doorTo 10)
    else .next s
  | none => .next s

/-- DOOR_CLOSE_TIMEOUT: a close not locked within CLOSE_TIME ramp-stops the door and is followed by a reopen (R240). -/
def execDoorCloseTimeout (dt : Nat) (s : State) : Host.Outcome State Fault Refusal :=
  let s := s.advance dt
  if s.inReset then .next s else
  match s.door.close with
  | some c =>
    if s.carStation && s.stageHolds && decide (c.since + bitsAt s.door.use.time 0 16 * 80000 ≤ s.now) && !s.closesNow then
      let homing := s.door.state = 1 ∨ s.door.state = 2
      let s := (s.post 0x0505 ((s.now - c.since) / 80000)).complete .doorClose .failed 0x59 0
      let s := if s.moving s.doorUnit then s.orderStop s.doorUnit false .door else s
      let s := s.setDoor { s.door with close := none, next := none, reopen := c.profile }
      .next (if homing then s.doorUnknown else s.doorTo 9)
    else .next s
  | none => .next s

/-- DOOR_REOPEN: at standstill after a reversal or time-out the lane opens the door with the close's profile (R240, R245);
not while the open permit is withdrawn or the lane does not serve (R258). -/
def execDoorReopen (dt : Nat) (s : State) : Host.Outcome State Fault Refusal :=
  let s := s.advance dt
  if s.inReset then .next s else
  if s.carStation && s.serving && s.door.on && s.door.state = 9 && s.door.next.isNone && !s.moving s.doorUnit && s.openPermit then
    .next (s.openDoor s.door.reopen)
  else .next s

/-- DOOR_HOLD_EXPIRY: the hold time ends; an automatic close starts, or the hold restarts (R241). -/
def execDoorHoldExpiry (dt : Nat) (s : State) : Host.Outcome State Fault Refusal :=
  let s := s.advance dt
  if s.inReset then .next s else
  match s.door.holdAt with
  | some t =>
    let d := s.door
    if s.carStation && s.serving && d.on && d.state = 6 && decide (t + d.hold * 8000000 ≤ s.now) then
      let first := match d.firstHold with | some p => some p | none => some s.now
      let s := s.setDoor { d with firstHold := first }
      if s.obstructed d.nudge || s.profileBad d.openProfile then .next (s.setDoor { s.door with holdAt := some s.now })
      else .next (s.closeDoor d.openProfile d.nudge s.now)
    else .next s
  | none => .next s

/-- DOOR_NUDGE: NUDGE_AFTER without a locked close makes later automatic closes nudges (R241). -/
def execDoorNudge (dt : Nat) (s : State) : Host.Outcome State Fault Refusal :=
  let s := s.advance dt
  if s.inReset then .next s else
  match s.door.firstHold with
  | some t =>
    let n := bitsAt s.door.use.seq 0 8
    if s.carStation && s.serving && decide (n ≠ 0) && !s.door.nudge && decide (t + n * 80000000 ≤ s.now) then
      .next ((s.setDoor { s.door with nudge := true }).post 0x0508 0)
    else .next s
  | none => .next s

/-- Whether the measured value of a stage fault meets its condition (R256): mA, kind 2 from the I²t sum, °C, mV. -/
def State.stageFaultMet (s : State) (kind : Nat) (v : Int) : Bool :=
  match kind with
  | 1 => decide (18000 < v)
  | 2 => decide (216000000000 ≤ s.door.i2t)
  | 3 => decide (150 < v)
  | 4 => decide (v < 18000) && s.door.on
  | 5 => decide (66000 < v)
  | _ => false

/-- STAGE_FAULT: overcurrent, I²t, overtemperature or supply fault switches the stage off and latches FAULT (R256). -/
def execStageFault (dt : Nat) (kind : Fin 6) (value : Int) (s : State) : Host.Outcome State Fault Refusal :=
  let s := s.advance dt
  if s.inReset then .next s else
  if s.carStation && s.stageFaultMet kind.val value then
    let d := s.door
    let d := if kind.val = 3 then { d with temp := value } else if 4 ≤ kind.val then { d with vdoor := value.toNat } else d
    let s := (s.setDoor { d with fault := true, fkind := kind.val }).post 0x0506 kind.val
    .next s.doorSwitch
  else .next s

/-- The cause of the latched stage fault is absent (R256). -/
def State.stageCauseAbsent (s : State) : Bool :=
  match s.door.fkind with
  | 2 => decide (s.door.i2t < 108000000000)
  | 3 => decide (s.door.temp < 120)
  | 4 => decide (20000 ≤ s.door.vdoor ∧ s.door.vdoor ≤ 60000)
  | 5 => decide (20000 ≤ s.door.vdoor ∧ s.door.vdoor ≤ 60000)
  | _ => true

/-- The refusal of a write to a register of the DOOR block (R223, R225, R262). -/
def State.doorRefused (s : State) (a v : Nat) : Option (Status × Nat × Nat) :=
  if !s.carStation then some (.wrongState, 1, 0)
  else if a = 0x5006C ∧ s.fld 0x50068 0 16 < bitsAt v 16 16 then some (.badArg, 4, 0)
  else if (a = 0x50004 ∨ a = 0x50008 ∨ (0x50040 ≤ a ∧ a ≤ 0x50060) ∨ (0x50020 ≤ a ∧ a ≤ 0x5002C)) ∧ s.door.mode ≠ 0 then
    some (.wrongState, 0x50, 0)
  else if 0x50068 ≤ a ∧ a ≤ 0x50070 ∧ s.doorMoving then some (.wrongState, 0x50, 0)
  else none

/-- A position pair of the DOOR block as a _HI write would leave it: the travel range holds (R225). -/
def State.doorTravelOk (s : State) (a : Nat) (p : Int) : Bool :=
  let t := if a = 0x50020 then s.posOpen - p else if a = 0x50028 then p - s.posClosed else 10000
  decide (10000 ≤ t ∧ t ≤ 5000000)

end Sys2Proof.Machine
end

