-- ==== Sys2Proof/Machine/Fio.lean ====
section
/-! DEFINITION. Field inputs and outputs (R425-R450, R21): sampling, counters, outputs, diagnostics, shedding, standby
switching, and the letters 0x0A0-0x0A3. -/
namespace Sys2Proof.Machine

/-! ### Reading -/

/-- The FIO block replaced. -/
def State.setFio (f : FioSt) (s : State) : State := { s with fio := f }

/-- A field input of the field die. -/
def State.inp (s : State) (k : Nat) : InSt := s.fio.inp[fidx 47 k]

/-- The debounce count of an input (R428). -/
def State.deb (s : State) (k : Nat) : Nat := s.fld (0xA0020 + 4 * (k / 8)) (4 * (k % 8)) 3

/-- The polarity bit of an input. -/
def State.inv (s : State) (k : Nat) : Bool := s.fld (0xA0020 + 4 * (k / 8)) (4 * (k % 8) + 3) 1 = 1

/-- An input in counter or frequency mode, which is not pulsed (R432). -/
def State.counting (s : State) (k : Nat) : Bool := decide (k < 8) && s.fio.ctr[fidx 7 k].mode ≠ 0

/-- A bit of a pair of registers that names inputs 0-47. -/
def State.inSet (s : State) (lo k : Nat) : Bool := if k < 32 then bitAt (s.reg lo) k else bitAt (s.reg (lo + 4)) (k - 32)

/-- The sampling period P of an input in counts (R427). -/
def State.inPeriod (s : State) (k : Nat) : Nat :=
  if s.pwr.mode = .park ∨ s.pwr.mode = .sleep then s.fld 0xA0010 8 8 * 20000
  else if s.inSet 0xA0014 k then 20000 else s.fld 0xA0010 0 8 * 20000

/-- A sampling window of bank `b` ends now for an input of period `p` (R426). -/
def windowEnds (now p b : Nat) : Bool := p ≠ 0 && decide (b * p / 6 ≤ now) && decide ((now - b * p / 6) % p = 0)

/-- The shed group of an output (R441); 0 for a brake supply output of the image. -/
def State.shedGroup (s : State) (k : Nat) : Nat :=
  if (s.supplyOf k).isSome then 0 else s.fld (0xA0120 + 4 * (k / 8)) (4 * (k % 8)) 3

/-- A group is shed, by VFIELD (R442) or by mains loss (R517). -/
def State.groupShed (s : State) (g : Nat) : Bool := g ≠ 0 && (bitAt s.fio.shed (g - 1) || bitAt s.pwr.mainsShed (g - 1))

/-- An output is shed. -/
def State.outShed (s : State) (k : Nat) : Bool := s.groupShed (s.shedGroup k)

/-- An output is held off by standby switching (R445). -/
def State.outStandby (s : State) (k : Nat) : Bool :=
  (s.fio.lightsOff && bitAt (s.reg 0xA0184) k) || (s.fio.ventOff && bitAt (s.reg 0xA0188) k)

/-- The grant, the permits, the safe-stop mask and LINKOFF allow an output (R435, R322, R334). -/
def State.outPermitted (s : State) (k : Nat) : Bool :=
  s.grant && !s.fio.linkOff && s.imagePermit (0x9F0 + k) &&
    !(s.safeStop && (match s.image with | some i => bitAt (u32 i 0x9E0) k | none => true)) &&
    (match s.supplyOf k with
     | none => true
     | some b => !s.safeStop && (match s.imageByte (0x9D1 + b) with | some p => s.permitE2 p | none => false))

/-- Commanded outputs held off by the grant, a permit, the safe-stop mask or LINKOFF: FIO_PERMOFF. -/
def State.permOff (s : State) : BitVec 32 := maskOf 32 fun k => s.fio.cmd.getLsbD k && !s.outPermitted k

/-! ### Outputs (R435-R438) -/

/-- The outputs as R435, or in SLEEP R444, has them now. -/
def State.outWanted (s : State) : BitVec 32 :=
  maskOf 32 fun k =>
    !s.fio.latched.getLsbD k && !s.outShed k &&
      (if s.pwr.mode = .sleep then s.fio.sleepKept.getLsbD k
       else s.fio.allowed.getLsbD k && !s.outStandby k && !s.fio.linkLost)

/-- The drivers follow: the instant of a switch-off is noted, and an output that switches on has no open load (R438). -/
def State.outRefresh (s : State) : State :=
  let w := s.outWanted
  let f := s.fio
  s.setFio { f with on := w, openLoad := f.openLoad &&& ~~~(w &&& ~~~f.on),
                    toff := Vector.ofFn fun k : Fin 32 => if f.on.getLsbD k.val && !w.getLsbD k.val then s.now else f.toff[k],
                    ton := Vector.ofFn fun k : Fin 32 => if !f.on.getLsbD k.val && w.getLsbD k.val then s.now else f.ton[k],
                    amps := Vector.ofFn fun k : Fin 32 => if w.getLsbD k.val then f.amps[k] else 0 }

/-- A channel is latched off: its commanded value becomes 0 (R438). -/
def State.latchOut (k : Fin 32) (kind : Nat) (s : State) : State :=
  let b : BitVec 32 := BitVec.ofNat 32 (2 ^ k.val)
  let f := s.fio
  let s := s.setFio { f with latched := f.latched ||| b, cmd := f.cmd &&& ~~~b, allowed := f.allowed &&& ~~~b,
                             kind := f.kind.set k kind }
  s.outRefresh

/-! ### The field link (R21, R430, R435) -/

/-- An input image that reaches the control die. -/
def InView.take (v : InView) (i : InSt) : InView :=
  { img := i.img, valid := i.valid,
    edgeOn := if i.img && !v.img then some i.chgPm else v.edgeOn,
    edgeOff := if !i.img && v.img then some i.chgPm else v.edgeOff }

/-- The gates of frequency inputs start afresh (R433). -/
def FioSt.gatesRestart (now : Postmark) (p : Nat → Bool) (f : FioSt) : FioSt :=
  { f with ctr := Vector.ofFn fun k : Fin 8 => if f.ctr[k].mode = 2 && p k.val then { f.ctr[k] with gateAt := now, edges := 0 }
                                               else f.ctr[k] }

/-- Inputs that count are sampled at 10 MHz and are valid again at once when the cause of the invalidity ends; their gates start
afresh (R429, R433). -/
def FioSt.countersBack (now : Postmark) (f : FioSt) : FioSt :=
  let back (k : Nat) : Bool := k < 8 && f.ctr[fidx 7 k].mode ≠ 0 && !f.linkLost && !f.input.entered && !f.inp[fidx 47 k].valid
  { f.gatesRestart now back with
    inp := Vector.ofFn fun k : Fin 48 => if back k.val then { f.inp[k] with valid := true } else f.inp[k] }

/-- FIELD_LINK_FRAME: a frame crosses the field link every 8 µs (R21): to the field die it carries the outputs that R435
allows, from it the images, validities and diagnostics. A frame that fails its check is discarded and counted. The link
pauses in SLEEP (R444). -/
def execFieldLinkFrame (dt : Nat) (toField ok : Bool) (x : DiagIn) (s : State) : Host.Outcome State Fault Refusal :=
  let s := s.advance dt
  if s.inReset then .next s else
  if s.pwr.mode = .sleep then .next s
  else if !ok then .next (s.setFio { s.fio with linkErr := satAdd 0xFFFF s.fio.linkErr 1 })
  else if toField then
    let al := maskOf 32 fun k => s.fio.cmd.getLsbD k && s.outPermitted k
    let t := (s.setFio { s.fio with allowed := al, frameAt := s.now, linkLost := false }).outRefresh
    .next (if s.fio.linkLost then t.setFio (t.fio.countersBack t.now) else t)
  else
    .next (s.setFio { s.fio with
      view := Vector.ofFn fun k : Fin 48 => s.fio.view[k].take s.fio.inp[k],
      amps := Vector.ofFn fun k : Fin 32 => if s.fio.on.getLsbD k.val then x.amps[k] else 0,
      groupA := x.groupA, groupB := x.groupB, hottest := x.hottest })

/-- Every input loses its validity: its image holds, and its next level needs DEB agreeing samples (R429). -/
def FioSt.invalidate (f : FioSt) : FioSt := { f with inp := Vector.map (fun i => { i with cnt := 0, valid := false }) f.inp }

/-- FIELD_LINK_FAULT: three 8 µs periods without a valid frame, at most 25 µs after the latest, switch off the outputs and the door stage (R21, R444). -/
def execFieldLinkFault (dt : Nat) (s : State) : Host.Outcome State Fault Refusal :=
  let s := s.advance dt
  if s.inReset then .next s else
  if s.fio.frameAt + 1920 ≤ s.now ∧ s.now ≤ s.fio.frameAt + 2000 ∧ ¬ s.fio.linkLost ∧ s.pwr.mode ≠ .sleep then
    let s := (s.setFio { s.fio.invalidate with linkLost := true, linkOff := true, allowed := 0 }).outRefresh
    .next (s.post 0x0A08 ((s.now - s.fio.frameAt) / 640)).doorSwitch
  else .next s

/-! ### Input sampling (R426-R429) -/

/-- The level that the comparator of input `k` reads at a pad voltage, with hysteresis against the level last read (R425). -/
def InSt.reads (k : Nat) (mv : Int) (i : InSt) : Bool :=
  let rise : Nat := 7500 + Config.inputRise k % 2001
  let fall : Nat := min (6500 + Config.inputFall k % 2001) (rise - 500)
  if (rise : Int) < mv then true else if mv < (fall : Int) then false else i.raw

/-- One raw sample of an input. -/
def InSt.sample (now : Postmark) (deb : Nat) (inv lost : Bool) (raw : Bool) (i : InSt) : InSt :=
  let i := if i.cnt ≠ 0 ∧ i.raw = raw then { i with cnt := satAdd 255 i.cnt 1 } else { i with raw := raw, cnt := 1, runPm := now }
  if deb ≤ i.cnt ∧ ¬ lost then
    let img := raw != inv
    { i with level := raw, valid := true, img := img, chgPm := if img = i.img then i.chgPm else i.runPm }
  else i

/-- All 48 inputs are valid again after INPUT_INVALID (R429). -/
def State.inputsBack (s : State) : State :=
  if s.fio.invalidPosted && (List.finRange 48).all fun k => s.fio.inp[k].valid then
    (s.setFio { s.fio with invalidPosted := false }).post 0x0A0A 0
  else s

/-- FIO_WAKE names an input whose image bit differs from `old` (R431). -/
def State.wakeImage (old : Vector InSt 48) (s : State) : Bool :=
  (List.finRange 48).any fun k => bitAt (s.pair 0xA0050) k.val && s.fio.inp[k].img ≠ old[k].img

/-- INPUT_SAMPLE: the sampling window of bank `bank` ends, and the raw samples of its inputs whose window ends now are
debounced into the image (R425-R428); `mv`: the pad voltages of the bank. Samples taken while VFIELD is below the input threshold
are discarded (R429). -/
def execInputSample (dt : Nat) (bank : Fin 6) (mv : Vector Int 8) (s : State) : Host.Outcome State Fault Refusal :=
  let s := s.advance dt
  if s.inReset then .next s else
  if s.fio.input.entered then .next s else
  let legacy (k : Nat) : Bool := s.door.mode = 4 && (k = s.fld 0x50008 0 3 || k = s.fld 0x50008 4 3)
  let inp := Vector.ofFn fun k : Fin 48 =>
    if k.val / 8 = bank.val ∧ ¬ s.counting k.val ∧ windowEnds s.now (s.inPeriod k.val) bank.val then
      s.fio.inp[k].sample s.now (if legacy k.val then 1 else s.deb k.val) (s.inv k.val) s.fio.linkLost
        (s.fio.inp[k].reads k.val mv[fidx 7 (k.val % 8)])
    else s.fio.inp[k]
  let t := s.setFio { s.fio with inp := inp, sampleAt := s.now,
                                 unsampled := if s.fio.sampleAt = s.now then s.fio.unsampled else s.fio.inp }
  .next (t.noteIf (t.wakeImage s.fio.inp) 5).inputsBack

/-! ### Counters (R432-R434) -/

/-- A counter or frequency input's edge into the active state (R433). -/
def CtrSt.edge (now : Postmark) (c : CtrSt) : CtrSt :=
  match c.mode with
  | 1 => { c with value := (c.value + 1) % 2 ^ 32 }
  | 2 => { c with edges := c.edges + 1, first := if c.edges = 0 then now else c.first, last := now }
  | _ => c

/-- COUNTER_EDGE: an input in counter or frequency mode has been stable for 2 µs on a new level (R432); an edge into the active
state is counted (R433). -/
def execCounterEdge (dt : Nat) (i : Fin 8) (high : Bool) (s : State) : Host.Outcome State Fault Refusal :=
  let s := s.advance dt
  if s.inReset then .next s else
  let k : Fin 48 := ⟨i.val, by omega⟩
  let x := s.fio.inp[k]
  if s.fio.ctr[i].mode = 0 ∨ s.pwr.mode = .sleep ∨ ¬ x.valid ∨ s.now < x.chgPm + 160 then .next s
  else
    let img := high != s.inv i.val
    let y := { x with level := high, raw := high, img := img, chgPm := if img = x.img then x.chgPm else s.now }
    let c := if img && !x.img then s.fio.ctr[i].edge s.now else s.fio.ctr[i]
    let t := s.setFio { s.fio with inp := s.fio.inp.set k y, ctr := s.fio.ctr.set i c }
    .next (t.noteIf (t.wakeImage s.fio.inp) 5)

/-- The frequency of a gate in Hz: round((n − 1) × 80,000,000 / (t_n − t_1)), 0 below two edges (R433). -/
def CtrSt.freq (c : CtrSt) : Nat :=
  if c.edges < 2 ∨ c.last ≤ c.first then 0 else (roundAway ((c.edges - 1 : Nat) * 80000000) (c.last - c.first)).toNat

/-- COUNTER_GATE_END: the gate of a frequency input ends and its frequency is set (R433). -/
def execCounterGateEnd (dt : Nat) (i : Fin 8) (s : State) : Host.Outcome State Fault Refusal :=
  let s := s.advance dt
  if s.inReset then .next s else
  let c := s.fio.ctr[i]
  if c.mode = 2 ∧ c.gateAt + c.gate * 80 = s.now ∧ (s.inp i.val).valid ∧ s.pwr.mode ≠ .sleep then
    .next (s.setFio { s.fio with ctr := s.fio.ctr.set i { c with value := c.freq, gateAt := c.gateAt + c.gate * 80, edges := 0 } })
  else .next s

/-- Whether a running loop slot reads an input as kind 9 or 10 (R434, R136). -/
def State.counterUsed (s : State) (i : Nat) : Bool :=
  (List.finRange 16).any fun k =>
    let q := s.loop.slots[k]
    q.configured && !q.off && [4, 5, 6, 20, 21].any fun o => q.d o = 0x90 + i || q.d o = 0xA0 + i

/-- COUNTER_CONFIG (R434). -/
def counterConfigHandler : Handler :=
  handler (fun _ p => lowestBad p [(2, 2)] [(0, decide (7 < u8 p 0)), (1, decide (2 < u8 p 1)),
      (4, decide (u8 p 1 = 2 ∧ (u32 p 4 < 1000 ∨ 1000000 < u32 p 4)))])
    fun l s =>
      let i := u8 l.payload 0
      if s.carStation ∧ s.door.mode = 4 ∧ (i = s.fld 0x50008 0 3 ∨ i = s.fld 0x50008 4 3) then refuse .wrongState 0x55 s
      else if s.counterUsed i then refuse .wrongState 0xA0 s
      else
        let k := fidx 7 i
        doneWith (s.setFio { s.fio with ctr := s.fio.ctr.set k { s.fio.ctr[k] with next := some (u8 l.payload 1, u32 l.payload 4) } })

/-- COUNTER_CONFIG: sets an input to sampled, counter or frequency mode from the next tick instant. -/
def execCounterConfig (l : Letter) (s : State) : Host.Outcome State Fault Refusal := .next (s.serve 0x0A3 counterConfigHandler l)

/-! ### Output letters (R436, R439) -/

/-- The group from `g` on that takes the next step of the sequence: the lowest one that has a channel (R442). -/
def State.nextShed (s : State) (g : Nat) : Option Nat :=
  [1, 2, 3, 4].find? fun k => decide (g ≤ k) && (List.range 32).any fun c => s.shedGroup c = k

/-- An output that the step of the shedding sequence due at this instant sheds (R442, R447). -/
def State.shedNow (s : State) (k : Nat) : Bool :=
  match s.fio.shedNext with
  | some (g, t) => s.fio.shedT.entered && t = s.now && s.shedGroup k ≠ 0 && s.nextShed g = some (s.shedGroup k)
  | none => false

/-- OUT_SET (R436). -/
def outSetHandler : Handler :=
  handler (fun _ _ => none)
    fun l s =>
      let m : BitVec 32 := word (u32 l.payload 0)
      let v : BitVec 32 := word (u32 l.payload 4)
      let stuck := maskOf 32 fun k => m.getLsbD k && (s.fio.latched.getLsbD k || s.outShed k || s.shedNow k)
      let w := m &&& ~~~stuck
      (.done stuck [], s.setFio { s.fio with cmd := (s.fio.cmd &&& ~~~w) ||| (v &&& w) })

/-- OUT_SET: writes the commanded values of the channels named in its mask; latched or shed channels keep theirs and are
reported. -/
def execOutSet (l : Letter) (s : State) : Host.Outcome State Fault Refusal := .next (s.serve 0x0A0 outSetHandler l)

/-- IN_READ: the tail is the image bits 0-47 and the validity bits 0-47, each padded to 8 bytes (R430). -/
def inReadHandler : Handler :=
  handler (fun _ _ => none)
    fun _ s =>
      let f (p : Nat → Bool) : List Byte := bytesLE 8 ((maskOf 48 p).toNat)
      (.done 0 (f s.inActive ++ f s.inValid), s)

/-- IN_READ: returns the input image and validity as the control die has them. -/
def execInRead (l : Letter) (s : State) : Host.Outcome State Fault Refusal := .next (s.serve 0x0A1 inReadHandler l)

/-- A shed group is restored: its channels take up their commanded values with the drivers (R443). -/
def State.restoreGroup (g : Nat) (s : State) : State :=
  let s := s.setFio { s.fio with shed := putBits s.fio.shed (g - 1) 1 0 }
  let s := { s with pwr := { s.pwr with mainsShed := putBits s.pwr.mainsShed (g - 1) 1 0 } }
  s.outRefresh.post 0x0A07 g

/-- The cause of a channel's latch is present: backfeed above 12 V, or a driver at 140 °C or more (R439). -/
def State.causePresent (k : Fin 32) (s : State) : Bool :=
  match s.fio.kind[k] with
  | 0 => decide (12000 < s.fio.volt[k])
  | 2 => decide (140 ≤ s.fio.temp[k])
  | _ => false

/-- OUT_RESTORE (R439). -/
def outRestoreHandler : Handler :=
  handler (fun _ p => lowestBad p [(2, 2)] [(0, decide (1 < u8 p 0)),
      (1, if u8 p 0 = 0 then decide (u8 p 1 = 0 ∨ 4 < u8 p 1) else decide (31 < u8 p 1))])
    fun l s =>
      let n := u8 l.payload 1
      if u8 l.payload 0 = 0 then
        if s.fio.shedT.entered ∨ (bitAt s.pwr.mainsShed (n - 1) ∧ ¬ s.pwr.mains) then refuse .wrongState 0xA1 s
        else if s.groupShed n then doneWith (s.restoreGroup n) else doneWith s
      else
        let k := fidx 31 n
        if !s.fio.latched.getLsbD n then doneWith s
        else if s.causePresent k then refuse .wrongState 0xA1 s
        else doneWith (s.setFio { s.fio with latched := s.fio.latched &&& ~~~(BitVec.ofNat 32 (2 ^ n)) })

/-- OUT_RESTORE kind 0: restores a shed group once VFIELD has recovered. -/
def execOutRestoreGroup (l : Letter) (s : State) : Host.Outcome State Fault Refusal := .next (s.serve 0x0A2 outRestoreHandler l)

/-- OUT_RESTORE kind 1: clears the latch of a channel whose cause is absent; the channel stays off, commanded 0. -/
def execOutRestoreChannel (l : Letter) (s : State) : Host.Outcome State Fault Refusal := .next (s.serve 0x0A2 outRestoreHandler l)

/-! ### Diagnostics (R438) -/

/-- OUTPUT_DIAG_CHECK: a check of an output that is off, every P_D after its switch-off: backfeed above 12 V, open load at
2.0-12 V under test current. -/
def execOutputDiagCheck (dt : Nat) (k : Fin 32) (mv : Nat) (temp : Int) (s : State) : Host.Outcome State Fault Refusal :=
  let s := s.advance dt
  if s.inReset then .next s else
  let pd := s.fld 0xA001C 0 6 * 20000
  if s.fio.on.getLsbD k.val || s.pwr.mode = .sleep || pd = 0 || decide (s.now ≤ s.fio.toff[k]) ||
      decide ((s.now - s.fio.toff[k]) % pd ≠ 0) then .next s
  else
    let b : BitVec 32 := BitVec.ofNat 32 (2 ^ k.val)
    let s := s.setFio { s.fio with volt := s.fio.volt.set k mv, temp := s.fio.temp.set k temp }
    if 12000 < mv then
      if s.fio.latched.getLsbD k.val then .next s else .next ((s.latchOut k 0).post 0x0A01 k.val)
    else if mv < 2000 then .next (s.setFio { s.fio with openLoad := s.fio.openLoad &&& ~~~b })
    else if bitAt (s.reg 0xA0110) k.val && !s.fio.openLoad.getLsbD k.val then
      .next ((s.setFio { s.fio with openLoad := s.fio.openLoad ||| b }).post 0x0A02 k.val)
    else .next s

/-- OVERLOAD: an output that has been on and at its current limit since OVLTIME ago is latched off (R438). -/
def execOverload (dt : Nat) (x : OverIn) (s : State) : Host.Outcome State Fault Refusal :=
  let s := s.advance dt
  if s.inReset then .next s else
  if s.fio.on.getLsbD x.k.val && s.pwr.mode ≠ .sleep && decide (s.fio.ton[x.k] ≤ x.since) &&
      s.now = x.since + s.fld 0xA001C 8 8 * 80000 then
    .next ((s.latchOut x.k 1).post 0x0A03 (x.k.val + 0x100)) else .next s

/-- DRIVER_OVERTEMP: the driver of an output that is on is above 160 °C: latched off (R438). -/
def execDriverOvertemp (dt : Nat) (k : Fin 32) (temp : Int) (s : State) : Host.Outcome State Fault Refusal :=
  let s := s.advance dt
  if s.inReset then .next s else
  let s := s.setFio { s.fio with temp := s.fio.temp.set k temp }
  if s.fio.on.getLsbD k.val && s.pwr.mode ≠ .sleep && decide (160 < temp) then .next ((s.latchOut k 2).post 0x0A03 (k.val + 0x200)) else .next s

/-- The channel of a group with the highest current, the lowest number on equal currents. -/
def State.heaviest (s : State) (groupB : Bool) : Option (Fin 32) :=
  (List.finRange 32).foldl (fun o k =>
    if (k.val / 16 = 1) = groupB ∧ s.fio.on.getLsbD k.val then
      match o with
      | none => some k
      | some j => if s.fio.amps[j] < s.fio.amps[k] then some k else some j
    else o) none

/-- GROUP_OVERCURRENT: a group current above 4.0 A latches off the highest-current channel after every
GRPTIME of it (R438). -/
def execGroupOvercurrent (dt : Nat) (x : GroupOverIn) (s : State) : Host.Outcome State Fault Refusal :=
  let s := s.advance dt
  if s.inReset then .next s else
  let n := s.fld 0xA001C 16 8 * 800000
  if s.pwr.mode = .sleep ∨ n = 0 ∨ s.now ≤ x.since ∨ (s.now - x.since) % n ≠ 0 then .next s else
  match s.heaviest x.groupB with
  | some k =>
    if 4000 < (if x.groupB then s.fio.groupB else s.fio.groupA) then .next ((s.latchOut k 3).post 0x0A03 (k.val + 0x300)) else .next s
  | none => .next s

/-! ### Field supply (R440-R443) -/

/-- One VFIELD sample against a threshold in mV: entered below `lo`, left at or above `hi`, four consecutive samples. -/
def Thresh.step (lo hi mv : Nat) (t : Thresh) : Thresh :=
  if (if t.entered then decide (hi ≤ mv) else decide (mv < lo)) then
    if 3 ≤ t.cnt then { entered := !t.entered, cnt := 0 } else { t with cnt := t.cnt + 1 }
  else { t with cnt := 0 }

/-- The sequence takes its step from group `g` on, and the next one SHEDSTEP later; a group shed already stays shed (R442). -/
def State.shedOne (g : Nat) (s : State) : State :=
  match s.nextShed g with
  | none => s.setFio { s.fio with shedNext := none }
  | some k =>
    let s := s.setFio { s.fio with shedNext := some (k + 1, s.now + s.fld 0xA0130 8 8 * 80000) }
    if s.groupShed k then s else (s.setFio { s.fio with shed := s.fio.shed ||| 2 ^ (k - 1) }).outRefresh.post 0x0A05 k

/-- The instant from which groups are restored: RESTTIME after VFIELD came to 17.5 V, while it stays there (R443). -/
def State.restFrom (s : State) (mv : Nat) : Option Postmark :=
  if mv < 17500 then none
  else match s.fio.restAt with
    | some t => some t
    | none => some (s.now + s.fld 0xA0130 16 8 * 800000)

/-- The raw samples of this very instant are discarded (R447). -/
def FioSt.discard (now : Postmark) (f : FioSt) : FioSt :=
  if f.sampleAt = now then
    { f with inp := Vector.ofFn fun k : Fin 48 =>
        if k.val < 8 ∧ f.ctr[fidx 7 k.val].mode ≠ 0 then f.inp[k] else f.unsampled[k] }
  else f

/-- VFIELD_SAMPLE: every 8 µs VFIELD is measured against the low, shed and input thresholds (R440). -/
def execVfieldSample (dt : Nat) (mv : Nat) (s : State) : Host.Outcome State Fault Refusal :=
  let s := s.advance dt
  if s.inReset then .next s else
  let f := s.fio
  let lo := f.low.step 19000 20000 mv
  let sh := f.shedT.step 16500 17500 mv
  let ip := f.input.step 15000 16000 mv
  let s := s.setFio { f with vfield := mv, low := lo, shedT := sh, input := ip, restAt := s.restFrom mv }
  let s := if lo.entered && !f.low.entered then s.post 0x0A04 mv else if !lo.entered && f.low.entered then s.post 0x0A09 mv else s
  let s := if sh.entered && !f.shedT.entered then s.shedOne 1
    else if !sh.entered && f.shedT.entered then s.setFio { s.fio with shedNext := none }
    else s
  if ip.entered && !f.input.entered then
    .next ((s.setFio { (s.fio.discard s.now).invalidate with invalidPosted := true }).post 0x0A06 mv)
  else if !ip.entered && f.input.entered then .next (s.setFio (s.fio.countersBack s.now)).inputsBack
  else .next s

/-- FIELD_SHED: the next shed group follows SHEDSTEP after the one before while the shed threshold stays entered (R442). -/
def execFieldShed (dt : Nat) (s : State) : Host.Outcome State Fault Refusal :=
  let s := s.advance dt
  if s.inReset then .next s else
  match s.fio.shedNext with
  | some (g, t) => if s.fio.shedT.entered ∧ t = s.now then .next (s.shedOne g) else .next s
  | none => .next s

/-- The highest of the groups in `m` whose AUTO bit is set (R443, R518). -/
def State.autoGroup (s : State) (m : Nat) : Option Nat :=
  [4, 3, 2, 1].find? fun g => bitAt m (g - 1) && bitAt (s.reg 0xA0130) (g - 1)

/-- The groups that R442 shed and R517 did not: the others return by the sequence of R518. -/
def State.fieldOnly (s : State) : Nat := s.fio.shed &&& (15 ^^^ (s.pwr.mainsShed % 16))

/-- FIELD_RESTORED: RESTTIME after VFIELD came back to 17.5 V and stayed there, or after mains returned, the highest shed group with AUTO
set is restored, one per RESTTIME (R443, R518). -/
def execFieldRestored (dt : Nat) (s : State) : Host.Outcome State Fault Refusal :=
  let s := s.advance dt
  if s.inReset then .next s else
  let rest := s.now + s.fld 0xA0130 16 8 * 800000
  let due (o : Option Postmark) : Bool := match o with | some t => decide (t ≤ s.now) | none => false
  if s.fio.shedT.entered then .next s
  else
    match (if due s.fio.restAt then s.autoGroup s.fieldOnly else none) with
    | some g => .next (s.setFio { s.fio with restAt := some rest } |>.restoreGroup g)
    | none =>
      match (if due s.pwr.restoreAt && s.pwr.mains then s.autoGroup s.pwr.mainsShed else none) with
      | some g => .next ({ s with pwr := { s.pwr with restoreAt := some rest } }.restoreGroup g)
      | none => .next s

/-! ### Standby switching (R445) and the tick -/

/-- STANDBY_IDLE_EXPIRY: outputs in FIO_LIGHT and FIO_VENT are held off once the idle time reaches their limits (R445). -/
def execStandbyIdleExpiry (dt : Nat) (s : State) : Host.Outcome State Fault Refusal :=
  let s := s.advance dt
  if s.inReset then .next s else
  let r := s.reg 0xA0180
  if bitAt r 0 && !s.tickDue then
    let past (n : Nat) : Bool := decide (s.fio.idleFrom + n * 80000000 ≤ s.now)
    .next (s.setFio { s.fio with lightsOff := s.fio.lightsOff || past (bitsAt r 4 12),
                                 ventOff := s.fio.ventOff || past (bitsAt r 16 12) }).outRefresh
  else .next s

/-- Whether the idle time restarts at this tick (R445). -/
def State.standbyBusy (s : State) : Bool :=
  (List.range 48).any (fun k => s.inSet 0xA0058 k && s.inActive k) || s.anyMoving ||
    (s.carStation && !(s.door.state = 4 || s.door.state = 3 || s.door.state = 0)) ||
    (s.carStation && s.link.state = 3 && (s.link.flags.getLsbD 2 || s.link.flags.getLsbD 3))

/-- The idle time at a tick. -/
def State.standbyTick (s : State) : State :=
  if bitAt (s.reg 0xA0180) 0 && !s.standbyBusy then s
  else (s.setFio { s.fio with idleFrom := s.now, lightsOff := false, ventOff := false }).outRefresh

/-- Counter configurations in force at a tick (R434). -/
def State.counterTick (s : State) : State :=
  s.setFio { s.fio with
    ctr := Vector.map (fun c => match c.next with
      | some (m, g) => { mode := m, gate := g, value := 0, next := none, gateAt := s.now, edges := 0, first := 0, last := 0 }
      | none => c) s.fio.ctr,
    inp := Vector.ofFn fun k : Fin 48 =>
      match s.fio.ctr[fidx 7 k.val].next with
      | some (m, _) => if k.val < 8 then (if m = 0 then { s.fio.inp[k] with cnt := 0 }
          else { s.fio.inp[k] with valid := !s.fio.input.entered && !s.fio.linkLost }) else s.fio.inp[k]
      | none => s.fio.inp[k] }

/-- The FIO block at a tick instant: counters, RELINK, standby (R434, R444, R445). -/
def State.fioTick (s : State) : State :=
  let s := s.counterTick
  let s := if bitAt (s.reg 0xA0004) 0 && s.fio.linkOff && !s.fio.linkLost && s.serving then s.setFio { s.fio with linkOff := false } else s
  s.standbyTick

/-- The refusal of a write to a register of the FIO block: shed configuration (R450), LINKOFF (R444); `w1c` the bits written 1. -/
def State.fioRefused (s : State) (a w1c : Nat) : Option (Status × Nat × Nat) :=
  if 0xA0120 ≤ a ∧ a ≤ 0xA0130 ∧ (s.fio.shedT.entered ∨ s.fio.shed ≠ 0 ∨ s.pwr.mainsShed ≠ 0) then some (.wrongState, 0xA2, 0)
  else if a = 0xA0000 ∧ bitAt w1c 3 ∧ s.fio.linkLost then some (.wrongState, 0xA1, 0)
  else none

/-- FIO_INCFGk written: a changed INV acts at once on the inputs whose level is known (R428, R429). -/
def State.invAct (s : State) : State :=
  s.setFio { s.fio with inp := Vector.ofFn fun k : Fin 48 =>
    let i := s.fio.inp[k]
    let img := i.level != s.inv k.val
    if i.valid && img != i.img then { i with img := img, chgPm := s.now } else i }

/-- FIO_STAT.LINKOFF cleared (R444). -/
def State.linkOffClear (s : State) : State := s.setFio { s.fio with linkOff := false }

end Sys2Proof.Machine
end

