-- ==== Sys2Proof/Machine/GroupTime.lean ====
section
/-! DEFINITION. Group time (R475-R482): the steering of the postmark, which the car link shares (R493), and its steps. -/
namespace Sys2Proof.Machine

/-- f and c of R477 in 2^-16 ppb, from f before, e in 1/u ns, the round T in ns, and S in ppb. -/
def steer (f e : Int) (u t s : Nat) : Int × Int :=
  let lim : Int := s * 65536
  let f' := clamp (-lim) lim (f + openDiv (e * 1000000000 * 65536) (4 * t * u))
  let c' := clamp (-lim) lim (f + openDiv (e * 1000000000 * 65536) (t * u))
  (f', c')

/-- The instants from which durations in progress are counted move with a step of the postmark, so that it makes no duration shorter
or longer; the lane's timers are postmark deadlines and do not (R358; notes/assumptions/100.md). -/
def State.shiftTimers (mv : Postmark → Postmark) (s : State) : State :=
  { s with
    lb := { s.lb with
      session := s.lb.session.map fun x => { x with lastDone := mv x.lastDone }, fails := s.lb.fails.map mv,
      challenges := s.lb.challenges.map (·.map fun c => { c with pm := mv c.pm }), lockEnd := s.lb.lockEnd.map mv,
      reasm := s.lb.reasm.map fun r => { r with last := mv r.last }, uartAt := mv s.lb.uartAt, inboxBusy := mv s.lb.inboxBusy }
    loop := { s.loop with
      slots := s.loop.slots.map fun q => { q with satAt := q.satAt.map fun x => (x.1, mv x.2) }, brakeAt := s.loop.brakeAt.map mv }
    sense := { s.sense with encOn := mv s.sense.encOn, ssiFrom := mv s.sense.ssiFrom, ssiStart := s.sense.ssiStart.map mv }
    door := { s.door with
      freezeAt := s.door.freezeAt.map mv, stallAt := s.door.stallAt.map mv, zeroAt := s.door.zeroAt.map mv,
      stepAt := s.door.stepAt.map mv, trans := s.door.trans.map fun x => (x.1, x.2.1, mv x.2.2) }
    lock := { s.lock with
      bridgeRun := s.lock.bridgeRun.map fun b => { b with start := mv b.start }, disAt := s.lock.disAt.map mv,
      stoTest := s.lock.stoTest.map fun x => (x.1, mv x.2), stoPass := s.lock.stoPass.map mv }
    lane := { s.lane with hand := s.lane.hand.map fun h => { h with pm := mv h.pm } }
    fio := { s.fio with
      inp := s.fio.inp.map fun i => { i with runPm := mv i.runPm, chgPm := mv i.chgPm }, sampleAt := mv s.fio.sampleAt,
      ctr := s.fio.ctr.map fun c => { c with gateAt := mv c.gateAt, first := mv c.first, last := mv c.last },
      toff := s.fio.toff.map mv, ton := s.fio.ton.map mv, shedNext := s.fio.shedNext.map fun x => (x.1, mv x.2),
      restAt := s.fio.restAt.map mv, frameAt := mv s.fio.frameAt, idleFrom := mv s.fio.idleFrom }
    can := s.can.map fun q => { q with boAt := mv q.boAt }
    link := { s.link with
      since := mv s.link.since, acceptedAt := mv s.link.acceptedAt, slowAt := s.link.slowAt.map mv,
      openedAt := s.link.openedAt.map mv }
    pwr := { s.pwr with
      entry := s.pwr.entry.map fun x => (x.1, x.2.1, mv x.2.2), lostAt := s.pwr.lostAt.map mv,
      restoreAt := s.pwr.restoreAt.map mv, releasedAt := mv s.pwr.releasedAt, laneFrom := mv s.pwr.laneFrom, seqAt := mv s.pwr.seqAt,
      enteredAt := mv s.pwr.enteredAt, idleFrom := s.pwr.idleFrom.map mv } }

/-- The postmark is stepped by `d` counts (R478): a backward step is counted for the order of events (R44), and what the
group holds as postmarks of the round moves with it. -/
def State.stepTime (d : Int) (s : State) : State :=
  let mv (p : Postmark) : Postmark := ((p : Int) + d).toNat
  let n := mv s.now
  let s := s.shiftTimers mv
  let g := s.group
  let g := { g with t0 := mv g.t0, strokeAt := g.strokeAt.map (·.map mv), reqs := g.reqs.map fun r => { r with endAt := mv r.endAt },
                    isoAt := g.isoAt.map mv,
                    join := g.join.map fun j => { j with since := mv j.since } }
  { s with now := n, ev := { s.ev with era := if d < 0 then s.ev.era + 1 else s.ev.era },
           sys := { s.sys with tickAt := n - n % s.tickLen }, group := g }

/-- TIME_STEPPED and LINK_TIME_STEPPED: the step in µs, signed, saturated (R478, R493); `e` in 1/u ns. -/
def stepDetail (e : Int) (u : Nat) : Nat := ucode 32 (satS 32 (openDiv e (1000 * u)))

/-- Group time replaced. -/
def State.setGt (t : GtSt) (s : State) : State := { s with group := { s.group with gt := t } }

/-- SLEWMAX of group time in ppb. -/
def State.slew (s : State) : Nat := 1000 * s.fld 0xB0204 16 9

/-- What a follower's group time does at the first valid stroke of a round (R477, R478): L, G, the bus and T in counts. -/
def State.groupSteer (l g : Nat) (busB : Bool) (t : Nat) (s : State) : State :=
  let q := s.group.gt
  let e2 : Int := 25 * ((g : Int) - l) + 2 * s.fld (canBase (b2n busB) + 0x18) 16 16
  let small := decide (-4000 ≤ e2 ∧ e2 ≤ 4000)
  let e := satS 32 (openDiv e2 2)
  let q := { q with e := e, busB := busB, missed := 0 }
  match q.state with
  | 2 =>
    let fc := steer q.f e2 2 (t * 25 / 2) s.slew
    let q := { q with f := fc.1, c := fc.2 }
    if small then s.setGt q else (s.setGt { q with state := 1 }).post 0x0B0B (ucode 32 e)
  | 3 => s.setGt { q with state := if small then 2 else 1 }
  | 1 =>
    if small then s.setGt { q with f := 0, state := 2 }
    else if !s.anyMoving then ((s.setGt { q with state := 2 }).stepTime (openDiv e2 25)).post 0x0B08 (stepDetail e2 2)
    else s.setGt { q with c := (if e2 < 0 then -1 else 1) * (s.slew * 65536 : Nat) }
  | _ => s.setGt q

end Sys2Proof.Machine
end

