-- ==== Sys2Proof/Machine/Sorting.lean ====
section
/-! DEFINITION. The postbag, the sorting office and the digest (R275-R294) as functions of the sealed data alone: every
station computes the same. -/
namespace Sys2Proof.Machine

/-! ### Policy and flight-time tables (R286, R287) -/

/-- The two dispatch tables in force; an absent table holds no car and no landing. -/
structure Tables where
  policy : Option (List Byte)
  flight : Option (List Byte)
deriving DecidableEq, Repr

/-- The bytes of the policy table in force. -/
def Tables.pol (t : Tables) : List Byte := t.policy.getD []
/-- The bytes of the flight-time table in force. -/
def Tables.fly (t : Tables) : List Byte := t.flight.getD []

/-- The landing count K. -/
def Tables.landings (t : Tables) : Nat := u16 t.fly 0

/-- The configuration tag (R289). -/
def Tables.tag (t : Tables) : Word := crc32c (t.pol ++ t.fly)

/-- The height of a landing in mm. -/
def Tables.height (t : Tables) (l : Nat) : Nat := if l < t.landings then u32 t.fly (16 + 4 * l) else Config.noHeight l

/-- Point `i` of curve `c`: distance and time. -/
def Tables.point (t : Tables) (c i : Nat) : Nat × Nat :=
  let o := 16 + 4 * t.landings + (c * u8 t.fly 3 + i) * 8
  (u32 t.fly o, u32 t.fly (o + 4))

/-- The first point of the segment that holds distance `x`: the last segment is extended. -/
def Tables.segment (t : Tables) (c x : Nat) : Nat :=
  match (List.range (u8 t.fly 3 - 2)).find? fun i => x < (t.point c (i + 1)).1 with
  | some i => i
  | none => u8 t.fly 3 - 2

/-- The flight time F(x) in ms on a curve (R287). -/
def Tables.flightTime (t : Tables) (c x : Nat) : Nat :=
  if c < u8 t.fly 2 then
    let a := t.point c (t.segment c x)
    let b := t.point c (t.segment c x + 1)
    a.2 + ((b.2 - a.2) * (x - a.1)) / (b.1 - a.1)
  else Config.noCurve c x

/-- The offset of a car's block in the policy table. -/
def carBlock (c : Nat) : Nat := 32 + 32 * (c - 1)

/-- A landing is served by a car. -/
def Tables.serves (t : Tables) (c l : Nat) : Bool := bitAt (u8 t.pol (carBlock c + 8 + l / 8)) (l % 8)

/-! ### Entries, stops and routes (R284, R291) -/

/-- Bytes 0-23 of an entry (R284). -/
def PEntry.bytes (e : PEntry) : List Byte :=
  bytesLE 2 (e.st % 8 + 8 * b2n e.pub + 16 * b2n e.ret) ++ bytesLE 2 e.panel ++ bytesLE 2 e.seq ++ bytesLE 1 e.org ++
    bytesLE 1 e.dst ++ bytesLE 1 e.kind ++ bytesLE 1 e.party ++ bytesLE 1 e.car ++ bytesLE 1 0 ++ bytesLE 4 e.admitK ++
    bytesLE 4 e.assign ++ bytesLE 4 e.cost

/-- An entry read from bytes 0-23. -/
def PEntry.ofBytes (b : List Byte) : PEntry :=
  { st := u16 b 0 % 8, pub := bitAt (u16 b 0) 3, ret := bitAt (u16 b 0) 4, panel := u16 b 2, seq := u16 b 4, org := u8 b 6,
    dst := u8 b 7, kind := u8 b 8, party := u8 b 9, car := u8 b 10, admitK := u32 b 12, assign := u32 b 16, cost := u32 b 20,
    sender := 0 }

/-- Whether the entry is a hall call (R277). -/
def PEntry.hall (e : PEntry) : Bool := decide (0xFE ≤ e.dst)

/-- The direction of travel: true up. -/
def PEntry.up (e : PEntry) : Bool := e.dst = 0xFE || (!e.hall && decide (e.org < e.dst))

/-- A stop of a route: landing, direction, and whether an entry at it has kind 1. -/
structure Stop where
  land : Nat
  up : Bool
  long : Bool
deriving DecidableEq, Repr

/-- The stops that an entry of the car gives: an ASSIGNED entry its origin, a BOARDED entry its destination (R291). -/
def PEntry.stop (e : PEntry) : Option Stop :=
  if e.st = 2 then some ⟨e.org, e.up, e.kind = 1⟩
  else if e.st = 3 then some ⟨e.dst, e.up, e.kind = 1⟩
  else none

/-- The stops that a request under evaluation adds. -/
def PEntry.newStops (e : PEntry) : List Stop :=
  ⟨e.org, e.up, e.kind = 1⟩ :: (if e.hall then [] else [⟨e.dst, e.up, e.kind = 1⟩])

/-- A stop joins a list of stops in rising order of landing; equal stops are one. -/
def insStop (x : Stop) : List Stop → List Stop
  | [] => [x]
  | y :: l =>
    if x.land < y.land then x :: y :: l
    else if x.land = y.land then { y with long := y.long || x.long } :: l
    else y :: insStop x l

/-- The stops of one direction in rising order. -/
def stopsOf (up : Bool) (l : List Stop) : List Stop := (l.filter (·.up = up)).foldl (fun a x => insStop x a) []

/-- The direction of a car without one (R291): toward the nearest stop, up when two are equally near. -/
def nearestUp (f : Nat) (l : List Stop) : Bool :=
  let far (x : Stop) : Nat := max x.land f - min x.land f
  let least := l.foldl (fun m x => min m (far x)) 0x10000
  l.any fun x => far x = least && decide (f ≤ x.land)

/-- The route: each stop with its part, 1, 2 or 3 (R291). `dir` is 0 none, 1 up, 2 down. -/
def route (f dir : Nat) (stops : List Stop) : List (Nat × Stop) :=
  let ups := stopsOf true stops
  let downs := (stopsOf false stops).reverse
  let up := if dir = 1 then true else if dir = 2 then false else nearestUp f stops
  if up then
    (ups.filter (f ≤ ·.land)).map (1, ·) ++ downs.map (2, ·) ++ (ups.filter (·.land < f)).map (3, ·)
  else
    (downs.filter (·.land ≤ f)).map (1, ·) ++ ups.map (2, ·) ++ (downs.filter (f < ·.land)).map (3, ·)

/-- A stop of a route with its part and its ETA in ms. -/
structure Eta where
  part : Nat
  stop : Stop
  eta : Nat
deriving DecidableEq, Repr

/-- The ETAs along a route (R291), from time `t` at landing `prev`. -/
def etas (tb : Tables) (curve dwell : Nat) : Nat → Nat → List (Nat × Stop) → List Eta
  | _, _, [] => []
  | t, prev, (p, x) :: l =>
    let d := max (tb.height x.land) (tb.height prev) - min (tb.height x.land) (tb.height prev)
    let eta := t + tb.flightTime curve d
    { part := p, stop := x, eta := eta } :: etas tb curve dwell (eta + (if x.long then 2 * dwell else dwell)) x.land l

/-- The ETAs of a car from its latest valid slot, for a list of stops. -/
def carEtas (tb : Tables) (c : Nat) (m : SlotMsg) (stops : List Stop) : List Eta :=
  let dwell := u16 tb.pol 8
  etas tb (u8 tb.pol (carBlock c + 1)) dwell (if m.state = 2 ∨ m.state = 3 then dwell else 0) m.landing
    (route m.landing m.dir stops)

/-- The ETA of a stop in a route, 0 if it is not in it. -/
def etaAt (l : List Eta) (x : Stop) : Nat :=
  match l.find? fun e => e.stop.land = x.land && e.stop.up = x.up with
  | some e => e.eta
  | none => 0

/-- The entries of a car. -/
def carEntries (bag : List (Nat × PEntry)) (c : Nat) : List PEntry :=
  (bag.map (·.2)).filter fun e => e.car = c && decide (2 ≤ e.st)

/-- E_p of R292. -/
def expected (tb : Tables) (c : Nat) (m : SlotMsg) (mine : List PEntry) : Nat :=
  ceilDiv (m.load * u8 tb.pol (carBlock c)) 100 + ((mine.filter (·.st = 2)).map (·.party)).foldl (· + ·) 0

/-- T of R292: the ride time; where the route comes to the destination before the origin, the unsigned difference is open. -/
def rideTime (dst org : Nat) : Nat := if org ≤ dst then dst - org else Config.rideBefore dst org

/-- The cost of request `r` for candidate `c` (R292). -/
def cost (tb : Tables) (bag : List (Nat × PEntry)) (c : Nat) (m : SlotMsg) (r : PEntry) : Nat :=
  let mine := carEntries bag c
  let old := mine.filterMap PEntry.stop
  let e0 := carEtas tb c m old
  let e1 := carEtas tb c m (old ++ r.newStops)
  let w := etaAt e1 ⟨r.org, r.up, false⟩
  let t := if r.hall then 0 else rideTime (etaAt e1 ⟨r.dst, r.up, false⟩) w
  let x := (old.map fun y => etaAt e1 y - etaAt e0 y).foldl (· + ·) 0
  let n := (r.newStops.filter fun y => !old.any fun z => z.land = y.land && z.up = y.up).length
  let v := match e1.find? fun e => e.stop.land = r.org && e.stop.up = r.up with
    | some e => b2n (decide (2 ≤ e.part))
    | none => 0
  let cap := u8 tb.pol (carBlock c)
  let overBy := b2n (decide (cap * u8 tb.pol 22 / 100 < expected tb c m mine + r.party))
  let ww := if r.kind = 2 then 2 * u16 tb.pol 0 else u16 tb.pol 0
  min 0xFFFFFFFF ((ww * w + u16 tb.pol 2 * t + u16 tb.pol 4 * x + u16 tb.pol 6 * n * u16 tb.pol 10) / 256 +
    overBy * u32 tb.pol 12 + v * u32 tb.pol 16)

/-! ### Masks of cars -/

/-- The cars of a mask in ascending order: bit c − 1 for car c. -/
def carsOf (p : BitVec 64) : List Nat := ((List.range 63).filter fun i => p.getLsbD i).map (· + 1)

/-- The mask of a list of cars. -/
def carMask (l : List Nat) : BitVec 64 := maskOf 64 fun i => l.contains (i + 1)

/-- The slot of a car among those of a round. -/
def slotOf (l : List (Nat × SlotMsg)) (c : Nat) : Option SlotMsg := (l.find? (·.1 = c)).map (·.2)

/-! ### Candidates and the sorting office (R290-R293) -/

/-- Whether car `c` is a candidate for request `r` (R290). -/
def candidate (tb : Tables) (i : SealIn) (r : PEntry) (c : Nat) : Bool :=
  match slotOf i.slots c with
  | none => false
  | some m =>
    m.inService && !m.leaving && decide (m.landing < tb.landings) && decide (0 < u8 tb.pol (carBlock c)) &&
      bitAt (u8 tb.pol (carBlock c + 2)) 0 && tb.serves c r.org && (r.hall || tb.serves c r.dst)

/-- The candidates for a request, in ascending order. -/
def candidates (tb : Tables) (i : SealIn) (r : PEntry) : List Nat := (carsOf i.p).filter (candidate tb i r)

/-- The better of two candidates: lower cost, then fewer entries, then the lower number (R293); `a` is the lower number. -/
def better (a b : Nat × Nat × Nat) : Nat × Nat × Nat :=
  if b.1 < a.1 ∨ (b.1 = a.1 ∧ b.2.1 < a.2.1) then b else a

/-- The candidate that takes a request, with the cost. -/
def choose (tb : Tables) (i : SealIn) (bag : List (Nat × PEntry)) (r : PEntry) : Option (Nat × Nat) :=
  let l := (candidates tb i r).filterMap fun c =>
    (slotOf i.slots c).map fun m => (cost tb bag c m r, (carEntries bag c).length, c)
  match l with
  | [] => none
  | x :: l =>
    let b := l.foldl better x
    some (b.2.2, b.1)

/-- An entry of the postbag. -/
def bagEntry (bag : List (Nat × PEntry)) (k : Nat) : Option PEntry := (bag.find? (·.1 = k)).map (·.2)

/-- An entry replaced. -/
def bagSet (k : Nat) (e : PEntry) (bag : List (Nat × PEntry)) : List (Nat × PEntry) :=
  bag.map fun x => if x.1 = k then (k, e) else x

/-- The sorting office over one entry of the list: a NEW entry is assigned (R293). -/
def sortOne (tb : Tables) (i : SealIn) (k : Nat) (bag : List (Nat × PEntry)) : List (Nat × PEntry) :=
  match bagEntry bag k with
  | none => bag
  | some e =>
    if e.st ≠ 1 then bag
    else match choose tb i bag e with
      | none => bag
      | some (c, w) => bagSet k { e with st := 2, pub := false, ret := false, car := c, assign := i.round, cost := w } bag

/-! ### The seal (R280-R283) -/

/-- A slot was void: its publisher's slot is missing or does not carry the reference digest (R276). -/
def voidSlot (slots : List (Nat × SlotMsg)) (ref : Option Word) (c : Nat) : Bool :=
  match slotOf slots c, ref with
  | some m, some d => m.digest ≠ d
  | _, _ => true

/-- PUBLISHED of the entries of the last list that were validly published (R276). -/
def publish (i : SealIn) (g : GroupCore) : List (Nat × PEntry) :=
  let pubs := carsOf i.pPrev
  let ok := (List.range g.list.length).filterMap fun p =>
    match pubs[p / 9]?, g.list[p]? with
    | some c, some k => if voidSlot i.slots i.ref c then none else some k
    | _, _ => none
  g.bag.map fun x => if ok.contains x.1 && x.2.st = 2 then (x.1, { x.2 with pub := true }) else x

/-- Serving (R281): what a car with doors open at a landing does to one entry. -/
def serveEntry (c : Nat) (m : SlotMsg) (e : PEntry) : Option PEntry :=
  let dirOk := m.dir = 0 || (m.dir = 1 && e.up) || (m.dir = 2 && !e.up)
  if m.state ≠ 2 ∨ e.car ≠ c then some e
  else if e.st = 2 ∧ e.org = m.landing ∧ dirOk then (if e.hall then none else some { e with st := 3 })
  else if e.st = 3 ∧ e.dst = m.landing then none
  else some e

/-- Serving over the postbag. -/
def serveBag (i : SealIn) (bag : List (Nat × PEntry)) : List (Nat × PEntry) :=
  i.slots.foldl (fun b cm => b.filterMap fun x => (serveEntry cm.1 cm.2 x.2).map (x.1, ·)) bag

/-- The absence counts after round k − 1, saturating at 15 (R285). -/
def absences (i : SealIn) (a : Vector Nat 63) : Vector Nat 63 :=
  Vector.ofFn fun j => if (slotOf i.slots (j.val + 1)).isSome then 0 else satAdd 15 a[j] 1

/-- Returns (R280, step 3), one entry. -/
def returnEntry (limit : Nat) (i : SealIn) (a : Vector Nat 63) (e : PEntry) : Option PEntry :=
  let gone := decide (limit ≤ a.toList.getD (e.car - 1) 0)
  let out : Bool := match slotOf i.slots e.car with
    | some m => !m.inService || m.leaving
    | none => false
  if e.st = 2 ∧ (gone || out) then some { e with st := 1, pub := false, ret := true, car := 0 }
  else if e.st = 3 ∧ gone then none
  else some e

/-- The identity of a collected frame: panel and sequence. -/
def ReqRec.ident (r : ReqRec) : Nat × Nat := (r.panel, r.data / 2 ^ 32 % 4096)

/-- The identity of an entry. -/
def PEntry.ident (e : PEntry) : Nat × Nat := (e.panel, e.seq)

/-- The fields of a request frame break R277 or R278 (R283, check 1), landing count `k`. -/
def fieldsBad (k data : Nat) : Bool :=
  let o := data % 256
  let d := data / 256 % 256
  decide (k ≤ o) || d = o || (decide (k ≤ d) && d ≠ 0xFE && d ≠ 0xFF) || (d = 0xFE && o + 1 = k) || (d = 0xFF && o = 0) ||
    decide (2 < data / 2 ^ 16 % 256) || data / 2 ^ 28 % 16 ≠ 0 || data / 2 ^ 44 % 16 ≠ 0

/-- The entry that a request frame makes. -/
def ReqRec.entry (k : Nat) (r : ReqRec) : PEntry :=
  let party := r.data / 2 ^ 24 % 16
  { st := 1, pub := false, ret := false, panel := r.panel, seq := r.ident.2, org := r.data % 256, dst := r.data / 256 % 256,
    kind := r.data / 2 ^ 16 % 256, party := if party = 0 then 1 else party, car := 0, admitK := k, assign := 0, cost := 0,
    sender := r.sender }

/-- One frame per identity: of differing data the lower is kept (R282). -/
def dedupe : List ReqRec → List ReqRec
  | [] => []
  | r :: l =>
    let rest := dedupe l
    if rest.any fun x => x.ident = r.ident && decide (x.data < r.data) then rest
    else r :: rest.filter fun x => x.ident ≠ r.ident

/-- The admission key of round `k` (R282), one number. -/
def reqKey (k : Nat) (id : Nat × Nat) : Nat := ((id.1 + 1237 * k) % 4096) * 4096 + id.2

/-- A request joins a list in rising order of the key. -/
def insReq (k : Nat) (r : ReqRec) : List ReqRec → List ReqRec
  | [] => [r]
  | x :: l => if reqKey k r.ident < reqKey k x.ident then r :: x :: l else x :: insReq k r l

/-- The lowest free postbag index. -/
def freeIndex (bag : List (Nat × PEntry)) : Option Nat := (List.range 1024).find? fun k => !bag.any (·.1 = k)

/-- An entry put at a free index, in its place. -/
def bagPut (k : Nat) (e : PEntry) : List (Nat × PEntry) → List (Nat × PEntry)
  | [] => [(k, e)]
  | x :: l => if k < x.1 then (k, e) :: x :: l else x :: bagPut k e l

/-- What the admission has made so far: the postbag, the list, the identities refused. -/
structure Admit where
  bag : List (Nat × PEntry)
  list : List Nat
  refused : List (Nat × Nat)
  admitted : Nat
deriving DecidableEq, Repr

/-- One request is admitted or refused, in the order of checks of R283. -/
def admitOne (tb : Tables) (i : SealIn) (a : Admit) (r : ReqRec) : Admit :=
  let e := r.entry i.round
  let no : Admit := { a with refused := a.refused ++ [r.ident] }
  if fieldsBad tb.landings r.data then no
  else if (candidates tb i e).isEmpty then no
  else match freeIndex a.bag with
    | none => no
    | some k =>
      if u16 tb.pol 20 ≤ (a.bag.filter fun x => x.2.org = e.org).length then no
      else if 9 * (carsOf i.p).length ≤ a.list.length then no
      else { a with bag := bagPut k e a.bag, list := a.list ++ [k], admitted := a.admitted + 1 }

/-- What a seal gives. -/
structure SealOut where
  core : GroupCore
  refused : List (Nat × Nat)
  admitted : Nat
  digest : Word
deriving DecidableEq, Repr

/-- The digest of a round (R294). -/
def digestOf (k : Nat) (tag : Word) (bag : List (Nat × PEntry)) (refused : List (Nat × Nat)) : Word :=
  crc32c (bytesLE 4 k ++ bytesLE 4 tag.toNat ++ bag.flatMap (fun x => bytesLE 2 x.1 ++ x.2.bytes) ++
    refused.flatMap fun x => bytesLE 2 x.1 ++ bytesLE 2 x.2)

/-- Steps 2-6 of the seal (R280): a function of the tables, ABSENT, what was collected, and the state at the last seal. -/
def sealCore (tb : Tables) (limit : Nat) (i : SealIn) (g : GroupCore) : SealOut :=
  let bag := serveBag i (publish i g)
  let abs := absences i g.absent
  let bag := bag.filterMap fun x => (returnEntry limit i abs x.2).map (x.1, ·)
  let cancels := i.reqs.filter (·.cancel)
  let asks := i.reqs.filter fun r => !r.cancel
  let both (id : Nat × Nat) : Bool := cancels.any (·.ident = id) && asks.any (·.ident = id)
  let bag := bag.filter fun x => !((x.2.st = 1 || x.2.st = 2) && !both x.2.ident && cancels.any (·.ident = x.2.ident))
  let fresh := (dedupe asks).filter fun r => !both r.ident && !bag.any fun x => x.2.ident = r.ident
  let fresh := fresh.foldl (fun l r => insReq i.round r l) []
  let lost := bag.filter fun x => x.2.st = 1 && x.2.ret && (candidates tb i x.2).isEmpty
  let bag := bag.filter fun x => !lost.any (·.1 = x.1)
  let cap := 9 * (carsOf i.p).length
  let again := (bag.filter fun x => x.2.st = 2 && !x.2.pub).map (·.1)
  let back := (bag.filter fun x => x.2.st = 1 && x.2.ret).map (·.1)
  let a := fresh.foldl (admitOne tb i)
    { bag := bag, list := (again ++ back).take cap, refused := lost.map fun x => x.2.ident, admitted := 0 }
  let bag := a.list.foldl (fun b k => sortOne tb i k b) a.bag
  { core := { bag := bag, absent := abs, list := a.list }, refused := a.refused, admitted := a.admitted,
    digest := digestOf i.round tb.tag bag a.refused }

/-! ### The reference digest (R295) -/

/-- The cars whose slots with MUTE = 0 carry a digest. -/
def votes (slots : List (Nat × SlotMsg)) (d : Word) : List Nat :=
  (slots.filter fun x => !x.2.mute && x.2.digest = d).map (·.1)

/-- The lowest car of a list. -/
def lowestCar (l : List Nat) : Nat := l.foldl min 64

/-- The reference digest: the one carried most often, then the one that the lowest-numbered car carries. -/
def refDigest (slots : List (Nat × SlotMsg)) : Option Word :=
  slots.foldl (fun o x =>
    if x.2.mute then o
    else match o with
      | none => some x.2.digest
      | some d =>
        let n := (votes slots x.2.digest)
        let m := (votes slots d)
        if m.length < n.length ∨ (m.length = n.length ∧ lowestCar n < lowestCar m) then some x.2.digest else o) none

/-- The list of the latest seal `k`, from the postbag after it: what was assigned before and is unpublished, then what was
returned, then what was admitted, in admission order (R282). -/
def listOf (k : Nat) (p : BitVec 64) (bag : List (Nat × PEntry)) : List Nat :=
  let open2 := bag.filter fun x => x.2.st = 2 && !x.2.pub
  let again := (open2.filter fun x => x.2.assign ≠ k).map (·.1)
  let back := (open2.filter fun x => x.2.assign = k && x.2.admitK ≠ k).map (·.1)
  let ins := (open2.filter fun x => x.2.assign = k && x.2.admitK = k).foldl
    (fun l x => (l.takeWhile fun y => reqKey k y.2.ident < reqKey k x.2.ident) ++ [x] ++
      (l.dropWhile fun y => reqKey k y.2.ident < reqKey k x.2.ident)) []
  (again ++ back ++ ins.map (·.1)).take (9 * (carsOf p).length)

end Sys2Proof.Machine
end

