-- ==== Sys2Proof/Machine/Group.lean ====
section
/-! DEFINITION. The GROUP block (R263-R310): rounds, the seal, slots, resynchronisation, joining and leaving, the two buses. -/
namespace Sys2Proof.Machine

/-! ### Configuration and small operations -/

/-- The GROUP block replaced. -/
def State.setGroup (g : GroupSt) (s : State) : State := { s with group := g }

/-- T_round in counts (R265). -/
def State.roundLen (s : State) : Nat := s.fld 0x60004 0 11 * s.tickLen
/-- SLOTS. -/
def State.slots (s : State) : Nat := s.fld 0x60004 16 6
/-- T_bell in counts. -/
def State.bellLen (s : State) : Nat := s.fld 0x60008 0 7 * 800
/-- T_slot in counts. -/
def State.slotLen (s : State) : Nat := s.fld 0x60008 8 7 * 800

/-- The dispatch tables in force. -/
def GroupSt.tables (g : GroupSt) : Tables := { policy := g.policy, flight := g.flight }

/-- The round after `k`: 0 is not used (R268). -/
def nextRound (k : Nat) : Nat := if 0xFFFFFFFF ≤ k then 1 else k + 1

/-- The rounds from `k` to `m`: 0xFFFF_FFFF is followed by 1 (R268). -/
def roundsFrom (k m : Nat) : Nat := (m + 0xFFFFFFFF - k) % 0xFFFFFFFF

/-- The round `m` rounds after `k`. -/
def roundAfter : Nat → Nat → Nat
  | k, 0 => k
  | k, m + 1 => roundAfter (nextRound k) m

/-- A group bus as a controller number. -/
def busCtrl (b : Fin 2) : Fin 3 := ⟨b.val, by omega⟩

/-- A bus is joined and delivers frames. -/
def State.busJoined (s : State) (b : Fin 2) : Bool := s.group.mask.getLsbD b.val && s.canActive (busCtrl b)

/-- A bus on which the station sends: joined and not lost (R304). -/
def State.busSends (s : State) (b : Fin 2) : Bool := s.busJoined b && !s.group.lost.getLsbD b.val

/-- The block index event code of the lowest bus of the mask (R481). -/
def State.lowBusEvent (s : State) (k : Nat) : Nat := canEvent (if s.group.mask.getLsbD 0 then 0 else 1) k

/-- Membership ends, or never began (state 0): the tables, the counters and the values shown last stay. -/
def GroupSt.left (g : GroupSt) : GroupSt :=
  { GroupSt.init with
    policy := g.policy, flight := g.flight, policyNext := g.policyNext, flightNext := g.flightNext, discard := g.discard,
    txDrop := g.txDrop, slotLate := g.slotLate, busDiff := g.busDiff, refused := g.refused, ownCar := g.ownCar,
    tag := g.tag, round := g.round, digest := g.digest, refDig := g.refDig, cur := g.cur,
    gt := { state := 0, busB := g.gt.busB, missed := 0, e := g.gt.e, c := 0, f := g.gt.f } }

/-- The station stops sending and is in state 0; a join or a leave in progress ends as stated. -/
def State.leaveGroup (st : Status) (detail further : Nat) (s : State) : State :=
  let s := s.setGroup s.group.left
  (s.complete .groupJoin st detail further).complete .groupLeave .done 0 0

/-- CAR_NUMBER_TWIN is posted and the station stops sending (R302). -/
def State.numberTwin (s : State) : State :=
  let c := s.group.car
  (s.post 0x0603 c).leaveGroup .failed 0x60 c

/-! ### Mute and resynchronisation (R296-R299) -/

/-- A resync request: a new source and an empty snapshot. -/
def newResync (p : BitVec 64) (car attempt since : Nat) : ResyncSt :=
  { source := ((carsOf p).filter (· ≠ car)).headD 0, attempt := if attempt < 255 then attempt + 1 else 1, since := since,
    snap := none, frames := [], core := none, caught := false, left := 0 }

/-- The station goes mute and resynchronises, from the lowest car of `p`. -/
def GroupSt.goMute (p : BitVec 64) (g : GroupSt) : GroupSt :=
  if g.state = 3 ∨ g.state = 4 ∨ g.state = 6 then
    { g with mute := true, state := if g.state = 4 then 3 else g.state, resyncReq := [], resyncOut := [],
             resync := some (newResync p g.car (match g.resync with | some r => r.attempt | none => 0) g.cur) }
  else g

/-- A word of the pigeonholes or of the postbag (R36). -/
def groupWord (w : Nat) : Bool := decide (0x10050000 ≤ w ∧ w < 0x10078000 ∧ (w < 0x1006F800 ∨ 0x10070000 ≤ w))

/-- A word of the pigeonholes or the postbag found uncorrectable: the station goes mute and resynchronises (R38, R296). -/
def State.groupWordBad (w : Nat) (s : State) : State :=
  if groupWord w then { s with group := s.group.goMute (if s.group.refDone then s.group.pNext else s.group.p) } else s

/-- A seal reads the pigeonholes and the postbag through the symbol code, and rewrites them: whether a word was uncorrectable
(R37, R38; notes/assumptions/90.md). -/
def State.groupRead (s : State) : Bool × State :=
  let h := s.mem.hard.filter groupWord
  let s := (s.mem.soft.filter groupWord).foldl (fun s w => s.eccCorrect w) s
  (!h.isEmpty, (h.foldl (fun s w => s.eccFound w) s).eccClear 0x10050000 0x28000)

/-- The snapshot frames of R298 for the state at the end of seal `k`. -/
def snapshotFrames (k : Nat) (tag : Word) (p : BitVec 64) (core : GroupCore) : List (List Byte) :=
  let n := core.bag.length
  let nib (i : Nat) : Nat := core.absent.toList.getD i 0
  let head := bytesLE 4 k ++ bytesLE 2 n ++ bytesLE 2 0 ++ bytesLE 4 tag.toNat ++
    ((List.range 32).map fun i => BitVec.ofNat 8 (nib (2 * i) + 16 * nib (2 * i + 1))) ++ bytesLE 8 p.toNat ++ bytesLE 12 0
  let entry (i : Nat) : List Byte := match core.bag[i]? with | some x => x.2.bytes | none => bytesLE 24 0
  let index (i : Nat) : Nat := match core.bag[i]? with | some x => x.1 | none => 0xFFFF
  head :: (List.range (ceilDiv n 2)).map fun i =>
    bytesLE 4 k ++ bytesLE 2 0 ++ bytesLE 2 (i + 1) ++ bytesLE 2 (index (2 * i)) ++ bytesLE 2 (index (2 * i + 1)) ++
      bytesLE 4 0 ++ entry (2 * i) ++ entry (2 * i + 1)

/-- The state that a complete snapshot carries. -/
def snapshotCore (frames : List (Nat × List Byte)) : Nat × GroupCore :=
  let h := match frames.head? with | some x => x.2 | none => []
  let k := u32 h 0
  let bag := (frames.drop 1).flatMap fun x =>
    let b := x.2
    (u16 b 8, PEntry.ofBytes (slice b 16 24)) ::
      (if u16 b 10 = 0xFFFF then [] else [(u16 b 10, PEntry.ofBytes (slice b 40 24))])
  let absent := Vector.ofFn fun (j : Fin 63) => u8 h (12 + j.val / 2) / (if j.val % 2 = 0 then 1 else 16) % 16
  (k, { bag := bag, absent := absent, list := listOf k (BitVec.ofNat 64 (u64 h 44)) bag })

/-! ### The end of the slots (R295, R296) -/

/-- The valid slots of the round in progress. -/
def GroupSt.slotList (g : GroupSt) : List (Nat × SlotMsg) := g.slots.map fun x => (x.1, x.2.1)

/-- The reference digest, P of the next round and the masks, at the end of the last slot. -/
def GroupSt.fixDigest (g : GroupSt) : GroupSt :=
  let l := g.slotList
  let ref := refDigest l
  let next := match ref with
    | some d => carMask (votes l d)
    | none => 0
  { g with ref := ref, refDone := true, refDig := ref.getD g.refDig, pNext := next, present := carMask (l.map (·.1)),
           muteMask := carMask ((l.filter (·.2.mute)).map (·.1)), void := carMask ((carsOf g.p).filter (voidSlot l ref)) }

/-- The mute states that follow from the reference digest (R295, R296, R299). -/
def State.followDigest (s : State) : State :=
  let g := s.group
  match g.ref, g.resync with
  | some d, none =>
    if !g.mute ∧ g.digest ≠ d then (s.setGroup (g.goMute g.pNext)).post 0x0601 g.round else s
  | o, some r =>
    let same := o = some g.digest
    let late := decide (64 ≤ roundsFrom r.since g.cur)
    if r.caught ∧ same then
      let t := (s.setGroup { g with mute := false, resync := none }).post 0x0602 g.round
      if g.state = 3 then (t.setGroup { t.group with state := 4, join := none }).complete .groupJoin .done 0 0 else t
    else if (r.caught && o.isSome) || late || !(carsOf g.pNext).contains r.source then
      s.setGroup { g with resync := some (newResync g.pNext g.car r.attempt g.cur) }
    else s.setGroup { g with resync := some { r with left := 8 } }
  | none, none => s

/-- The slot with LEAVING = 1 has been sent (R303). -/
def GroupSt.lastSent (g : GroupSt) : Bool := match g.ownSlot with
  | some m => m.leaving
  | none => false

/-- The end of the last slot: reference digest, mute states, the resync frames of this open window leave, a leaving station
is out (R295, R297, R303). -/
def State.closeSlots (s : State) : State :=
  let s := s.setGroup s.group.fixDigest
  let s := if s.group.state = 3 ∨ s.group.state = 4 ∨ s.group.state = 6 then s.followDigest else s
  let s := s.setGroup { s.group with resyncOut := s.group.resyncOut.drop (s.fld 0x60008 16 7) }
  let g := s.group
  if g.state = 6 ∧ g.lastSent then
    let pm := g.t0 + s.bellLen + g.car * s.slotLen
    ((s.setGroup g.left).completeAt pm .groupLeave .done 0 0).completeAt pm .groupJoin .aborted 0 0
  else s

/-- REFERENCE_DIGEST: at the end of the last slot, the reference digest and P are fixed, and mute states follow. -/
def execReferenceDigest (dt : Nat) (s : State) : Host.Outcome State Fault Refusal :=
  let s := s.advance dt
  if s.inReset then .next s else
  let g := s.group
  if g.state = 0 ∨ g.state = 5 ∨ g.refDone ∨ g.cur = 0 ∨ s.now < g.t0 + s.bellLen + s.slots * s.slotLen then .next s
  else .next s.closeSlots

/-! ### The seal (R280) -/

/-- A staged table comes into force at the seal of round `k` (R289). -/
def activates (o k : Nat) (t : Option (List Byte)) : Option (List Byte) :=
  match t with
  | some b => if u32 b o ≤ k then some b else none
  | none => none

/-- Step 1: the staged tables; GROUP_TABLES is posted for each that comes into force (R289). -/
def State.sealTables (k : Nat) (s : State) : State :=
  let g := s.group
  let p := activates 24 k g.policyNext
  let f := activates 4 k g.flightNext
  let g := { g with policy := if p.isSome then p else g.policy, policyNext := if p.isSome then none else g.policyNext,
                    flight := if f.isSome then f else g.flight, flightNext := if f.isSome then none else g.flightNext }
  let g := { g with tag := g.tables.tag }
  let s := s.setGroup g
  let s := if p.isSome then s.post 0x0609 g.tag.toNat else s
  if f.isSome then s.post 0x0609 g.tag.toNat else s

/-- A frame is collected for the stroke with these starts of frame on buses A and B (R280). -/
def collected (a b : Option Postmark) (r : ReqRec) : Bool :=
  match if r.busB then b else a with
  | some t => decide (r.endAt < t)
  | none => false

/-- The pigeonholes at a seal (R285): `last` are the valid slots of the round `prev`, the latest that the station took part in. -/
def sealHoles (i : SealIn) (last : List (Nat × SlotMsg)) (abs : Vector Nat 63) (prev : Nat) (h : Vector Hole 63) : Vector Hole 63 :=
  Vector.ofFn fun j =>
    let x := match slotOf last (j.val + 1) with
      | some m => { h[j] with slot := some m, slotRound := prev }
      | none => h[j]
    { x with absent := abs[j], present := (slotOf i.slots (j.val + 1)).isSome }

/-- A seal gives the own car a new ASSIGNED entry, or returns one of its entries (R280, R514). -/
def GroupSt.ownChange (old : List (Nat × PEntry)) (g : GroupSt) : Bool :=
  let mine (l : List (Nat × PEntry)) := l.filter fun x => x.2.st = 2 && x.2.car = g.car
  ((mine g.core.bag).any fun x => !(mine old).any fun y => y.1 = x.1 && y.2.assign = x.2.assign) ||
    (mine old).any fun y => (bagEntry g.core.bag y.1).any fun e => e.st = 1 || e.car ≠ g.car

/-- The postbag is sealed for round `k`; `a` and `b` are the starts of frame of stroke k on the buses, `old` the round in
progress before, `first` whether the station seals for the first time (R280). -/
def State.seal (k old : Nat) (a b : Option Postmark) (first : Bool) (s : State) : State :=
  let e := (s.sealTables k).groupRead
  let s := e.2
  let g := s.group
  let joined := nextRound old = k
  let i : SealIn :=
    { round := k, slots := if joined then g.slotList else [], pPrev := g.p, p := if joined then g.pNext else 0,
      ref := if joined then g.ref else none, reqs := g.reqs.filter (collected a b) }
  let out := sealCore g.tables (s.fld 0x60004 24 4) i g.core
  let n := out.refused.length
  let gap := !first && nextRound g.round ≠ k
  let g := { g with
    round := k, core := out.core, digest := out.digest, admitted := out.admitted, refusedSeal := n,
    refused := satAdd 0xFFFFFFFF g.refused n, holes := sealHoles i g.slotList out.core.absent old g.holes,
    reqs := g.reqs.filter fun r => !collected a b r, p := i.p, log := (i :: g.log).take 64, slotLoaded := false,
    ownSlot := none }
  let g := if g.mute || g.resyncReq.isEmpty then g else
    { g with resyncReq := [],
             resyncOut := g.resyncOut ++ g.resyncReq.flatMap fun c => (snapshotFrames k g.tag g.p g.core).map (c, ·) }
  let g := if gap || e.1 then g.goMute g.p else g
  let s := (s.setGroup g).noteIf (g.ownChange e.2.group.core.bag) 12
  if n ≠ 0 then s.post 0x0604 n else s

/-! ### Bell strokes (R268-R270, R301, R305) -/

/-- Bytes 4-8 of a stroke match the station's configuration (R269). -/
def State.strokeMatches (x : StrokeIn) (s : State) : Bool :=
  x.tRound = s.roundLen / 800 && x.tBell = s.fld 0x60008 0 7 && x.tSlot = s.fld 0x60008 8 7 && x.slots = s.slots

/-- The start-of-frame postmarks of a stroke on the joined buses A and B. -/
def State.strokeStarts (x : StrokeIn) (s : State) : Option Postmark × Option Postmark :=
  let at1 (b : Bool) : Option Postmark :=
    let f : Fin 2 := if b then 1 else 0
    if !s.busJoined f then none
    else if x.busB = b then some (s.now - x.age)
    else x.other.map (s.now - ·)
  (at1 false, at1 true)

/-- The earlier of two starts. -/
def firstStart (x : StrokeIn) (a b : Option Postmark) : Option (Bool × Postmark) :=
  match (if x.busB then b else a), a, b with
  | some t, _, _ => some (x.busB, t)
  | none, some t, _ => some (false, t)
  | none, none, some t => some (true, t)
  | none, none, none => none

/-- A start of frame lies far enough after the previous valid stroke (R269). -/
def State.spacingOk (t : Postmark) (s : State) : Bool :=
  let ok (o : Option Postmark) : Bool := match o with
    | some p => decide (p + s.roundLen ≤ t + 40000)
    | none => true
  ok s.group.strokeAt[0] && ok s.group.strokeAt[1]

/-- The rounds with and without strokes on one bus (R305): a lost bus that had strokes in two rounds is restored. -/
def State.busRound (b : Fin 2) (had otherHad : Bool) (s : State) : State :=
  let g := s.group
  if !g.mask.getLsbD b.val then s
  else if had then
    let n := g.goodBus[b] + 1
    let g := { g with missBus := g.missBus.set b 0, goodBus := g.goodBus.set b n }
    if g.lost.getLsbD b.val && decide (2 ≤ n) then
      let g : GroupSt := { g with lost := g.lost &&& ~~~ (1#2 <<< b.val), goodBus := g.goodBus.set b 0 }
      let g : GroupSt := if g.state = 5 then GroupSt.goMute 0 { g with state := 3, isoAt := none } else g
      (s.setGroup g).post 0x0606 b.val
    else s.setGroup (if g.lost.getLsbD b.val then g else { g with goodBus := g.goodBus.set b 0 })
  else if otherHad then
    s.setGroup { g with missBus := g.missBus.set b (satAdd 255 g.missBus[b] 1), goodBus := g.goodBus.set b 0 }
  else s

/-- The accounts of R305 after rounds without a valid stroke on any bus: no two rounds around them are consecutive. -/
def GroupSt.busBreak (g : GroupSt) : GroupSt := { g with missBus := Vector.replicate 2 0, goodBus := Vector.replicate 2 0 }

/-- Frames that stroke k collects at a station that does not seal: they are too old for the next stroke (R280). -/
def GroupSt.dropFrames (a b : Option Postmark) (g : GroupSt) : GroupSt :=
  { g with reqs := g.reqs.filter fun r => !collected a b r }

/-- What a valid stroke of round `k` does by the station's state: listening counts it, a claimed number becomes a member, a
member seals (R280, R301). -/
def State.strokeByState (k old : Nat) (a b : Option Postmark) (s : State) : State :=
  let g := s.group
  match g.state with
  | 1 =>
    let g := g.dropFrames a b
    s.setGroup { g with join := g.join.map fun j => { j with strokes := j.strokes + 1, anyStroke := true }, p := g.pNext }
  | 2 =>
    let alone := match g.join with | some j => (j.heard.filter (· ≠ g.car)).isEmpty | none => true
    let s := s.setGroup { g with core := GroupCore.init, state := if alone then 4 else 3, mute := !alone }
    let s := s.seal k old a b true
    if alone then (s.setGroup { s.group with join := none }).complete .groupJoin .done 0 0
    else s.setGroup (s.group.goMute s.group.p)
  | 3 => s.seal k old a b false
  | 4 => s.seal k old a b false
  | 6 => s.seal k old a b false
  | _ => s.setGroup (g.dropFrames a b)

/-- The slots of the round in progress are closed, if the end of the last one has not been taken yet. -/
def State.lateClose (s : State) : State :=
  if s.group.refDone || s.group.cur = 0 || s.group.state = 5 || s.group.state = 0 then s else s.closeSlots

/-- A valid stroke opens the round: the seal, the buses' accounts, group time. `own`: the station's own stroke. -/
def State.validStroke (x : StrokeIn) (own : Bool) (a b : Option Postmark) (busB : Bool) (t : Postmark) (s : State) : State :=
  let s := s.lateClose
  let old := s.group.cur
  let s := if nextRound old = x.round then s else s.setGroup s.group.busBreak
  let s := if own then s else (s.busRound 0 a.isSome b.isSome).busRound 1 b.isSome a.isSome
  let g := s.group
  let at0 := if a.isSome then a else g.strokeAt[0]
  let at1 := if b.isSome then b else g.strokeAt[1]
  let s := s.setGroup { g with cur := x.round, bellCar := x.sender, t0 := t - x.time % s.roundLen, strokeAt := #v[at0, at1] }
  let s := s.strokeByState x.round old a b
  let s := s.setGroup { s.group with slots := [], refDone := false, ref := none }
  if own then s.setGt { s.group.gt with e := 0, missed := 0 }
  else s.groupSteer t x.time busB s.roundLen

/-- The bell stroke on the buses: ignored, counted, refused for its configuration, or valid (R264, R269). -/
def State.strokeIn (x : StrokeIn) (s : State) : State :=
  let ab := s.strokeStarts x
  match firstStart x ab.1 ab.2 with
  | none => s
  | some (busB, t) =>
    if x.sender = 0 ∨ 63 < x.sender ∨ !s.spacingOk t then s.groupDiscard
    else if !s.strokeMatches x then
      if s.group.state = 1 then s.leaveGroup .failed 0x61 x.round else s.groupDiscard
    else s.validStroke x false ab.1 ab.2 busB t

/-- A bell that hears a valid stroke of another car yields (R482). -/
def State.yieldBell (x : StrokeIn) (s : State) : State :=
  let g := s.group
  (s.setGroup { g with bell := false, gt := { g.gt with state := 1 } }).post 0x0B0A x.sender

/-- A stroke from another station, at a station that may be the bell. -/
def State.strokeFrom (x : StrokeIn) (s : State) : State :=
  let ab := s.strokeStarts x
  match firstStart x ab.1 ab.2 with
  | none => s
  | some (_, t) =>
    if s.group.bell ∧ x.sender ≠ s.group.car ∧ 0 < x.sender ∧ x.sender ≤ 63 ∧ s.spacingOk t ∧ s.strokeMatches x then
      (s.yieldBell x).strokeIn x
    else if s.group.bell then s.groupDiscard
    else s.strokeIn x

/-- BELL_STROKE: the first valid stroke of a round seals the postbag, runs the sorting office, composes the own slot and
steers group time. -/
def execBellStroke (dt : Nat) (x : StrokeIn) (s : State) : Host.Outcome State Fault Refusal :=
  let s := s.advance dt
  if s.inReset then .next s else
  if s.machine ∧ s.group.state ≠ 0 then .next (s.strokeFrom x) else .next s

/-- BELL_YIELDED: a bell whose stroke loses arbitration to a valid stroke stops being the bell (R482). -/
def execBellYielded (dt : Nat) (x : StrokeIn) (s : State) : Host.Outcome State Fault Refusal :=
  let s := s.advance dt
  if s.inReset then .next s else
  if s.machine ∧ s.group.state ≠ 0 ∧ s.group.bell then .next (s.strokeFrom x) else .next s

/-- The stroke that the bell sends (R268, R476, R480, R481). -/
def State.ownStroke (s : State) : StrokeIn :=
  let g := s.group
  let k := if g.cur = 0 then 1 else roundAfter (nextRound g.cur) g.gt.missed
  let prev := g.cur ≠ 0 && g.ref.isSome && decide (nextRound g.cur = k)
  { sender := g.car, round := k, tRound := s.roundLen / 800,
    tBell := s.fld 0x60008 0 7, tSlot := s.fld 0x60008 8 7, slots := s.slots, prevValid := prev,
    refDig := if prev then g.ref.getD 0 else 0, void := if prev then g.void else 0, time := s.now, busB := !s.busSends 0, age := 0,
    other := if s.busSends 0 && s.busSends 1 then some 0 else none }

/-- A nominal instant of the bell has come whose stroke has not been sent: a bus that is not idle delays the stroke (R476).
Half a round tells the instants apart, since t_0 of a stroke received lies within the error of group time of its own. -/
def State.strokeDue (s : State) : Bool :=
  decide (s.group.t0 + s.group.gt.missed * s.roundLen + s.roundLen / 2 < s.now - s.now % s.roundLen)

/-- BELL_STROKE_TX: the bell sends its stroke at the nominal instant, or as soon after it as the bus allows, and opens its own
round (R476). -/
def execBellStrokeTx (dt : Nat) (s : State) : Host.Outcome State Fault Refusal :=
  let s := s.advance dt
  if s.inReset then .next s else
  if s.machine ∧ s.group.bell ∧ s.strokeDue ∧ (s.busSends 0 ∨ s.busSends 1) ∧ s.spacingOk s.now then
    let a := if s.busSends 0 then some s.now else none
    let b := if s.busSends 1 then some s.now else none
    let s := s.lateClose
    .next (if s.group.bell then s.validStroke s.ownStroke true a b (!s.busSends 0) s.now else s)
  else .next s

/-- The station becomes the bell with round `k` (R480). -/
def State.takeBell (k : Nat) (s : State) : State :=
  let g := s.group
  (s.setGroup { g with bell := true, gt := { g.gt with state := 4, e := 0 } }).post 0x0B09 k

/-- BELL_MISSING: no valid stroke by t_0 + T_round + 500 µs enters HOLDOVER and ranks a replacement (R478, R481). -/
def execBellMissing (dt : Nat) (s : State) : Host.Outcome State Fault Refusal :=
  let s := s.advance dt
  if s.inReset then .next s else
  let g := s.group
  let m := g.gt.missed + 1
  if g.state = 0 ∨ g.state = 6 ∨ g.bell ∨ g.cur = 0 ∨ s.now < g.t0 + m * s.roundLen + 40000 then .next s
  else
    let hold := g.gt.state = 2
    let gt := { g.gt with missed := m, state := if hold then 3 else g.gt.state, c := if hold then g.gt.f else g.gt.c }
    let s := s.setGt gt
    let s := if m = 2 then s.post (s.lowBusEvent 5) g.cur else s
    let ranked := (carsOf (carMask (g.slotList.map (·.1)))).filter (· ≠ g.bellCar)
    if ranked[m - 1]? = some g.car ∧ (g.state = 3 ∨ g.state = 4) ∧ s.fld 0xB0204 0 1 = 1 then
      .next (s.takeBell (roundAfter (nextRound g.cur) m))
    else .next s

/-! ### Status slots (R271-R274, R302) -/

/-- The entries that the station publishes: those of its rank in P (R275). -/
def GroupSt.ownEntries (g : GroupSt) : List Word :=
  if g.mute then [] else
    match (carsOf g.p).findIdx? (· = g.car) with
    | none => []
    | some r => ((g.core.list.drop (9 * r)).take 9).filterMap fun k =>
        (bagEntry g.core.bag k).map fun e => word (e.panel % 4096 + e.seq % 4096 * 4096 + e.car % 64 * 2 ^ 24)

/-- The own status slot (R271, R272); IN_SERVICE is 0 during a rescue and while the car is held for a lost car link (R496). -/
def State.composeSlot (x : CarIn) (s : State) : SlotMsg :=
  let g := s.group
  let es := g.ownEntries
  { round := g.round, state := x.state, mute := g.mute,
    inService := x.inService && s.fld 0x6000C 0 1 = 1 && !s.link.hold && s.pwr.rescue.isNone,
    leaving := g.state = 6, resync := g.resync.isSome, busA := g.mask.getLsbD 0 && !g.lost.getLsbD 0,
    busB := g.mask.getLsbD 1 && !g.lost.getLsbD 1, landing := x.landing, dir := x.dir, count := es.length,
    refused := min g.refusedSeal 255, pending := g.core.bag.length, entries := es, tag := g.tag, digest := g.digest,
    pos := x.pos, load := x.load }

/-- The start of the own slot. -/
def State.ownSlotAt (s : State) : Postmark := s.group.t0 + s.bellLen + (s.group.car - 1) * s.slotLen

/-- The round in progress has been sealed by a station that sends slots. -/
def GroupSt.sends (g : GroupSt) : Bool := (g.state = 3 || g.state = 4 || g.state = 6) && g.round = g.cur && g.cur ≠ 0

/-- A slot placed among those of the round, by car. -/
def insSlot (c : Nat) (m : SlotMsg) (busB : Bool) : List (Nat × SlotMsg × Bool) → List (Nat × SlotMsg × Bool)
  | [] => [(c, m, busB)]
  | y :: l => if c < y.1 then (c, m, busB) :: y :: l else y :: insSlot c m busB l

/-- STATUS_SLOT_TX: at the start of its own slot, the station loads its status slot for transmission. The lane's fields are
those of `x`, or in a lane service gap the last ones written (R272). -/
def execStatusSlotTx (dt : Nat) (x : CarIn) (s : State) : Host.Outcome State Fault Refusal :=
  let s := s.advance dt
  if s.inReset then .next s else
  let g := s.group
  if !s.machine || !g.sends || g.slotLoaded || s.pwr.mode = .sleep || decide (s.now < s.ownSlotAt) ||
      decide (s.ownSlotAt + s.slotLen ≤ s.now) || !(s.busSends 0 || s.busSends 1) then .next s
  else
    let x := if s.serving then x else g.ownCar
    let m := s.composeSlot x
    .next (s.setGroup { g with ownCar := x, ownSlot := some m, slotLoaded := true, slots := insSlot g.car m false g.slots })

/-- SLOT_LATE_CANCEL: a status slot not started by T_slot − 125 µs is cancelled and counted (R273). -/
def execSlotLateCancel (dt : Nat) (s : State) : Host.Outcome State Fault Refusal :=
  let s := s.advance dt
  if s.inReset then .next s else
  let g := s.group
  if g.ownSlot.isSome ∧ g.refDone = false ∧ s.ownSlotAt + s.slotLen ≤ s.now + 10000 then
    .next (s.setGroup { g with ownSlot := none, slots := g.slots.filter (·.1 ≠ g.car), slotLate := satAdd 0xFF g.slotLate 1 })
  else .next s

/-- SLOT_DISCARDED (R274). -/
def State.slotBad (car cause : Nat) (s : State) : State := s.post 0x0608 (car + 256 * cause)

/-- A valid slot is recorded; of two differing copies the one from bus A stays (R304). -/
def GroupSt.takeSlot (busB : Bool) (c : Nat) (m : SlotMsg) (g : GroupSt) : GroupSt :=
  match g.slots.find? (·.1 = c) with
  | none =>
    { g with slots := insSlot c m busB g.slots,
             join := g.join.map fun j => { j with heard := if j.heard.contains c then j.heard else j.heard ++ [c] } }
  | some (_, o, fromB) =>
    if o = m then g
    else
      { g with busDiff := satAdd 0xFF g.busDiff 1,
               slots := if fromB && !busB then g.slots.map fun y => if y.1 = c then (c, m, busB) else y else g.slots }

/-- The fields of a status slot's data bytes (R271). -/
def SlotMsg.ofBytes (b : List Byte) : SlotMsg :=
  let f := u8 b 5
  { round := u32 b 0, state := u8 b 4, mute := bitAt f 0, inService := bitAt f 1, leaving := bitAt f 2, resync := bitAt f 3,
    busA := bitAt f 4, busB := bitAt f 5, landing := u8 b 6, dir := u8 b 7, count := u8 b 8, refused := u8 b 9,
    pending := u16 b 10, entries := (List.range 9).map fun i => word (u32 b (12 + 4 * i)), tag := word (u32 b 48),
    digest := word (u32 b 52), pos := natLE (slice b 60 3), load := u8 b 63 }

/-- P of the round in progress is known: of a member, while claiming, and in the second round of listening (R274, R295, R301). -/
def GroupSt.knowsP (g : GroupSt) : Bool :=
  g.state = 2 || g.state = 3 || g.state = 4 || g.state = 6 ||
    (match g.join with
     | some j => g.state = 1 && decide (2 ≤ j.strokes)
     | none => false)

/-- STATUS_SLOT_RX: the 64 data bytes of a received status slot are checked and recorded for the round (R274); a sender or qualifier
(identifier bits [11:0]) that R263 does not give the type is discarded (R264). -/
def execStatusSlotRx (dt : Nat) (busB : Bool) (sender : Fin 64) (qual : Fin 4096) (data : List Byte) (s : State) :
    Host.Outcome State Fault Refusal :=
  let s := s.advance dt
  if s.inReset then .next s else
  let g := s.group
  let c := sender.val
  let x := SlotMsg.ofBytes data
  let member := g.state = 3 ∨ g.state = 4 ∨ g.state = 6
  if !s.machine ∨ g.state = 0 ∨ g.state = 5 ∨ !s.busJoined (if busB then 1 else 0) then .next s
  else if c = 0 ∨ qual.val ≠ 0 ∨ data.length ≠ 64 then .next s.groupDiscard
  else if c = g.car ∧ member then .next s.numberTwin
  else if s.slots < c then
    let f := s.freeUpTo 255
    .next (f.2.slotBad c f.1)
  else if u32 data 56 ≠ (crc32c (data.take 56)).toNat then .next (s.slotBad c 1)
  else if x.round ≠ g.cur ∨ g.refDone then .next (s.slotBad c 2)
  else if x.count ≠ 0 ∧ (x.mute ∨ (g.knowsP ∧ !g.p.getLsbD (c - 1))) then .next (s.slotBad c 3)
  else .next (s.setGroup (g.takeSlot busB c x))

/-- CAR_NUMBER_TWIN: a claim (kind 0) or a slot (kind 1) ends in TWIN on a bus, which is counted and posted for its transmit buffer
(R471), or the own number is seen from elsewhere (kind 2). The buffers of both stop on TWIN (R302). -/
def execCarNumberTwin (dt : Nat) (x : TwinIn) (s : State) : Host.Outcome State Fault Refusal :=
  let s := s.advance dt
  if s.inReset then .next s else
  let g := s.group
  let member := g.state = 3 ∨ g.state = 4 ∨ g.state = 6
  let twin := s.twinPost (busCtrl x.bus) ⟨x.buf.val, by omega⟩
  if x.kind.val = 0 then .next (if g.state = 2 ∧ s.busSends x.bus then twin.leaveGroup .failed 0x60 g.car else s)
  else if x.kind.val = 1 then .next (if member ∧ s.busSends x.bus ∧ g.ownSlot.isSome then twin.numberTwin else s)
  else .next (if member then s.numberTwin else s)

/-! ### Requests on the buses (R277-R280) -/

/-- A request or cancel frame ends on a bus: collected for the next seal, unless it is the copy of one that the other bus has
delivered in the same window (R304); the station's own frame has been sent. -/
def State.requestFrame (cancel busB : Bool) (panel sender : Nat) (data : Nat) (s : State) : State :=
  let g := s.group
  if !s.machine ∨ g.state = 0 ∨ !s.busJoined (if busB then 1 else 0) then s
  else if panel = 0 then s.groupDiscard
  else
    let r : ReqRec := { busB := busB, cancel := cancel, panel := panel, sender := sender, data := data, endAt := s.now }
    let copy := g.reqs.any fun q => decide (q.busB ≠ busB ∧ g.t0 ≤ q.endAt) && decide ({ r with busB := q.busB, endAt := q.endAt } = q)
    let sent (c : CallFrame) : Option CallFrame :=
      if sender = g.car ∧ c.cancel = cancel ∧ c.panel = panel ∧ c.data = data then
        let c := { c with toA := c.toA && busB, toB := c.toB && !busB }
        if c.toA || c.toB then some c else none
      else some c
    s.setGroup { g with reqs := if copy then g.reqs else g.reqs ++ [r], calls := g.calls.filterMap sent }

/-- REQUEST_FRAME: a request frame ending in the open window is collected for the next seal. -/
def execRequestFrame (dt : Nat) (busB : Bool) (panel : Fin 4096) (sender : Fin 64) (data : BitVec 64) (s : State) :
    Host.Outcome State Fault Refusal :=
  .next ((s.advance dt).requestFrame false busB panel.val sender.val data.toNat)

/-- CANCEL_FRAME: a cancel frame is collected for the next seal. -/
def execCancelFrame (dt : Nat) (busB : Bool) (panel : Fin 4096) (sender : Fin 64) (data : BitVec 64) (s : State) :
    Host.Outcome State Fault Refusal :=
  .next ((s.advance dt).requestFrame true busB panel.val sender.val data.toNat)

/-- CALL_FRAME_TX_DROP: frames of this round's open window not started by its quiet gap are dropped and counted (R278). -/
def execCallFrameTxDrop (dt : Nat) (s : State) : Host.Outcome State Fault Refusal :=
  let s := s.advance dt
  if s.inReset then .next s else
  let g := s.group
  if s.now + 24000 < g.t0 + s.roundLen then .next s
  else
    let gone := g.calls.filter fun c => decide (c.round ≠ nextRound g.cur)
    .next (s.setGroup { g with calls := g.calls.filter fun c => decide (c.round = nextRound g.cur),
                               txDrop := satAdd 0xFF g.txDrop gone.length })

/-! ### Joining (R301) -/

/-- JOIN_LISTEN_TIMEOUT: no stroke within 3 × T_round while listening makes the station found a bell (R301, R480). -/
def execJoinListenTimeout (dt : Nat) (s : State) : Host.Outcome State Fault Refusal :=
  let s := s.advance dt
  if s.inReset then .next s else
  let g := s.group
  match g.join with
  | none => .next s
  | some j =>
    if g.state = 1 ∧ !j.anyStroke ∧ !g.bell ∧ j.since + 3 * s.roundLen ≤ s.now ∧ s.fld 0xB0204 0 1 = 1 then
      .next ((s.setGroup { g with cur := 0, t0 := s.now - s.now % s.roundLen }).takeBell 1)
    else .next s

/-- JOIN_CLAIM: after two heard rounds, the joining station sends its join claim in the open window before its quiet gap (R265), or finds its number in
use (R301). -/
def execJoinClaim (dt : Nat) (s : State) : Host.Outcome State Fault Refusal :=
  let s := s.advance dt
  if s.inReset then .next s else
  let g := s.group
  match g.join with
  | none => .next s
  | some j =>
    if g.state ≠ 1 ∨ j.strokes < 2 ∨ s.now < g.t0 + s.bellLen + s.slots * s.slotLen ∨ g.t0 + s.roundLen ≤ s.now + 24000 then .next s
    else if j.heard.contains g.car then .next s.numberTwin
    else
      let f := s.freeWord
      .next (f.2.setGroup { f.2.group with state := 2, join := some { j with claimed := true, nonce := f.1 } })

/-! ### Two group buses (R305, R306) -/

/-- Every joined bus is lost: a join fails, a leave ends, a member is isolated (R301, R306). -/
def State.allBusesLost (s : State) : State :=
  let g := s.group
  if g.join.isSome then s.leaveGroup .failed 0x62 0
  else if g.state = 6 then s.leaveGroup .failed 0x62 0
  else (s.setGroup { g with state := 5, isoAt := some s.now, bell := false, resync := none, mute := true, resyncReq := [], resyncOut := [], pNext := 0,
                            gt := { g.gt with state := if g.bell then 1 else g.gt.state } }).post 0x0607 g.round

/-- GROUP_BUS_LOST: a group bus that is bus-off, or without strokes for two rounds, is lost (R305). -/
def execGroupBusLost (dt : Nat) (bus : Fin 2) (s : State) : Host.Outcome State Fault Refusal :=
  let s := s.advance dt
  if s.inReset then .next s else
  let g := s.group
  let off := 2 ≤ s.can[busCtrl bus].errst
  if g.state = 0 ∨ !g.mask.getLsbD bus.val ∨ g.lost.getLsbD bus.val ∨ !(off ∨ 2 ≤ g.missBus[bus]) then .next s
  else
    let g := { g with lost := g.lost ||| (1#2 <<< bus.val), goodBus := g.goodBus.set bus 0, missBus := g.missBus.set bus 0 }
    let s := (s.setGroup g).post 0x0605 bus.val
    .next (if g.mask &&& ~~~ g.lost = 0 then s.allBusesLost else s)

/-! ### Resynchronisation (R297-R299) -/

/-- RESYNC_REQUEST: a resync request makes the source snapshot its postbag at its next seal (R297). -/
def execResyncRequest (dt : Nat) (car : Fin 64) (s : State) : Host.Outcome State Fault Refusal :=
  let s := s.advance dt
  if s.inReset then .next s else
  let g := s.group
  let p := if g.refDone then g.pNext else g.p
  if car.val = 0 then .next (if s.machine ∧ g.state ≠ 0 then s.groupDiscard else s)
  else if g.state = 4 ∧ !g.mute ∧ car.val ≠ g.car ∧ (carsOf p).head? = some g.car then
    .next (s.setGroup { g with resyncReq := if g.resyncReq.contains car.val then g.resyncReq else g.resyncReq ++ [car.val] })
  else .next s

/-- A snapshot frame is taken in its order, or the resync restarts (R299). -/
def GroupSt.takeFrame (data : List Byte) (r : ResyncSt) (g : GroupSt) : GroupSt :=
  let n := u16 data 6
  let again : Bool := match r.frames.getLast? with | some x => x = (n, data) | none => false
  let same : Bool := match r.snap with | some k => k = u32 data 0 | none => n = 0
  if again then g
  else if n ≠ r.frames.length ∨ !same then
    { g with resync := some (newResync (if g.refDone then g.pNext else g.p) g.car r.attempt g.cur) }
  else
    let fs := r.frames ++ [(n, data)]
    let total := match fs.head? with | some x => 1 + ceilDiv (u16 x.2 4) 2 | none => 0
    let r := { r with snap := some (u32 data 0), frames := fs }
    { g with resync := some (if fs.length = total then { r with core := some (snapshotCore fs) } else r) }

/-- RESYNC_DATA: a received resync data frame adds to the snapshot, or restarts the resync on a gap (R299). -/
def execResyncData (dt : Nat) (sender : Fin 64) (car : Fin 64) (data : List Byte) (s : State) :
    Host.Outcome State Fault Refusal :=
  let s := s.advance dt
  if s.inReset then .next s else
  let g := s.group
  if !s.machine ∨ g.state = 0 then .next s
  else if data.length ≠ 64 ∨ sender.val = 0 ∨ car.val = 0 then .next s.groupDiscard
  else match g.resync with
    | some r =>
      if car.val = g.car ∧ sender.val = r.source ∧ r.core = none ∧ r.caught = false then .next (s.setGroup (g.takeFrame data r))
      else .next s
    | none => .next s

/-- Up to `n` logged rounds replayed from the end of round `k`: where it stands, the digest of the last one, and the rounds
left; none where the log lacks a round (R299). -/
def replay (tb : Tables) (limit : Nat) (log : List SealIn) (last : Nat) :
    Nat → Nat × GroupCore × Option Word → Option (Nat × GroupCore × Option Word)
  | 0, x => some x
  | n + 1, (k, c, d) =>
    if k = last then some (k, c, d)
    else match log.find? (·.round = nextRound k) with
      | none => none
      | some i =>
        let o := sealCore tb limit i c
        replay tb limit log last n (nextRound k, o.core, some o.digest)

/-- RESYNC_REPLAY: in each open window, the mute station replays up to 8 logged rounds from the snapshot; once it has caught
up it seals live (R299). -/
def execResyncReplay (dt : Nat) (s : State) : Host.Outcome State Fault Refusal :=
  let s := s.advance dt
  if s.inReset then .next s else
  let g := s.group
  match g.resync with
  | none => .next s
  | some r =>
    match r.core with
    | none => .next s
    | some (k, c) =>
      if r.caught ∨ g.refDone = false ∨ r.left = 0 then .next s
      else
        let p := if g.refDone then g.pNext else g.p
        match replay g.tables (s.fld 0x60004 24 4) g.log g.round r.left (k, c, none) with
        | none => .next (s.setGroup { g with resync := some (newResync p g.car r.attempt g.cur) })
        | some (k, c, d) =>
          if k = g.round then
            .next (s.setGroup { g with core := c, digest := d.getD g.digest,
                                       resync := some { r with caught := true, core := none, left := 0 } })
          else .next (s.setGroup { g with resync := some { r with core := some (k, c), left := 0 } })

end Sys2Proof.Machine
end

