-- ==== Sys2Proof/Machine/GroupLetters.lean ====
section
/-! DEFINITION. The letters of the GROUP block: GROUP_JOIN, GROUP_LEAVE, POLICY_SET, FLIGHT_SET, CALL_ENTER, CALL_CANCEL, and
the check of its registers. -/
namespace Sys2Proof.Machine

/-- The time in ns that a group frame of `n` data bytes takes with a controller's bit timing: at the default rates the bounds
that R267 states. -/
def State.frameTime (c : Fin 3) (n : Nat) (s : State) : Nat :=
  let nbt := s.reg (canBase c.val + 8)
  let dbt := s.reg (canBase c.val + 0xC)
  if nbt = 67637185 ∧ dbt = 8982977 then (if n = 32 then 100000 else 125000) else Config.frameNs nbt dbt n

/-- The T_bell or T_slot needed in ns where the bit timing of a bus breaks R267. -/
def State.timingNeeded (b : Fin 2) (s : State) : Option Nat :=
  let stroke := s.frameTime (busCtrl b) 32
  let slot := s.frameTime (busCtrl b) 64
  if s.fld 0x60008 0 7 * 10000 < stroke + 100000 then some (stroke + 100000)
  else if s.fld 0x60008 8 7 * 10000 < slot + 30000 then some (slot + 30000)
  else none

/-- GROUP_JOIN (R301). -/
def groupJoinHandler : Handler :=
  handler (fun s p => lowestBad p [(2, 2)]
      [(0, decide (u8 p 0 = 0 ∨ s.slots < u8 p 0)), (1, decide (u8 p 1 = 0 ∨ 3 < u8 p 1))])
    fun l s =>
      let m := BitVec.ofNat 2 (u8 l.payload 1)
      let bad (b : Fin 2) : Bool := m.getLsbD b.val && s.can[busCtrl b].state ≠ 1
      let short (b : Fin 2) : Option Nat := if m.getLsbD b.val then s.timingNeeded b else none
      if s.group.state ≠ 0 then refuse .wrongState 0x61 s
      else if bad 0 || bad 1 then refuse .wrongState 0x62 s
      else match (short 0).or (short 1) with
        | some ns => refuseWith .wrongState 0x63 ns s
        | none =>
          let j : JoinSt := { since := s.now, strokes := 0, heard := [], anyStroke := false, claimed := false, nonce := 0 }
          let g := s.group.left
          (.queued .groupJoin, s.setGroup { g with state := 1, car := u8 l.payload 0, mask := m, join := some j, cur := 0,
                                                   gt := { g.gt with state := 1 } })

/-- GROUP_JOIN: begins listening and claiming a car number. -/
def execGroupJoin (l : Letter) (s : State) : Host.Outcome State Fault Refusal := .next (s.serve 0x060 groupJoinHandler l)

/-- GROUP_LEAVE (R303). -/
def groupLeaveHandler : Handler :=
  handler (fun _ _ => none) fun _ s =>
    let g := s.group
    if g.state < 3 then refuse .wrongState 0x60 s
    else if g.state = 5 then (.ended .groupLeave .done 0 0, s.setGroup g.left)
    else (.queued .groupLeave, s.setGroup { g with state := 6, gt := { g.gt with state := 0, c := 0 } })

/-- GROUP_LEAVE: sends a last slot with LEAVING and leaves the group. -/
def execGroupLeave (l : Letter) (s : State) : Host.Outcome State Fault Refusal := .next (s.serve 0x061 groupLeaveHandler l)

/-! ### The dispatch tables (R286-R289) -/

/-- The first offending offset of a policy table (R286). -/
def policyBad (b : List Byte) : Option Nat :=
  let car (c : Nat) : Option Nat :=
    let o := 32 + 32 * c
    lowestBad b [(o + 3, 5)] [(o + 1, decide (3 < u8 b (o + 1))), (o + 2, decide (1 < u8 b (o + 2)))]
  let head := lowestBad b [(23, 1), (28, 4)]
    [(0, decide (4095 < u16 b 0)), (2, decide (4095 < u16 b 2)), (4, decide (4095 < u16 b 4)), (6, decide (4095 < u16 b 6)),
     (8, decide (60000 < u16 b 8)), (10, decide (60000 < u16 b 10)), (20, decide (u16 b 20 = 0 ∨ 1024 < u16 b 20)),
     (22, decide (u8 b 22 = 0 ∨ 100 < u8 b 22))]
  head.or ((List.range 63).findSome? car)

/-- The length that a flight-time table's header calls for (R287). -/
def flightLen (b : List Byte) : Nat := 16 + 4 * u16 b 0 + 8 * u8 b 2 * u8 b 3

/-- The first offending offset of a flight-time table (R287). -/
def flightBad (b : List Byte) : Option Nat :=
  let k := u16 b 0
  let pt := u8 b 3
  let head := lowestBad b [(8, 8)]
    [(0, decide (k = 0 ∨ 192 < k)), (2, decide (u8 b 2 = 0 ∨ 4 < u8 b 2)), (3, decide (pt < 2 ∨ 64 < pt))]
  let height := ((List.range (k - 1)).find? fun i => u32 b (20 + 4 * i) ≤ u32 b (16 + 4 * i)).map (20 + 4 * ·)
  let point (i : Nat) : Option Nat :=
    let o := 16 + 4 * k + 8 * i
    if i % pt = 0 then (if u32 b o ≠ 0 then some o else if u32 b (o + 4) ≠ 0 then some (o + 4) else none)
    else if u32 b o ≤ u32 b (o - 8) then some o
    else if u32 b (o + 4) < u32 b (o - 4) then some (o + 4)
    else none
  head.or (height.or ((List.range (u8 b 2 * pt)).findSome? point))

/-- A dispatch table is read, checked and staged (R288): `len` the length it must have, `bad` its first invalid field. -/
def setTable (len : List Byte → Nat) (bad : List Byte → Option Nat) (put : List Byte → GroupSt → GroupSt) (l : Letter)
    (s : State) : Reply × State :=
  let a := u32 l.payload 0
  let n := u32 l.payload 4
  let e := s.eccRead a n
  match e.1 with
  | some w => refuseWith .failed 1 w e.2
  | none =>
    let b := s.cellsFrom a n
    if n ≠ len b then refuse .badArg 4 s
    else match bad b with
      | some o => refuseWith .wrongState 0x65 o s
      | none => doneWith (e.2.setGroup (put b e.2.group))

/-- The address check of a table letter. -/
def tableArgs (p : List Byte) : Option Nat := lowestBad p [] [(0, !tableRange (u32 p 0) (u32 p 4))]

/-- POLICY_SET (R286, R288). -/
def policySetHandler : Handler :=
  handler (fun _ p => tableArgs p)
    fun l s => if u32 l.payload 4 ≠ 2048 then refuse .badArg 4 s
      else setTable (fun _ => 2048) policyBad (fun b g => { g with policyNext := some b }) l s

/-- POLICY_SET: checks and stages the policy table. -/
def execPolicySet (l : Letter) (s : State) : Host.Outcome State Fault Refusal := .next (s.serve 0x062 policySetHandler l)

/-- FLIGHT_SET (R287, R288). -/
def flightSetHandler : Handler :=
  handler (fun _ p => tableArgs p)
    fun l s => if u32 l.payload 4 < 16 ∨ 16 + 4 * 65535 + 8 * 255 * 255 < u32 l.payload 4 then refuse .badArg 4 s
      else setTable flightLen flightBad (fun b g => { g with flightNext := some b }) l s

/-- FLIGHT_SET: checks and stages the flight-time table. -/
def execFlightSet (l : Letter) (s : State) : Host.Outcome State Fault Refusal := .next (s.serve 0x063 flightSetHandler l)

/-! ### Calls (R278) -/

/-- The argument check of CALL_ENTER and CALL_CANCEL in a machine station; a car station forwards the letter unchecked. -/
def callBad (s : State) (p : List Byte) : Option Nat :=
  if !s.machine then lowestBad p [(6, 2)] []
  else
    let k := s.group.tables.landings
    let o := u8 p 0
    let d := u8 p 1
    lowestBad p [(6, 2)]
      [(0, decide (k ≤ o)),
       (1, d = o || (decide (k ≤ d) && d ≠ 0xFE && d ≠ 0xFF) || (d = 0xFE && o + 1 = k) || (d = 0xFF && o = 0)),
       (2, decide (2 < u8 p 2)), (3, decide (15 < u8 p 3)), (4, decide (u16 p 4 = 0 ∨ 4095 < u16 p 4))]

/-- The round of the first open window that has not reached its quiet gap (R278). -/
def State.callRound (s : State) : Nat :=
  if s.now + 24000 < s.group.t0 + s.roundLen then s.group.cur else nextRound s.group.cur

/-- CALL_ENTER and CALL_CANCEL: a frame is queued, or the letter is forwarded over the car link. -/
def callHandler (opc : Nat) (cancel : Bool) : Handler :=
  handler callBad fun l s =>
    if !s.machine then
      if s.link.state ≠ 3 then refuse .wrongState 0x64 s
      else if 16 ≤ s.lb.rcpt4.length then refuse .wrongState 0x66 s
      else
        let b := headFull opc 8 l ++ l.payload
        (.done 0xFFFFFFFF#32 [], { s with lb := { s.lb with rcpt4 := s.lb.rcpt4 ++ [.letter b] } })
    else if s.group.state < 3 then refuse .wrongState 0x60 s
    else
      let g := s.group
      let d := u32 l.payload 0 + l.seq.toNat % 4096 * 2 ^ 32
      let c : CallFrame := { round := s.callRound, cancel := cancel, panel := u16 l.payload 4, data := d, toA := s.busSends 0,
                             toB := s.busSends 1 }
      (.done (word c.round) [], s.setGroup { g with calls := g.calls ++ [c] })

/-- CALL_ENTER: queues a request frame for the next open window, or forwards the call. -/
def execCallEnter (l : Letter) (s : State) : Host.Outcome State Fault Refusal := .next (s.serve 0x064 (callHandler 0x064 false) l)

/-- CALL_CANCEL: queues a cancel frame, or forwards the cancellation. -/
def execCallCancel (l : Letter) (s : State) : Host.Outcome State Fault Refusal := .next (s.serve 0x065 (callHandler 0x065 true) l)

/-! ### Registers (R266, R308) -/

/-- A write of a GROUP register is refused: car station, configuration in use, or a broken range or inequality; `v` is the
register's value after the write (R266). -/
def State.groupRefused (a v : Nat) (s : State) : Option (Status × Nat) :=
  if s.carStation then some (.wrongState, 1)
  else if a ≠ 0x60004 ∧ a ≠ 0x60008 then none
  else
    let c := if a = 0x60004 then v else s.reg 0x60004
    let t := if a = 0x60008 then v else s.reg 0x60008
    let len := bitsAt c 0 11 * s.tickLen
    let bell := bitsAt t 0 7 * 800
    let slot := bitsAt t 8 7 * 800
    let n := bitsAt c 16 6
    let ok := decide (800000 ≤ len ∧ len ≤ 4000000 ∧ 20 ≤ bitsAt t 0 7 ∧ bitsAt t 0 7 ≤ 80 ∧ 16 ≤ bitsAt t 8 7 ∧
      bitsAt t 8 7 ≤ 64 ∧ 1 ≤ n ∧ 1 ≤ bitsAt c 24 4 ∧ 1 ≤ bitsAt t 16 7 ∧ bitsAt t 16 7 ≤ 64 ∧ bell + n * slot + 104000 ≤ len)
    if !ok then some (.badArg, 4)
    else if s.group.state ≠ 0 then some (.wrongState, 0x61)
    else none

end Sys2Proof.Machine
end

