-- ==== Sys2Proof/Machine/Hoist.lean ====
section
/-! DEFINITION. Hoist current control (R172-R181): the current sample, the vector primitives, the modulator, and the trip. -/
namespace Sys2Proof.Machine

/-- A carrier factor is valid for a tick length: T_c whole in 5 ns, the carrier within 4-20 kHz (R172). -/
def carrierOk (k period : Nat) : Bool :=
  k ≠ 0 && decide (period * 250 % k = 0) &&
    -- 1/(2·T_c) = K · 400,000 / PERIOD Hz
    decide (4000 * period ≤ 400000 * k) && decide (400000 * k ≤ 20000 * period)

/-- The currents of a current sample in mA; a channel that is not used holds its value (R193, R194). -/
def State.sampleCurrents (s : State) : Vector Int 3 :=
  Vector.ofFn fun k : Fin 3 =>
    if s.sdUsed k then s.sdCurrent k
    else match k with
      | 0 => s.loop.cur[0]
      | 1 => s.loop.cur[1]
      | 2 => s.loop.cur[2]

/-- CURRENT_SUM: the sum check (R181). -/
def State.sumCheck (i : Vector Int 3) (s : State) : State :=
  let sum := i[0] + i[1] + i[2]
  let win := s.fld 0x3400C 20 12 * 100
  if win ≠ 0 ∧ win < sum.natAbs then s.post 0x0304 (ucode 32 sum) else s

/-- The transforms of R174 with exact intermediate values, each result rounded once. -/
def State.clarkePark (i : Vector Int 3) (theta : Nat) (s : State) : State :=
  let x := 2 * i[0] - i[1] - i[2]
  let y := i[1] - i[2]
  let c := cosFx (radFx theta (2 ^ 32))
  let n := sinFx (radFx theta (2 ^ 32))
  let al : Int := x * fx / 3
  let be : Int := y * fx * fx / sqrt3Fx
  let cur : Vector Int 7 := #v[i[0], i[1], i[2], roundAway x 3, roundAway be fx,
    roundAway (mulFx al c + mulFx be n) fx, roundAway (mulFx be c - mulFx al n) fx]
  { s with loop := { s.loop with cur := cur, theta := theta } }

/-- The angle advance ω_e · ADV · T_c / 16 in 2^-64 revolutions (R174). -/
def State.advanceAngle (s : State) : Int :=
  let den := s.fld 0x40100 16 12 * s.encCpr 0 * s.fld 0x34000 0 5 * 64
  if den = 0 then 0
  else (s.fld 0x34008 0 8 : Int) * s.encDiff 0 * s.fld 0x34008 8 6 * s.sys.period * 5 * 2 ^ 64 / den

/-- The output of the current-rate slot with destination `d` (R175). -/
def State.destOut (s : State) (d : Nat) : Int :=
  match s.destSlot d with
  | some i => if s.loop.slots[i].mode = 0 then 0 else s.loop.slots[i].ye
  | none => 0

/-- The factor from u to m, scaled: √3 · VFS / V_dc, with V_dc at least 0.1 · √3 · VFS, or 1 (R175). The ratio of the DC-link
divider lies on the board (notes/assumptions/17.md). -/
def State.dcFactor (s : State) : Int :=
  let r := s.reg 0x34010
  if bitAt r 4 then
    let v := sqrt3Fx * bitsAt r 16 16 * 100
    let dc := Sys2Proof.Config.dcLink (s.sense.adc[slotIdx (bitsAt r 0 4)]) * fx
    if dc * 10 ≤ v then 10 * fx else (v * fx / dc : Nat)
  else fx

/-- The modulation vector, limited to 1 (R175, R176): m_d, m_q scaled, and whether the limit acted. -/
def limitVector (md mq : Int) : Int × Int × Bool :=
  let n := (md * md + mq * mq).toNat
  if fx * fx < n then
    let r : Int := isqrt n
    (md * fx / r, mq * fx / r, true)
  else (md, mq, false)

/-- The three duties of R177, scaled. -/
def duties (ma mb : Int) : Vector Int 3 :=
  -- m_α, m_β in; the phases of R177
  let h := mulFx (sqrt3Fx / 2 : Nat) mb
  let a := ma
  let b := -ma / 2 + h
  let c := -ma / 2 - h
  let mid := (max a (max b c) + min a (min b c)) / 2
  Vector.map (fun m => (fx / 2 : Nat) + (m - mid) * fx / sqrt3Fx) #v[a, b, c]

/-- Dead-time compensation and minimum pulse of a phase (R178): Q1.30. -/
def State.shape (s : State) (i d : Int) : Int :=
  let k := s.fld 0x34000 0 5
  let per := s.sys.period
  let dt := s.fld 0x34004 0 10
  let mp := s.fld 0x34004 16 10
  let trip := s.fld 0x3400C 0 20 * 10
  let one : Int := fx
  let d := if s.fld 0x34000 16 1 = 1 then
      -- clamp(i / I_b, −1, 1), I_b = TRIP / 64
      let r : Int := if trip = 0 then (if 0 < i then one else if i < 0 then -one else 0) else clamp (-one) one (i * 64 * fx / trip)
      clamp 0 one (d + r * (dt * k : Nat) / (500 * per : Nat))
    else d
  let d := if d * (250 * per : Nat) < (mp * k * fx : Nat) then 0
    else if (one - d) * (250 * per : Nat) < (mp * k * fx : Nat) then one else d
  roundAway (d * 2 ^ 30) fx

/-- A current-rate slot reads the outputs released before the sample (R144). -/
def State.curRead (s : State) (i : Fin 16) (k : Nat) : Int :=
  let j := slotIdx k
  let _ := i
  if s.loop.slots[j].d 0 = 1 then s.loop.slots[j].ye else s.released j

/-- The current-rate slots of a sample, up to their state updates. -/
def State.curSlots (angle : Nat) (s : State) : State × List (Fin 16 × Commit) :=
  (List.finRange 16).foldl (fun (a : State × List (Fin 16 × Commit)) i =>
    let q := a.1.loop.slots[i]
    if q.configured && q.d 0 = 1 then
      let r := a.1.slotCompute i (a.1.curRead i) angle
      (r.1, match r.2 with | some x => a.2 ++ [(i, x)] | none => a.2)
    else a) (s, [])

/-- The state updates of the current-rate slots, with the saturation by the vector limit (R142, R176). -/
def State.curCommit (lim : Bool) (cs : List (Fin 16 × Commit)) (s : State) : State :=
  let s := cs.foldl (fun s p =>
    let q := s.loop.slots[p.1]
    let dest := q.d 7 = 1 || q.d 7 = 2
    let x := { p.2 with hi := p.2.hi || (lim && dest && decide (0 < p.2.y)), lo := p.2.lo || (lim && dest && decide (p.2.y < 0)) }
    s.setSlot p.1 (q.commit x)) s
  (List.finRange 16).foldl (fun s i =>
    let q := s.loop.slots[i]
    if q.configured && q.d 0 = 1 then s.setSlot i (q.satTrack s.now) else s) s

/-- The hoist outputs switch: the conditions of R179. -/
def State.hoistEnabled (s : State) : Bool := s.hoistBase && s.torqueRuns

/-- The modulator of a current sample: limit, inverse Park with the advanced angle, duties (R175-R178). -/
def State.modulate (i : Vector Int 3) (cs : List (Fin 16 × Commit)) (s : State) : State :=
  let th := (s.loop.theta : Int) * 2 ^ 32 + s.advanceAngle
  let c := cosFx (radFx th (2 ^ 64))
  let n := sinFx (radFx th (2 ^ 64))
  let f := s.dcFactor
  let u (d : Nat) : Int := s.destOut d * f / 2 ^ 30
  let m := limitVector (u 1) (u 2)
  let al := mulFx m.1 c - mulFx m.2.1 n
  let be := mulFx m.1 n + mulFx m.2.1 c
  let d := duties al be
  let s := s.curCommit m.2.2 cs
  { s with loop := { s.loop with md := q30 (roundAway (m.1 * 2 ^ 30) fx), mq := q30 (roundAway (m.2.1 * 2 ^ 30) fx),
                                 vlimit := m.2.2,
                                 dutyNext := Vector.ofFn fun k : Fin 3 => s.shape i[k] d[k],
                                 enabled := s.hoistEnabled } }

/-- A carrier peak or valley that has been reached and not yet sampled (R172): the instant lies a whole number of half-periods
T_tick / K after a tick instant, to the postmark count. -/
def State.sampleDue (s : State) : Bool :=
  let k := s.fld 0x34000 0 5
  let e := s.now % s.tickLen
  k ≠ 0 && decide (ceilDiv (e * k) s.tickLen * s.tickLen / k = e) &&
    (match s.loop.sampledAt with | some p => decide (p ≠ s.now) | none => true)

/-- CURRENT_SAMPLE: at each carrier peak and valley, currents and angle are taken, the vector transforms and current-rate
slots run, and duties are written to the shadow registers (R173). The machine station only (R6, R7); none while the carrier
setting is invalid (R172). -/
def execCurrentSample (dt : Nat) (x : CurIn) (s : State) : Host.Outcome State Fault Refusal :=
  let s := s.advance dt
  if s.inReset then .next s else
  if !s.machine || s.loop.kbad || !s.sampleDue then .next s else
  let s := (((s.encRun 0 x.enc).sdRun 0 x.sd[0]).sdRun 1 x.sd[1]).sdRun 2 x.sd[2]
  let s := { s with loop := { s.loop with dutyPrev := s.loop.duty, duty := s.loop.dutyNext, sampledAt := some s.now, cogOld := none } }
  let i := s.sampleCurrents
  let tm := s.encAngle
  let s := s.sumCheck i
  let theta := (s.fld 0x34008 0 8 * tm + s.fld 0x34008 16 16 * 2 ^ 16) % 2 ^ 32
  let s := s.clarkePark i theta
  let r := s.curSlots tm
  .next ((r.1.modulate i r.2).capStep 1)

/-- A switch of phase `x` of the hoist conducts (R177-R179), `low` the low side. In the half-period from a valley the low side comes
first and the high side ends at the peak; from a peak the other way round. A switch that was on at the end of the half-period before
goes on; any other turns on DT after its partner has turned off. -/
def State.hoistOn (s : State) (x : Fin 3) (low : Bool) : Bool :=
  let k := s.fld 0x34000 0 5
  let per := s.sys.period
  -- times in 2.5 ns, over K and 2^30
  let u : Int := (2 : Int) ^ 30
  let tc : Int := 500 * per
  let half := s.now % (2 * s.tickLen) * k / s.tickLen
  let e : Int := ((s.now % (2 * s.tickLen) * k - half * s.tickLen : Nat) : Int) * 5 * u
  let dt : Int := 2 * s.fld 0x34004 0 10 * k * u
  let d := s.loop.duty[x]
  let p := s.loop.dutyPrev[x]
  let high := d * tc
  let rest := (u - d) * tc
  s.hoistEnabled && k ≠ 0 &&
    (if half % 2 = 0 then
      (if low then decide ((if p < u then 0 else dt) ≤ e ∧ e < rest)
       else decide (0 < d ∧ (if d = u then (if p = u then 0 else dt) else rest + dt) ≤ e))
     else
      (if low then decide (d < u ∧ (if d = 0 then (if p = 0 then 0 else dt) else high + dt) ≤ e)
       else decide ((if 0 < p then 0 else dt) ≤ e ∧ e < high)))

/-- The level of an output of phase `x`: its POL bit makes it active low (R178, R191). -/
def State.hoistPin (s : State) (x : Fin 3) (low : Bool) : Bool :=
  s.hoistOn x low != (s.fld 0x34000 (8 + 2 * x.val + b2n low) 1 = 1)

/-- OVERCURRENT: the bits of a channel up to a value of its trip stream; one above TRIP in magnitude sets the six outputs inactive
and latches TRIP (R180, R212). -/
def execOvercurrent (dt : Nat) (k : Fin 3) (bits : List Bool) (s : State) : Host.Outcome State Fault Refusal :=
  let s := s.advance dt
  if s.inReset then .next s else .next (s.sdRun k bits)

end Sys2Proof.Machine
end

