-- ==== Sys2Proof/Machine/Flash.lean ====
section
/-! DEFINITION. The sections of the flash die (R525-R527): headers and validity of firmware. -/
namespace Sys2Proof.Machine

/-- An unlisted byte of a firmware section: of the image of manufacture, or erased (notes/assumptions/12.md). -/
def FwSec.blank (f : FwSec) (o : Nat) : Byte := if f.kept.contains (o / 65536) then Config.factoryByte o else 0xFF#8

/-- Bytes of a firmware section. -/
def FwSec.bytes (f : FwSec) (o n : Nat) : List Byte := (List.range n).map fun i => aget f.blank (o + i) f.cells

/-- The header of a section names kind 1 and keeps R526: what a header says, or none. -/
def FwSec.header (f : FwSec) : Option FwInfo :=
  match f.factory with
  | some i => some i
  | none =>
    let h := f.bytes 0 128
    if u32 h 0 = 0x33364756 ∧ u16 h 4 = 1 ∧ u16 h 6 = 1 ∧ u32 h 12 ≤ 786432 ∧ firstNonzero h 20 12 = none then
      some { version := u32 h 8, gens := u32 h 16 % 256, len := u32 h 12 } else none

/-- The hash of a section matches its body (R526); the firmware of manufacture does. -/
def FwSec.hashOk (f : FwSec) : Bool :=
  match f.factory, f.header with
  | some _, _ => true
  | none, some i => f.torn.isEmpty && decide (sha256 (f.bytes 128 i.len) = f.bytes 32 32)
  | none, none => false

/-- The signature of a section verifies (R526, R527). -/
def FwSec.signed (f : FwSec) : Bool := f.factory.isSome || Config.signatureOk (f.bytes 0 64) (f.bytes 64 64)

/-- What is wrong with a firmware section, in the order of R533: 0xE2 header, 0xE3 hash, 0xE4 signature, 0xE6 generation. -/
def FwSec.bad (genNext : Nat) (f : FwSec) : Option Nat :=
  match f.header with
  | none => some 0xE2
  | some i =>
    if !f.hashOk then some 0xE3 else if !f.signed then some 0xE4 else if i.gens < genNext then some 0xE6 else none

/-- The firmware version of the running bank. -/
def State.fwVersion (s : State) : Nat :=
  match s.flash.fw[s.pwr.bank].header with
  | some i => i.version
  | none => 0

/-- The flash is busy (R530, R532, R536). -/
def State.flashBusy (s : State) : Bool :=
  s.flash.imgBusy.isSome || s.flash.saving.isSome || s.flash.verifying.isSome || s.flash.lcTarget.isSome

end Sys2Proof.Machine
end

