-- ==== Sys2Proof/Machine/LockImage.lean ====
section
/-! DEFINITION. The interlock configuration image (R336, R337): its check, and the reading of its fields. -/
namespace Sys2Proof.Machine

/-- A condition number that a mask may not name (R336). -/
def condReserved : Nat := 2 ^ 61 + 2 ^ 62 + 2 ^ 63 + 2 ^ 127

/-- The masks P and N of term `j`. -/
def termMask (i : List Byte) (j : Nat) : BitVec 128 × BitVec 128 :=
  (BitVec.ofNat 128 (natLE (slice i (0x10 + 32 * j) 16)), BitVec.ofNat 128 (natLE (slice i (0x20 + 32 * j) 16)))

/-- The first byte of a 128-bit mask at `o` in which bits of `m` are set. -/
def maskByte (o : Nat) (m : Nat) : Option Nat :=
  ((List.range 16).find? fun b => bitsAt m (8 * b) 8 ≠ 0).map (o + ·)

/-- What breaks R336 in term `j`: a reserved condition, or one condition in both masks. -/
def termBad (i : List Byte) (j : Nat) : Option Nat :=
  let o := 0x10 + 32 * j
  let p := natLE (slice i o 16)
  let n := natLE (slice i (o + 16) 16)
  minOff (maskByte o (p &&& condReserved)) (maskByte (o + 16) (n &&& (condReserved ||| p)))

/-- A byte at `o` outside `lo … hi`, 255 allowed when `none255`. -/
def byteBad (i : List Byte) (o lo hi : Nat) (none255 : Bool) : Nat × Bool :=
  (o, decide (u8 i o < lo ∨ hi < u8 i o) && !(none255 && decide (u8 i o = 255)))

/-- What breaks R336 in comparator `k`. -/
def cmpBad (i : List Byte) (k : Nat) : Option Nat :=
  let o := 0x890 + 24 * k
  let kind := u8 i o / 16
  let idx := u8 i o % 16
  let idxBad := match kind with
    | 1 | 2 => idx < 1 || 5 < idx
    | _ => false
  lowestBad i [(o + 2, 2)] [(o, decide (5 < kind) || idxBad), (o + 1, decide (1 < u8 i (o + 1))),
    (o + 16, decide (sext 64 (u64 i (o + 16)) < sext 64 (u64 i (o + 8))))]

/-- What breaks R336 in delay element `k`. -/
def delayBad (i : List Byte) (k : Nat) : Option Nat :=
  let o := 0x950 + 8 * k
  let named (b : Nat) := decide (126 < u8 i b ∨ (72 ≤ u8 i b ∧ u8 i b ≤ 87))
  lowestBad i [(o + 3, 1), (o + 6, 2)] [(o, decide (3 < u8 i o)), (o + 1, named (o + 1)), (o + 2, named (o + 2)),
    (o + 4, decide (u16 i (o + 4) = 0))]

/-- What breaks R337 in the fixed assignments, for the machine station or the car station. -/
def fixedBad (machine : Bool) (i : List Byte) : Option Nat :=
  let o := 0x9D0
  let m := if machine then
      [byteBad i o 0 14 false, byteBad i (o + 1) 0 15 false, byteBad i (o + 2) 0 15 false, byteBad i (o + 3) 15 15 false,
       byteBad i (o + 4) 15 15 false, byteBad i (o + 5) 0 31 true, byteBad i (o + 6) 0 31 true, byteBad i (o + 7) 0 47 true,
       byteBad i (o + 8) 0 47 true, byteBad i (o + 9) 0 1 false, byteBad i (o + 10) 1 255 false,
       (o + 12, decide (8760 < u16 i (o + 12)))]
    else
      [byteBad i o 15 15 false, byteBad i (o + 1) 15 15 false, byteBad i (o + 2) 15 15 false, byteBad i (o + 3) 0 15 false,
       byteBad i (o + 4) 0 15 false, byteBad i (o + 5) 255 255 false, byteBad i (o + 6) 255 255 false,
       byteBad i (o + 7) 255 255 false, byteBad i (o + 8) 255 255 false, byteBad i (o + 9) 0 0 false,
       (o + 12, decide (u16 i (o + 12) ≠ 0))]
  lowestBad i [(o + 11, 1), (o + 14, 2), (o + 20, 12)] m

/-- What breaks R336 in the output permits, the taps, the UCM monitor and the bridging test. -/
def monitorBad (i : List Byte) : Option Nat :=
  lowestBad i [(0xA18, 8), (0xA30, 16), (0xA46, 10)]
    ((List.range 32).map (fun k => byteBad i (0x9F0 + k) 0 15 false) ++
      [(0xA11, decide (15 < u8 i 0xA11)), (0xA13, decide (15 < u8 i 0xA13)), (0xA15, decide (15 < u8 i 0xA15)),
       byteBad i 0xA16 1 15 false, byteBad i 0xA17 0 126 true, byteBad i 0xA20 0 5 false, byteBad i 0xA21 0 126 false,
       byteBad i 0xA22 0 3 false, byteBad i 0xA23 0 126 true,
       (0xA24, decide (u32 i 0xA24 < 1000 ∨ 1000000 < u32 i 0xA24)),
       (0xA28, decide (u32 i 0xA28 < u32 i 0xA24 ∨ 1000000 < u32 i 0xA28)),
       (0xA2C, decide (u32 i 0xA2C < 1000 ∨ 1000000 < u32 i 0xA2C)), byteBad i 0xA40 0 63 true,
       (0xA41, (byteBad i 0xA41 0 11 true).2 || decide (u8 i 0xA41 = 255 ∧ u8 i 0xA42 = 255)), byteBad i 0xA42 0 11 true, byteBad i 0xA43 1 15 false,
       (0xA44, decide (u16 i 0xA44 < 100 ∨ 10000 < u16 i 0xA44))])

/-- The lowest image offset that breaks R336 or R337 (R338). -/
def imageOffending (role : BitVec 2) (i : List Byte) : Option Nat :=
  let o := lowestBad i [(5, 11), (0x888, 8)] [(0, decide (u32 i 0 ≠ 1)), (4, decide (u8 i 4 ≠ role.toNat ∨ u8 i 4 = 0 ∨ 2 < u8 i 4))]
  let o := (List.range 64).foldl (fun o j => minOff o (termBad i j)) o
  let o := (List.range 8).foldl (fun o k => minOff o (cmpBad i k)) o
  let o := (List.range 16).foldl (fun o k => minOff o (delayBad i k)) o
  minOff (minOff o (fixedBad (role = 1#2) i)) (monitorBad i)

/-- The length of an image. -/
def imageLen : Nat := 2640

/-- The terms of an image over a snapshot (R315). -/
def imageTerms (i : List Byte) (val ok : BitVec 128) : BitVec 64 :=
  maskOf 64 fun j =>
    let m := termMask i j
    (m.1 ≠ 0 || m.2 ≠ 0) && m.1 &&& ~~~(val &&& ok) = 0 && m.2 &&& ~~~(~~~val &&& ok) = 0

/-- The permits of an image over its terms (R315). -/
def imagePermits (i : List Byte) (t : BitVec 64) : BitVec 15 :=
  maskOf 15 fun p => u64 i (0x810 + 8 * p) &&& t.toNat ≠ 0

/-- The permits that a safe stop forces false: TORQUE, BRAKE0 and BRAKE1 (R322). -/
def forcedPermits (i : List Byte) : BitVec 15 :=
  maskOf 15 fun p => u8 i 0x9D0 = p || u8 i 0x9D1 = p || u8 i 0x9D2 = p

end Sys2Proof.Machine
end

