-- ==== Sys2Proof/Machine/Lock.lean ====
section
/-! DEFINITION. The interlock evaluator (R311-R348): conditions, matrix, monitors, safe stop, safe torque off, image load
and commit. -/
namespace Sys2Proof.Machine

/-- The LOCK block replaced. -/
def State.setLock (l : LockSt) (s : State) : State := { s with lock := l }

/-! ### Conditions (R311, R312) -/

/-- A tick-latched condition: value and validity (R312). -/
def State.tickCond (s : State) (i : Nat) : Bool × Bool :=
  match i with
  | 88 => (s.brakeOpen 0, s.machine)
  | 89 => (s.brakeOpen 1, s.machine)
  | 90 => (s.moving 0, true)
  | 91 => (s.moving 1, true)
  | 92 => (s.moving 2, true)
  | 93 => (s.moving 3, true)
  | 94 => ([2, 5, 7, 8, 9, 11].contains s.door.state, s.carStation)
  | 95 => (s.door.state = 6, s.carStation)
  | 96 => (match s.destSlot 2 with
      | some k => s.loop.slots[k].mode = 1 || s.loop.slots[k].mode = 2
      | none => false, s.machine)
  | 97 => (s.group.state ≠ 0 && s.group.p.getLsbD (s.group.car - 1), s.machine)
  | 98 => (s.lock.user.getLsbD 0, true)
  | 99 => (s.lock.user.getLsbD 1, true)
  | 100 => (s.lock.user.getLsbD 2, true)
  | 101 => (s.lock.user.getLsbD 3, true)
  | 102 => (s.lock.user.getLsbD 4, true)
  | 103 => (s.lock.user.getLsbD 5, true)
  | 104 => (s.sense.inZone, s.sense.landValid)
  | 105 => (s.sense.inLevel, s.sense.landValid)
  | 106 => (s.sense.mismatch, s.fld 0x40800 0 1 = 1 && s.sense.lvalid[srcIdx (s.fld 0x40800 4 4)] &&
      s.sense.lvalid[srcIdx (s.fld 0x40800 8 4)])
  | 108 => (s.sense.lvalid[1], true)
  | 109 => (s.sense.lvalid[2], true)
  | 110 => (s.sense.lvalid[3], true)
  | 111 => (s.sense.lvalid[4], true)
  | 112 => (s.sense.lvalid[5], true)
  | 113 => (s.sdUsed 0 && s.sdUsed 1 && s.sdUsed 2, s.machine)
  | 121 => (s.door.state = 3, s.carStation)
  | 122 => (s.ramp[0].homed, true)
  | 123 => (!s.loop.trip, s.machine)
  | _ => (false, false)

/-- The tick-latched conditions taken at a tick instant. -/
def State.lockTick (s : State) : State :=
  s.setLock { s.lock with tickVal := maskOf 128 fun i => (s.tickCond i).1, tickOk := maskOf 128 fun i => (s.tickCond i).2 }

/-- Hours of DUE in counts. -/
def hourCounts : Nat := 288000000000

/-- STO_TEST_OK, condition 118 (R333). -/
def State.stoTestOk (s : State) : Bool :=
  match s.image with
  | none => false
  | some i =>
    let due := u16 i 0x9DC
    if due = 0 then s.lock.stoResult ≠ 2
    else match s.lock.stoPass with
      | some p => decide (s.now < p + due * hourCounts)
      | none => false

/-- An enabled tap. -/
def tapOn (i : List Byte) (k : Nat) : Bool := bitAt (u16 i 0xA10) k

/-- A condition at an evaluation instant: value and validity (R312). -/
def State.cond (s : State) (i : List Byte) (c : Nat) : Bool × Bool :=
  if c < 48 then (s.inActive c, s.inValid c)
  else if c < 60 then (s.lock.tap[fidx 11 (c - 48)].level, tapOn i (c - 48) && !s.fio.linkLost)
  else if 64 ≤ c ∧ c < 72 then
    (match s.lock.cmp[fidx 7 (c - 64)] with
     | some b => (b, true)
     | none => (false, false))
  else if 72 ≤ c ∧ c < 88 then (s.lock.delay[fidx 15 (c - 72)].out, u8 i (0x950 + 8 * (c - 72)) ≠ 0)
  else match c with
    | 60 => (!s.lock.bypass, true)
    | 107 => (!s.mem.uncorr.isEmpty, true)
    | 114 => (s.link.state = 3, true)
    | 115 => (s.grant, true)
    | 116 => (!s.lock.bridge, true)
    | 117 => (!s.lock.ucm, true)
    | 118 => (s.stoTestOk, s.machine)
    | 119 => (s.pwr.mains, true)
    | 120 => (!s.fio.low.entered, true)
    | 124 => (!s.door.fault, s.carStation)
    | 125 => (s.safeStop, true)
    | 126 => (true, true)
    | _ => (s.lock.tickVal.getLsbD c, s.lock.tickOk.getLsbD c)

/-- The snapshot taken (R311). -/
def State.snapshot (i : List Byte) (s : State) : State :=
  s.setLock { s.lock with val := maskOf 128 fun c => (s.cond i c).1, ok := maskOf 128 fun c => (s.cond i c).2 }

/-- A condition's positive literal in the latest snapshot. -/
def LockSt.posLit (l : LockSt) (c : Nat) : Bool := l.val.getLsbD c && l.ok.getLsbD c
/-- A condition's negative literal in the latest snapshot. -/
def LockSt.negLit (l : LockSt) (c : Nat) : Bool := !l.val.getLsbD c && l.ok.getLsbD c

/-- One bit of the snapshot set. -/
def LockSt.putVal (c : Nat) (b : Bool) (l : LockSt) : LockSt :=
  { l with val := maskOf 128 fun k => if k = c then b else l.val.getLsbD k }

/-! ### Taps, comparators, delay elements -/

/-- A tap sample (R325): the raw level with the thresholds, and the state after FILT agreeing samples; the opening of an
alarm tap is the row SAFETY_CHAIN_OPEN. -/
def tapSample (on alarm : Bool) (filt mv : Nat) (t : TapSt) : TapSt :=
  if !on then ⟨false, false, 0, 0⟩
  else
    let raw := if 16000 ≤ mv then true else if mv ≤ 13000 then false else t.raw
    let cnt := if raw = t.raw then satAdd 255 t.cnt 1 else 1
    let flip := decide (filt ≤ cnt) && raw ≠ t.level && !(alarm && !raw)
    ⟨if flip then raw else t.level, raw, cnt, mv⟩

/-- The taps of an evaluation, whose changes wake (R514); their states stay while the field link is lost. -/
def State.sampleTaps (i : List Byte) (mv : Vector Nat 12) (s : State) : State :=
  if s.fio.linkLost then s else
  let f (k : Fin 12) : TapSt := tapSample (tapOn i k.val) (bitAt (u16 i 0xA12) k.val) (u8 i 0xA16) mv[k] s.lock.tap[k]
  (s.setLock { s.lock with tap := Vector.ofFn f }).noteIf ((List.finRange 12).any fun k => (f k).level ≠ s.lock.tap[k].level) 9

/-- The value that a comparator watches; none while it is invalid (R313). -/
def State.cmpValue (s : State) (kind idx : Nat) : Option Int :=
  match kind with
  | 1 => if s.srcValid idx then some (s.srcPos idx) else none
  | 2 => if s.srcValid idx then some (s.srcSpd idx) else none
  | 3 =>
    let q := s.loop.slots[slotIdx idx]
    if q.configured && q.d 3 = 1 then some (s.released (slotIdx idx)) else none
  | 4 => some s.sense.adc[fidx 15 idx]
  | 5 => if s.sense.loadValid then some s.sense.load else none
  | _ => none

/-- A comparator at an evaluation (R313). -/
def State.cmpStep (s : State) (i : List Byte) (k : Fin 8) : Option Bool :=
  let o := 0x890 + 24 * k.val
  match s.cmpValue (u8 i o / 16) (u8 i o % 16) with
  | none => none
  | some x =>
    let x : Int := if bitAt (u8 i (o + 1)) 0 then x.natAbs else x
    let lo := sext 64 (u64 i (o + 8))
    let hi := sext 64 (u64 i (o + 16))
    let h := u32 i (o + 4)
    some (match s.lock.cmp[k] with
      | some true => !(decide (x < lo - h) || decide (hi + h < x))
      | _ => decide (lo ≤ x ∧ x ≤ hi))

/-- Whole evaluations in TIME of a delay element. -/
def delayTime (i : List Byte) (k : Nat) : Nat := u16 i (0x954 + 8 * k) * 125

/-- A delay element at an evaluation (R314); the ends of TIME are rows of their own. -/
def delayStep (kind : Nat) (a b : Bool) (d : DelaySt) : DelaySt :=
  match kind with
  | 1 => if a then { d with cnt := d.cnt + 1 } else ⟨false, 0, false⟩
  | 2 => if a then ⟨true, 0, false⟩ else { d with cnt := d.cnt + 1 }
  | 3 =>
    let c := if a = b then 0 else d.cnt + 1
    let latched := d.latched && (a || b)
    ⟨!latched, c, latched⟩
  | _ => ⟨false, 0, false⟩

/-- The delay elements of an evaluation, and their outputs in the snapshot. -/
def State.delaySteps (i : List Byte) (s : State) : State :=
  let d : Vector DelaySt 16 := Vector.ofFn fun k : Fin 16 =>
    let o := 0x950 + 8 * k.val
    delayStep (u8 i o) (s.lock.posLit (u8 i (o + 1))) (s.lock.posLit (u8 i (o + 2))) s.lock.delay[k]
  s.setLock { s.lock with
    delay := d,
    val := maskOf 128 fun c => if 72 ≤ c ∧ c < 88 then d[fidx 15 (c - 72)].out else s.lock.val.getLsbD c }

/-! ### Monitors -/

/-- The landing of bridging events (R327). -/
def State.landingNo (s : State) : Nat := if s.sense.landValid then s.sense.landNear else 255

/-- The bypasses of a snapshot (R326): each series tap that is energised below a de-energised one, with the first such one. -/
def State.orderBad (s : State) (i : List Byte) : List (Nat × Nat) :=
  let ok (k : Nat) : Bool := bitAt (u16 i 0xA14) k && s.lock.ok.getLsbD (48 + k)
  let bad (k : Nat) : Option (Nat × Nat) :=
    if ok k && s.lock.val.getLsbD (48 + k) then
      ((List.range k).find? fun j => ok j && !s.lock.val.getLsbD (48 + j)).map (k, ·) else none
  let ex := u8 i 0xA17
  if ex ≠ 255 && s.lock.posLit ex then [] else (List.range 12).filterMap bad

/-- CHAIN_BYPASS (R326): posted for each bypass that was not there in the evaluation before. -/
def State.bypassStep (i : List Byte) (s : State) : State :=
  let b := s.orderBad i
  let new := b.filter fun x => !s.lock.order.contains x.1
  let s := new.foldl (fun s x => s.post 0x0706 (x.1 + 256 * x.2)) s
  s.setLock { s.lock with order := b.map (·.1), bypass := s.lock.bypass || !b.isEmpty }

/-- The trigger term of the bridging test; none while it is off (R336). -/
def bridgeTrigger (i : List Byte) : Option Nat := if u8 i 0xA40 = 255 then none else some (u8 i 0xA40)

/-- The trigger term is true in the latest evaluation. -/
def State.trigNow (s : State) (i : List Byte) : Bool :=
  match bridgeTrigger i with
  | some t => s.lock.term1.getLsbD t
  | none => false

/-- The bridging test fails (R327). -/
def State.bridgeFail (s : State) : State :=
  let n := s.landingNo
  let s := s.setLock { s.lock with bridge := true, bridgeRun := none }
  (s.post 0x0702 n).complete .lockTest1 .failed 0x78 n

/-- A new test starts (R327). -/
def State.bridgeStart (i : List Byte) (s : State) : State :=
  if s.lock.bridgeRun.isNone && s.trigNow i && !s.lock.trigPrev then
    s.setLock { s.lock with bridgeRun := some { start := s.now, cnt1 := 0, cnt2 := 0, ok1 := u8 i 0xA41 = 255,
                                                ok2 := u8 i 0xA42 = 255 } }
  else s

/-- The bridging test of an evaluation (R327); its expiry is the row BRIDGE_FAIL. -/
def State.bridgeStep (i : List Byte) (s : State) : State :=
  let s := s.bridgeStart i
  match s.lock.bridgeRun with
  | none => s
  | some r =>
    let c1 := if s.lock.negLit (48 + u8 i 0xA41) then r.cnt1 + 1 else 0
    let c2 := if s.lock.negLit (48 + u8 i 0xA42) then r.cnt2 + 1 else 0
    let r : BridgeRun := { r with cnt1 := c1, cnt2 := c2, ok1 := r.ok1 || decide (3 ≤ c1), ok2 := r.ok2 || decide (3 ≤ c2) }
    if r.ok1 && r.ok2 && decide (s.now ≤ r.start + u16 i 0xA44 * 80000) then
      let n := s.landingNo
      let s := s.setLock { s.lock with bridgeRun := none, voids := 0, passes := satAdd 0xFFFF s.lock.passes 1, landing := n }
      s.complete .lockTest1 .done 0 n
    else if !s.trigNow i then
      let v := satAdd 15 s.lock.voids 1
      let s := (s.setLock { s.lock with bridgeRun := none, voids := v }).post 0x070C s.landingNo
      if u8 i 0xA43 ≤ v then s.bridgeFail else s
    else s.setLock { s.lock with bridgeRun := some r }

/-- The literal of a condition with a polarity bit: negative when the bit is 1 (R336). -/
def LockSt.lit (l : LockSt) (c : Nat) (neg : Bool) : Bool := if neg then l.negLit c else l.posLit c

/-- The UCM monitor (R329, R330). -/
def State.ucmStep (i : List Byte) (p : Int) (s : State) : State :=
  let code := u8 i 0xA20
  let pol := u8 i 0xA22
  if code = 0 then s.setLock { s.lock with armed := none }
  else
    let pos := if 3 ≤ code then p else s.srcPos code
    let rel := u8 i 0xA23 ≠ 255 && s.lock.lit (u8 i 0xA23) (bitAt pol 1)
    let w := if rel then u32 i 0xA28 else u32 i 0xA24
    let s := match s.lock.armed with
      | none => s
      | some p0 =>
        let d := satAdd 0xFFFFFFFF (pos - p0).natAbs 0
        let d := if 0xFFFFFFFF < (pos - p0).natAbs then 0xFFFFFFFF else d
        let valid := s.srcValid code
        let s := if valid then s.setLock { s.lock with ucmD := d } else s
        if !valid || decide (w < d) || decide (u32 i 0xA2C < (s.srcSpd code).natAbs) then
          let s := if s.lock.ucm then s else s.post 0x0703 (if valid then d else 0xFFFFFFFF)
          s.setLock { s.lock with ucm := true }
        else s
    if s.lock.lit (u8 i 0xA21) (bitAt pol 0) then s.setLock { s.lock with armed := none }
    else match s.lock.armed with
      | none => s.setLock { s.lock with armed := some pos }
      | some _ => s

/-! ### Matrix, permits and outputs -/

/-- The terms of both evaluators over the latest snapshot (R315, R317). -/
def State.termStep (s : State) : State :=
  let t1 := match s.image with
    | some i => imageTerms i s.lock.val s.lock.ok
    | none => 0#64
  let t2 := match s.imageE2 with
    | some i => imageTerms i s.lock.val s.lock.ok ^^^ s.lock.devTerm
    | none => 0#64
  s.setLock { s.lock with term1 := t1, term2 := t2 }

/-- The permits of both evaluators, with those that a safe stop forces false (R315, R322). -/
def State.permitStep (s : State) : State :=
  let f (i : List Byte) : BitVec 15 := if s.safeStop then ~~~(forcedPermits i) else 0x7FFF#15
  let p1 := match s.image with
    | some i => imagePermits i s.lock.term1 &&& f i
    | none => 0#15
  let p2 := match s.imageE2 with
    | some i => (imagePermits i s.lock.term2 ^^^ s.lock.devPermit) &&& f i
    | none => 0#15
  s.setLock { s.lock with perm1 := p1, perm2 := p2 }

/-- TORQUE true in a permit vector. -/
def State.torque (s : State) (p : BitVec 15) : Bool :=
  match s.image with
  | some i => p.getLsbD (u8 i 0x9D0)
  | none => false

/-- The test of the safe torque off paths ends; both outputs are asserted by the next gate step (R332). -/
def State.stoTestEnd (st : Status) (detail further : Nat) (s : State) : State :=
  (s.setLock { s.lock with stoTest := none }).complete .lockTest2 st detail further

/-- The safe torque off outputs (R331, R332) and the brake and hoist gates (R319, R334). -/
def State.gateStep (s : State) : State :=
  let s := match s.lock.stoTest with
    | some x =>
      if s.safeStop || s.torque s.lock.perm1 || s.torque s.lock.perm2 then
        (s.setLock { s.lock with stoResult := 2, stoStep := x.1 }).stoTestEnd .failed 0x7A 0
      else s
    | none => s
  let free := s.machine && s.grant && !s.safeStop && s.image.isSome
  let drive (k : Nat) : Bool := match s.lock.stoTest with
    | some (n, _) => n = k
    | none => false
  let a := !(free && (s.torque s.lock.perm1 || drive 1))
  let b := !(free && (s.torque s.lock.perm2 || drive 3))
  let edge := b2n (a && !s.lock.stoA) + 2 * b2n (b && !s.lock.stoB)
  let s := s.setLock { s.lock with stoA := a, stoB := b }
  let s := if edge = 0 then s else s.post 0x0704 edge
  let gate (b : Fin 2) (v : Int) : Int := if s.brakeGate b then v else 0
  let loop := { s.loop with stoA := a, stoB := b, brakeDuty := Vector.ofFn fun b : Fin 2 => gate b s.loop.brakeDuty[b],
                            enabled := s.loop.enabled && s.hoistEnabled }
  { s with loop := loop }

/-- The evaluators disagree in the latest evaluation (R318): the lowest term, or 0x80 + the lowest permit. -/
def LockSt.disDetail (l : LockSt) : Option Nat :=
  let d := l.term1 ^^^ l.term2
  let e := l.perm1 ^^^ l.perm2
  match (List.range 64).find? d.getLsbD with
  | some j => some j
  | none => ((List.range 15).find? e.getLsbD).map (0x80 + ·)

/-- Terms, permits and outputs again after a happening at the evaluation instant. -/
def State.reMatrix (s : State) : State :=
  let s := s.termStep
  let s := match s.image with
    | some i => s.bridgeStart i
    | none => s
  (s.permitStep.gateStep.doorSwitch).doorPermitCheck

/-- The evaluators run: every 8 µs outside module reset and SLEEP (R311, R509). -/
def State.evaluates (s : State) : Bool :=
  !s.inReset && s.pwr.mode ≠ .sleep && decide (s.now % 640 = 0)

/-- One evaluation (R311-R330). -/
def State.evaluate (x : EvalIn) (s : State) : State :=
  let s := s.setLock { s.lock with devTerm := x.devTerm, devPermit := x.devPermit }
  let s := match s.image with
    | none =>
      s.setLock { (s.snapshot []).lock with tap := Vector.replicate 12 ⟨false, false, 0, 0⟩, cmp := Vector.replicate 8 none,
                                            order := [], armed := none, bridgeRun := none, trigPrev := false,
                                            delay := Vector.replicate 16 ⟨false, 0, false⟩ } |>.termStep
    | some i =>
      let s := s.setLock { s.lock with trigPrev := s.trigNow i }
      let s := s.sampleTaps i x.taps
      let s := s.setLock { s.lock with cmp := Vector.ofFn fun k : Fin 8 => s.cmpStep i k }
      let s := (s.snapshot i).delaySteps i
      ((s.termStep.bypassStep i).bridgeStep i).ucmStep i x.ucmPos
  let s := s.permitStep
  let l := s.lock
  let s := match l.disDetail with
    | none => s.setLock { l with disRun := 0 }
    | some _ => s.setLock { l with disRun := l.disRun + 1, disAt := some s.now, disag := satAdd 0xFFFFFFFF l.disag 1 }
  (s.gateStep.doorSwitch).doorPermitCheck

/-- INTERLOCK_EVALUATION: every 8 µs, both evaluators take a snapshot and evaluate terms, permits and monitors, and gate the
outputs. -/
def execInterlockEvaluation (dt : Nat) (x : EvalIn) (s : State) : Host.Outcome State Fault Refusal :=
  let s := s.advance dt
  if s.inReset then .next s else
  if s.evaluates then .next (s.evaluate x) else .next s

/-! ### Happenings at an evaluation -/

/-- BRIDGE_FAIL: BRIDGE_TIME expires with the trigger term still true (R327). -/
def execBridgeFail (dt : Nat) (s : State) : Host.Outcome State Fault Refusal :=
  let s := s.advance dt
  if s.inReset then .next s else
  match s.image, s.lock.bridgeRun with
  | some i, some r =>
    if s.trigNow i && decide (r.start + u16 i 0xA44 * 80000 ≤ s.now) then .next s.bridgeFail.reMatrix else .next s
  | _, _ => .next s

/-- LOCK_DISCREPANCY: the inputs of a discrepancy element have differed for TIME (R314). -/
def execLockDiscrepancy (dt : Nat) (k : Fin 16) (s : State) : Host.Outcome State Fault Refusal :=
  let s := s.advance dt
  if s.inReset then .next s else
  match s.image with
  | none => .next s
  | some i =>
    let d := s.lock.delay[k]
    if u8 i (0x950 + 8 * k.val) = 3 && !d.latched && decide (delayTime i k.val + 1 ≤ d.cnt) then
      let l := { s.lock with delay := s.lock.delay.set k ⟨false, d.cnt, true⟩ }
      .next (((s.setLock (l.putVal (72 + k.val) false)).post 0x070A k.val).reMatrix)
    else .next s

/-- DELAY_ELEMENT_EXPIRY: an on-delay or off-delay element reaches TIME (R314). -/
def execDelayElementExpiry (dt : Nat) (k : Fin 16) (s : State) : Host.Outcome State Fault Refusal :=
  let s := s.advance dt
  if s.inReset then .next s else
  match s.image with
  | none => .next s
  | some i =>
    let d := s.lock.delay[k]
    let kind := u8 i (0x950 + 8 * k.val)
    let due := (kind = 1 && !d.out && decide (delayTime i k.val + 1 ≤ d.cnt)) ||
      (kind = 2 && d.out && decide (delayTime i k.val ≤ d.cnt))
    if due then
      let l := { s.lock with delay := s.lock.delay.set k { d with out := kind = 1 } }
      .next (s.setLock (l.putVal (72 + k.val) (kind = 1))).reMatrix
    else .next s

/-- LOCK_DISAGREE: the evaluators have disagreed in two consecutive evaluations (R318). -/
def execLockDisagree (dt : Nat) (s : State) : Host.Outcome State Fault Refusal :=
  let s := s.advance dt
  if s.inReset then .next s else
  if 2 ≤ s.lock.disRun ∧ s.lock.disagree = false then
    let s := match s.lock.disDetail with
      | some d => s.post 0x0705 d
      | none => s
    .next (s.setLock { s.lock with disagree := true }).reMatrix
  else .next s

/-- SAFETY_CHAIN_OPEN: an alarm tap de-energises after FILT agreeing samples (R325). -/
def execSafetyChainOpen (dt : Nat) (k : Fin 12) (s : State) : Host.Outcome State Fault Refusal :=
  let s := s.advance dt
  if s.inReset then .next s else
  match s.image with
  | none => .next s
  | some i =>
    let t := s.lock.tap[k]
    if tapOn i k.val && bitAt (u16 i 0xA12) k.val && t.level && !t.raw && decide (u8 i 0xA16 ≤ t.cnt) then
      let l := { s.lock with tap := s.lock.tap.set k { t with level := false } }
      .next ((((s.noteWake 9).setLock (l.putVal (48 + k.val) false)).post 0x0701 k.val).bypassStep i).reMatrix
    else .next s

/-- LOCK_IMAGE_BAD: both evaluators run the all-false image and cause IMAGE applies (R321, R340). -/
def State.imageFails (n : Nat) (s : State) : State := (s.setLock { s.lock with imageBad := true }).post 0x0708 n

/-- LOCK_IMAGE_CHECK: each evaluator recomputes the CRC of its image (R321). `bad1`, `bad2`: the copy of E1, E2 has a wrong CRC
or an uncorrectable word. -/
def execLockImageCheck (dt : Nat) (bad1 bad2 : Bool) (s : State) : Host.Outcome State Fault Refusal :=
  let s := s.advance dt
  if s.inReset then .next s else
  if s.image.isNone then .next s
  else
    let s1 := if bad1 then s.imageFails 1 else s
    let s2 := if bad2 then s1.imageFails 2 else s1
    .next (if bad1 || bad2 then s2.reMatrix else s2)

/-! ### Loading and committing an image (R335-R341) -/

/-- Parked for interlock purposes (R335). -/
def State.parked (s : State) : Bool :=
  !s.anyMoving &&
    (if s.carStation then !([2, 5, 7, 8, 9, 11].contains s.door.state)
     else s.loop.brakeDuty[0] = 0 && s.loop.brakeDuty[1] = 0 && !(s.torque s.lock.perm1 && s.torque s.lock.perm2))

/-- The life-cycle state locks the image (R341). -/
def State.imageLocked (s : State) : Bool := s.flash.lc ≠ 1 && s.flash.lc ≠ 2

/-- The life-cycle state locks tests, causes and LOCK_USER (R341). -/
def State.testLocked (s : State) : Bool := s.flash.lc = 0 || s.flash.lc = 4

/-- LOCK_LOAD (R338). -/
def lockLoadHandler : Handler :=
  handler (fun _ p => lowestBad p [] [(0, decide (u32 p 0 % 8 ≠ 0) || !tableRange (u32 p 0) imageLen), (4, decide (u32 p 4 ≠ imageLen))])
    fun l s =>
      let p := l.payload
      if s.imageLocked then refuse .wrongState 0x70 s
      else
        let e := s.eccRead (u32 p 0) imageLen
        match e.1 with
        | some w => refuseWith .failed 1 w e.2
        | none =>
          let s := e.2
          let b := s.cellsFrom (u32 p 0) imageLen
          if (crc32c b).toNat ≠ u32 p 8 then refuse .failed 0x72 s
          else match imageOffending s.sys.role b with
            | some o => refuseWith .wrongState 0x75 o s
            | none => doneWith (s.setLock { s.lock with pend := some b })

/-- LOCK_LOAD: checks an interlock image and holds it as pending. -/
def execLockLoad (l : Letter) (s : State) : Host.Outcome State Fault Refusal := .next (s.serve 0x070 lockLoadHandler l)

/-- LOCK_COMMIT (R339). -/
def lockCommitHandler : Handler :=
  handler (fun _ _ => none)
    fun l s =>
      if s.imageLocked then refuse .wrongState 0x70 s
      else if !s.parked then refuse .wrongState 0x71 s
      else match s.lock.pend with
        | none => refuse .failed 0x73 s
        | some b =>
          if (crc32c b).toNat ≠ u32 l.payload 0 then refuse .failed 0x72 s
          else (.queued .lockCommit, s.setLock { s.lock with commit := some b })

/-- LOCK_COMMIT: copies the pending image to both evaluators when parked. -/
def execLockCommit (l : Letter) (s : State) : Host.Outcome State Fault Refusal := .next (s.serve 0x071 lockCommitHandler l)

/-- Both evaluators take an image into use (R339); no term of it has been true. -/
def State.switchImage (b : List Byte) (s : State) : State :=
  s.setLock { s.lock with image1 := some b, image2 := some b, crc := crc32c b, imageBad := false, commit := none,
                          delay := Vector.ofFn fun k : Fin 16 => ⟨u8 b (0x950 + 8 * k.val) = 3, 0, false⟩,
                          cmp := Vector.replicate 8 none, armed := none, voids := 0, bridgeRun := none, trigPrev := false,
                          disRun := 0, term1 := 0, term2 := 0 }

/-- LOCK_COMMITTED: the first evaluation at which both evaluators hold the image (R339, R342). `bad`: the CRC of a copy
differs. -/
def execLockCommitted (dt : Nat) (bad : Bool) (s : State) : Host.Outcome State Fault Refusal :=
  let s := s.advance dt
  if s.inReset then .next s else
  match s.lock.commit with
  | none => .next s
  | some b =>
    let drop := s.setLock { s.lock with commit := none }
    if !s.evaluates then .next s
    else if bad then .next (drop.complete .lockCommit .failed 0x72 0)
    else if !s.parked then .next (drop.complete .lockCommit .failed 0x74 0)
    else
      let s := s.switchImage b
      .next ((s.post 0x0709 s.lock.crc.toNat).complete .lockCommit .done 0 0)

/-! ### Tests and causes -/

/-- LOCK_TEST (R328, R332); the outputs of step 1 of test 2 are switched at the next evaluation (R319). -/
def lockTestHandler : Handler :=
  handler (fun _ p => lowestBad p [] [(0, decide (u32 p 0 < 1 ∨ 2 < u32 p 0))])
    fun l s =>
      if s.testLocked then refuse .wrongState 0x70 s
      else match s.image with
        | none => refuse .wrongState 0x76 s
        | some i =>
          if u32 l.payload 0 = 1 then
            (if (bridgeTrigger i).isNone then refuse .wrongState 0x76 s else (.queued .lockTest1, s))
          else if u8 i 0x9D7 = 255 ∨ u8 i 0x9D8 = 255 then refuse .wrongState 0x76 s
          else if ¬ (s.parked ∧ s.lock.stoA ∧ s.lock.stoB) then refuse .wrongState 0x71 s
          else (.queued .lockTest2, s.setLock { s.lock with stoTest := some (1, s.now) })

/-- LOCK_TEST with test 1: waits for the next bridging test to pass or fail. -/
def execLockTestBridge (l : Letter) (s : State) : Host.Outcome State Fault Refusal := .next (s.serve 0x072 lockTestHandler l)

/-- LOCK_TEST with test 2: starts the four-step safe torque off path test. -/
def execLockTestSto (l : Letter) (s : State) : Host.Outcome State Fault Refusal := .next (s.serve 0x072 lockTestHandler l)

/-- A feedback input says safe; none while it is invalid (R337). -/
def State.stoSafe (s : State) (i : List Byte) (o : Nat) : Option Bool :=
  let k := u8 i o
  if s.inValid k then some (s.inActive k != bitAt (u8 i 0x9D9) 0) else none

/-- STO_TEST_STEP: at the end of each T_FB step, the feedback is checked and the next step starts (R332). -/
def execStoTestStep (dt : Nat) (s : State) : Host.Outcome State Fault Refusal :=
  let s := s.advance dt
  if s.inReset then .next s else
  match s.image, s.lock.stoTest with
  | some i, some (n, at0) =>
    if s.now < at0 + u8 i 0x9DA * 80000 then .next s
    else
      let good := s.stoSafe i 0x9D7 = some (decide (n ≠ 1)) && s.stoSafe i 0x9D8 = some (decide (n ≠ 3))
      if !good then
        let s := s.setLock { s.lock with stoResult := 2, stoStep := n }
        .next ((s.post 0x0707 n).stoTestEnd .failed 0x79 n).gateStep
      else if n < 4 then .next (s.setLock { s.lock with stoTest := some (n + 1, s.now) }).gateStep
      else
        let s := s.setLock { s.lock with stoResult := 1, stoStep := 0, stoPass := some s.now, duePosted := false }
        .next (s.stoTestEnd .done 0 0).gateStep
  | _, _ => .next s

/-- STO_TEST_DUE: DUE hours have passed since the latest passed test (R333). -/
def execStoTestDue (dt : Nat) (s : State) : Host.Outcome State Fault Refusal :=
  let s := s.advance dt
  if s.inReset then .next s else
  match s.image, s.lock.stoPass with
  | some i, some p =>
    if u16 i 0x9DC ≠ 0 ∧ p + u16 i 0x9DC * hourCounts ≤ s.now ∧ s.lock.duePosted = false then
      .next ((s.setLock { s.lock with duePosted := true }).post 0x070D 0)
    else .next s
  | _, _ => .next s

/-- The source of the UCM monitor is valid (R324). -/
def State.ucmSourceOk (s : State) : Bool :=
  match s.image with
  | some i => u8 i 0xA20 = 0 || s.srcValid (u8 i 0xA20)
  | none => true

/-- The latched causes among the written bits of LOCK_STAT: bits 3-6. -/
def State.causeBits (s : State) (v : Nat) : Nat :=
  v &&& (8 * b2n s.lock.ucm + 16 * b2n s.lock.bridge + 32 * b2n s.lock.disagree + 64 * b2n s.lock.bypass)

/-- A write of 1 to cause bits is refused (R324, R341). -/
def State.causeRefused (s : State) (v : Nat) : Option (Status × Nat × Nat) :=
  let b := s.causeBits v
  let agreed := match s.lock.disAt with
    | none => true
    | some p => decide (p + 640000 < s.now)
  if v &&& 0x78 = 0 then none
  else if s.testLocked then some (.wrongState, 0x70, 0)
  else if b ≠ 0 && (s.anyMoving || (bitAt b 3 && !s.ucmSourceOk) || (bitAt b 6 && !s.lock.order.isEmpty) || (bitAt b 5 && !agreed)) then
    some (.wrongState, 0x77, 0)
  else none

/-- The cleared causes (R324). -/
def State.causeClear (v : Nat) (s : State) : State :=
  let b := s.causeBits v
  if b = 0 then s
  else
    (s.setLock { s.lock with ucm := s.lock.ucm && !bitAt b 3, bridge := s.lock.bridge && !bitAt b 4,
                             disagree := s.lock.disagree && !bitAt b 5, bypass := s.lock.bypass && !bitAt b 6 }).post 0x070B b

/-- The image of a configuration copy loaded into both evaluators (R340). -/
def State.imageLoad (img : Option (List Byte)) (s : State) : State :=
  match img with
  | none => s
  | some b => s.switchImage b

end Sys2Proof.Machine
end

