-- ==== Sys2Proof/Machine/Lane.lean ====
section
/-! DEFINITION. Lanes, the stile, state parcels, the heartbeat, takeover and the changing of the watch (R349-R383). -/
namespace Sys2Proof.Machine

/-- The LANE block replaced. -/
def State.setLane (l : LaneSt) (s : State) : State := { s with lane := l }

/-- A lane's condition: false lane A, true lane B. -/
def LaneSt.cond (l : LaneSt) (b : Bool) : LaneCond := if b then l.laneB else l.laneA

/-- A lane's condition replaced. -/
def LaneSt.putCond (b : Bool) (c : LaneCond) (l : LaneSt) : LaneSt := if b then { l with laneB := c } else { l with laneA := c }

/-- Faults of a lane within the last 24 h (R372). -/
def LaneSt.faults (l : LaneSt) (b : Bool) : List Postmark := if b then l.faultsB else l.faultsA

/-- The faults of a lane replaced. -/
def LaneSt.putFaults (b : Bool) (f : List Postmark) (l : LaneSt) : LaneSt :=
  if b then { l with faultsB := f } else { l with faultsA := f }

/-- A lane's fault count starts at 0 again (R372). -/
def LaneSt.clearCount (b : Bool) (now : Postmark) (l : LaneSt) : LaneSt :=
  if b then { l with clearB := some now } else { l with clearA := some now }

/-- A lane reset of a lane: its keeper's view is cleared (R370). -/
def LaneSt.resetLane (b : Bool) (l : LaneSt) : LaneSt :=
  { l.putCond b .resetting with viewEpoch := 0, viewSlot := false, viewJpos := 0, hbMissed := 0, hbOk := 0, stale := false }

/-- The lane that holds the active role, if the stile is in state 0 or 1. -/
def LaneSt.holder (l : LaneSt) : Option Bool :=
  match l.stile with
  | .aActive => some false
  | .bActive => some true
  | _ => none

/-- The lane that receives the active role in a hand-over. -/
def LaneSt.receiver (l : LaneSt) : Option Bool :=
  match l.stile with
  | .handoverAB => some true
  | .handoverBA => some false
  | _ => none

/-- The stile state in which a lane holds the role, and in which it receives it. -/
def stileOf (b : Bool) : Stile := if b then .bActive else .aActive
/-- The hand-over to a lane. -/
def handTo (b : Bool) : Stile := if b then .handoverAB else .handoverBA

/-- A day in counts. -/
def dayCounts : Nat := 6912000000000
/-- A minute in counts. -/
def minuteCounts : Nat := 4800000000

/-- A parcel with a valid seal (R357), `bad`: a word of it is uncorrectable. -/
def State.sealOk (s : State) (p : Option Parcel) (bad : Bool) : Bool :=
  match p with
  | none => false
  | some p => !bad && p.fw = s.fwVersion && p.gen = s.sys.gen && p.role = s.sys.role.toNat && decide (p.epoch ≤ s.sys.tickNo)

/-- The address of a parcel slot (R36). -/
def slotBaseAddr (b : Bool) : Nat := 0x10000000 + 0x20000 * b2n b

/-- An uncorrectable word lies in a parcel slot, so that it holds no valid seal until the next one (R357, R568). -/
def State.slotHard (s : State) (b : Bool) : Bool :=
  s.mem.hard.any fun w => decide (slotBaseAddr b ≤ w ∧ w < slotBaseAddr b + 0x20000)

/-- The parcel of a slot. -/
def LaneSt.slot (l : LaneSt) (b : Bool) : Option Parcel := if b then l.slot1 else l.slot0

/-- A lane service gap begins: every letter that still owes a receipt has it, a queued one, an outstanding action and a final receipt
that waits for the lane (R81, R367; notes/assumptions/86.md), and the letter in service loses its charge (R360). -/
def State.gapBegins (s : State) : State :=
  { s with lb := { s.lb with
      queue := s.lb.queue.map (fun q => { q with gap := true }),
      outst := s.lb.outst.map (fun o => { o with gap := true }),
      deferred := s.lb.deferred.map (fun d => { d with out := { d.out with gap := true } }), charged := 0 } }

/-! ### Sealing and the heartbeat -/

/-- The start of the seal interval of the tick in progress (R22). -/
def State.sealFrom (s : State) : Postmark := s.sys.tickAt + s.tickLen - 320

/-- The slot that the next seal is written into (R356). -/
def LaneSt.sealSlot (l : LaneSt) : Bool :=
  match l.lastSlot with
  | some x => !x
  | none => false

/-- The slot that the seal of tick `k` was being written into is left without a valid seal (R356). -/
def LaneSt.tear (k : Nat) (l : LaneSt) : LaneSt :=
  if l.sealSlot then { l with slot1 := none, torn1 := some k } else { l with slot0 := none, torn0 := some k }

/-- A fault inside the seal interval, before the seal is complete, cuts the seal short (R356, R364). -/
def State.sealCut (s : State) : State :=
  if s.serving && !s.lane.sealed && decide (s.sealFrom ≤ s.now) then s.setLane (s.lane.tear s.sys.tickNo) else s

/-- PARCEL_SEAL: the active lane seals its policy state in the last 4 µs of the tick (R356). `units`: the body length in 256
bytes. -/
def execParcelSeal (dt : Nat) (units : Fin 512) (s : State) : Host.Outcome State Fault Refusal :=
  let s := s.advance dt
  if s.inReset then .next s else
  match s.lane.holder with
  | none => .next s
  | some b =>
    if s.serving && !s.lane.sealed && decide (s.sealFrom ≤ s.now) then
      let n := s.lane.sealSlot
      let p : Parcel := { laneB := b, bodyLen := units.val * 256, epoch := s.sys.tickNo, pm := s.now, jpos := s.lane.jnext,
                          fw := s.fwVersion, gen := s.sys.gen, role := s.sys.role.toNat }
      let l := if n then { s.lane with slot1 := some p, torn1 := none } else { s.lane with slot0 := some p, torn0 := none }
      let s := s.eccClear (slotBaseAddr n) 0x20000
      .next (s.setLane { l with lastSlot := some n, sealed := true, sealEpoch := s.sys.tickNo })
    else .next s

/-- SEAL_MISSED (R24): the slot being written is left without a valid seal. -/
def State.sealTick (s : State) : State :=
  let due := s.serving
  let s := if due && !s.lane.sealed then
      let l := s.lane.tear s.sys.tickNo
      (s.setLane { l with cntSealMiss := satAdd 0xFF l.cntSealMiss 1 }).post 0x0808 (b2n s.lane.sealSlot)
    else s
  s.setLane { s.lane with sealed := !due }

/-- The keeper's view set to a sealed header (R362). -/
def LaneSt.putView (n : Bool) (p : Parcel) (l : LaneSt) : LaneSt :=
  { l with viewEpoch := p.epoch, viewSlot := n, viewJpos := p.jpos }

/-- The heartbeat of a tick instant (R362, R363); `arrives`: the link delivers it. -/
def State.heartbeat (arrives : Bool) (s : State) : State :=
  match s.lane.holder with
  | none => s
  | some b =>
    if s.pwr.phase ≠ .run || (s.pwr.mode ≠ .run && s.pwr.mode ≠ .doze) then s
    else
      let n := s.lane.lastSlot.getD false
      let l := s.lane
      match l.slot n with
      | some p =>
        if arrives && l.lastSlot.isSome && s.sealOk (some p) (s.slotHard n) && decide (l.viewEpoch ≤ p.epoch) then
          let l := { l.putView n p with hbMissed := 0, hbOk := l.hbOk + 1 }
          if l.stale && decide (2 ≤ l.hbOk) then (s.setLane { l with stale := false }).post 0x0809 (b2n (!b)) else s.setLane l
        else s.setLane { l with hbMissed := l.hbMissed + 1, hbOk := 0 }
      | none => s.setLane { l with hbMissed := l.hbMissed + 1, hbOk := 0 }

/-- The watchdog of the active lane at a tick instant (R350): `service`: the firmware has serviced it since the one before.
Suspended in DOZE and PARK (R512), its count stands (DEDUCED, notes/assumptions/97.md). -/
def State.wdogTick (service : Bool) (s : State) : State :=
  if s.serving then
    s.setLane { s.lane with wdog := if service then 0 else s.lane.wdog + 1 }
  else s

/-- The lane's part of a tick instant (R24, R350, R361, R362). -/
def State.laneTick (arrives service : Bool) (s : State) : State :=
  let s := ((s.heartbeat arrives).sealTick).wdogTick service
  (s.setLane { s.lane with jtick := 0 }).flushDeferred

/-- PARCEL_STALE, at a tick instant: no heartbeat was accepted at three consecutive ones (R363). -/
def execParcelStale (dt : Nat) (s : State) : Host.Outcome State Fault Refusal :=
  let s := s.advance dt
  if s.inReset then .next s else
  match s.lane.holder with
  | none => .next s
  | some b =>
    if s.now = s.sys.tickAt ∧ 3 ≤ s.lane.hbMissed ∧ s.lane.stale = false then
      let l := s.lane
      let s := s.setLane { l with stale := true, cntLinkFault := satAdd 0xFF l.cntLinkFault 1 }
      .next ((s.post 0x0804 (b2n (!b))).post 0x0805 l.viewEpoch)
    else .next s

/-! ### Faults and takeovers -/

/-- A fault of a lane is counted (R372). -/
def State.countFault (b : Bool) (s : State) : State :=
  let f := (s.lane.faults b).filter fun p => decide (s.now < p + dayCounts)
  s.setLane (s.lane.putFaults b (f ++ [s.now]))

/-- A lane that faulted gets a lane reset, or is marked unfit at its third fault within 24 h (R372). -/
def State.afterFault (b : Bool) (s : State) : State :=
  if 3 ≤ (s.lane.faults b).length then (s.setLane (s.lane.putCond b .unfit)).post 0x080C (b2n b)
  else s.setLane (s.lane.resetLane b)

/-- NO_LANE: the stile withdraws the output enables, and the lanes that are not unfit are reset (R373). The service gap counts
from the fault report that began it. -/
def State.noLane (why : Nat) (s : State) : State :=
  let from0 := match s.lane.hand with
    | some h => h.pm
    | none => s.now
  let h : Handover := { pm := from0, epoch := s.sys.tickNo, planned := false, fromNone := true }
  let s := (s.setLane { s.lane with stile := .none, hand := some h }).post 0x080A why
  let reset (b : Bool) (s : State) : State :=
    if s.lane.cond b = .unfit then s else s.afterFault b
  (reset true (reset false s)).gapBegins.doorSwitch

/-- A watch change that was due or decided is dropped: the scheduled one waits for its next minute (R380), the letter ends FAILED
(notes/assumptions/66.md). -/
def State.watchDrop (s : State) : State :=
  let go := s.lane.watchGo
  let s := s.setLane { s.lane with watchDue := none, watchGo := false }
  if go then s.complete .watchChange .failed 0x81 0 else s

/-- A fault report of the active lane: a takeover, or no lane (R352). -/
def State.laneFails (b : Bool) (s : State) : State :=
  let s := (s.sealCut.countFault b).gapBegins
  let s := if s.lane.cond (!b) = .ready then
      let l := (s.lane.putCond b .held).putCond (!b) .active
      s.setLane { l with stile := handTo (!b), hand := some { pm := s.now, epoch := s.sys.tickNo, planned := false, fromNone := false } }
    else s.noLane 1
  s.watchDrop

/-- The private-memory word whose uncorrectable error makes a lane fault, counted and posted (R38). -/
def State.laneWord (word : Option Nat) (s : State) : State :=
  match word with
  | some w => s.eccFound w
  | none => s

/-- LANE_FAULT: a lockstep mismatch, or an uncorrectable word of private memory (R349). In a hand-over, the incoming lane's fault
returns the role (R378) or leaves no lane (R373); the held lane's fault is ignored. -/
def execLaneFault (dt : Nat) (x : LaneFaultIn) (s : State) : Host.Outcome State Fault Refusal :=
  let s := s.advance dt
  if s.inReset then .next s else
  if s.pwr.mode = .sleep then .next s
  else match s.lane.holder with
  | some b =>
    if b = x.laneB then
      .next (((s.laneWord x.word).post 0x0801 (b2n b)).laneFails b)
    else .next s
  | none =>
    match s.lane.receiver, s.lane.hand with
    | some b, some h =>
      if b ≠ x.laneB then .next s
      else
        let s := ((s.laneWord x.word).post 0x0801 (b2n b)).countFault b
        if h.planned then
          let l := s.lane.putCond (!b) .active
          let s := (s.setLane { l with stile := stileOf (!b), hand := none }).afterFault b
          .next (s.complete .watchChange .failed 0x81 0).flushDeferred
        else .next (s.noLane 2)
    | _, _ => .next s

/-- WDOG_EXPIRED: at the tick instant that is the WDT-th in succession without a service, the watchdog of the active lane expires
(R350); suspended in DOZE and PARK. -/
def execWdogExpired (dt : Nat) (s : State) : Host.Outcome State Fault Refusal :=
  let s := s.advance dt
  if s.inReset then .next s else
  match s.lane.holder with
  | some b =>
    if s.serving ∧ s.now = s.sys.tickAt ∧ s.fld 0x80030 0 4 ≤ s.lane.wdog then
      .next ((s.post 0x0802 (b2n b)).laneFails b)
    else .next s
  | none => .next s

/-- The newest slot with a valid seal of epoch `e` or later. -/
def State.newestSlot (s : State) (bad0 bad1 : Bool) (e : Nat) : Option (Bool × Parcel) :=
  let ok (b bad : Bool) : Option (Bool × Parcel) :=
    match s.lane.slot b with
    | some p => if s.sealOk (some p) bad && decide (e ≤ p.epoch) then some (b, p) else none
    | none => none
  match ok false (bad0 || s.slotHard false), ok true (bad1 || s.slotHard true) with
  | some x, some y => if x.2.epoch ≤ y.2.epoch then some y else some x
  | some x, none => some x
  | none, y => y

/-- The entries of the journal from number `j` on, `n` of them, read by the replay: whether one is uncorrectable (R364, R366). -/
def State.replayRead (s : State) : Nat → Nat → Bool × State
  | 0, _ => (false, s)
  | n + 1, j =>
    let e := s.eccRead (0x10040000 + 64 * (j % 1024)) 64
    if e.1.isSome then (true, e.2) else e.2.replayRead n (j + 1)

/-- A slot chosen at a takeover: its epoch against the tick `k` of the fault, its body loaded, its journal replayed (R364, R366);
none in the answer: the body holds an uncorrectable word, so the slot counts as without a valid seal (R357). -/
def State.takeLoad (k : Nat) (replayBad : Bool) (x : Bool × Parcel) (s : State) : Option (Except Nat (Bool × Parcel)) × State :=
  if x.2.epoch + 1 < k then (some (.error 3), s)
  else
    let e := s.eccRead (slotBaseAddr x.1 + 256) x.2.bodyLen
    if e.1.isSome then (none, e.2)
    else
      let r := e.2.replayRead (s.lane.jnext - x.2.jpos) x.2.jpos
      (some (if replayBad || r.1 then .error 4 else .ok x), r.2)

/-- The decision of R364 with the reads it makes: the slot to resume from, or the reason for a safe stop. `bad0`, `bad1`,
`replayBad`: the CRC of a header or of an entry fails; `errs`: the words in which these reads find a new uncorrectable error. -/
def State.takeDecision (h : Handover) (bad0 bad1 replayBad : Bool) (errs : List Nat) (s : State) :
    Except Nat (Bool × Parcel) × State :=
  if h.fromNone then (.error 5, s)
  else if s.lane.stale then (.error 1, s)
  else
    let hd (b : Bool) : Bool := errs.any fun w => touches (slotBaseAddr b) 256 w
    let pick (b0 b1 : Bool) := s.newestSlot (bad0 || hd false || b0) (bad1 || hd true || b1) s.lane.viewEpoch
    let t := errs.foldl (fun t w => t.putHard w) s
    let t := ((t.eccRead (slotBaseAddr false) 256).2.eccRead (slotBaseAddr true) 256).2
    match pick false false with
    | none => (.error 2, t)
    | some x =>
      match t.takeLoad h.epoch replayBad x with
      | (some d, t) => (d, t)
      | (none, t) =>
        match pick (!x.1) x.1 with
        | none => (.error 2, t)
        | some y =>
          match t.takeLoad h.epoch replayBad y with
          | (some d, t) => (d, t)
          | (none, t) => (.error 2, t)

/-- The length of a hand-over that loads a body of `len` bytes and replays `entries`, in 2.5 ns (R365). -/
def handTime (len entries : Nat) : Nat := 5200 + len / 16 + 10 * entries

/-- The length of a takeover with an outcome of its decision, in 2.5 ns. -/
def handLen (x : Except Nat (Bool × Parcel)) (entries : Nat) : Nat :=
  match x with
  | .error _ => handTime 0 0
  | .ok p => handTime p.2.bodyLen entries

/-- The lane holds the role again, `len` after the hand-over began, or later where a lane had to become ready: the gap in 10 ns is
recorded, and the seal of the tick is due unless its interval has begun (R367). -/
def State.grantRole (b : Bool) (kind : Bool) (reason : Nat) (h : Handover) (len : Nat) (s : State) : State :=
  let gap := if s.now = h.pm + len / 5 then len / 4 else (s.now - h.pm) * 5 / 4
  let l := s.lane.putCond b .active
  s.setLane { l with stile := stileOf b, hand := none, sealed := decide (s.sealFrom < s.now), lastGap := min gap 0xFFFF,
                     lastReason := reason, lastLane := b, lastKind := kind, wdog := 0 }

/-- Every two-stage letter that still holds a reserved receipt entry is answered FAILED, detail 0x80 (R368); the receipt of an
ABORT, a one-stage letter, keeps what was decided (R367). -/
def State.failAll (s : State) : State :=
  let isAbort (d : Deferred) : Bool := d.out.op16 % 4096 = 0x0F0
  let waiting := (s.lb.deferred.filter fun d => !isAbort d).map (·.out) ++ s.lb.outst
  let s := { s with lb := { s.lb with deferred := s.lb.deferred.filter isAbort, outst := [] } }
  waiting.foldl (fun s o => s.finalReceipt { out := o, status := .failed, detail := 0x80, further := 0, pm := s.now }) s

/-- The lane's letters of a takeover into safe stop (R368). -/
def State.stopLetters (s : State) : State :=
  let s := (List.finRange 4).foldl (fun s u =>
    if s.moving u && !s.doorOwns u then s.post5 0x033 1 [BitVec.ofNat 8 u.val, 1, 0, 0] else s) s
  if s.carStation then s.post5 0x043 1 [] else s

/-- A takeover into safe stop takes effect at the grant (R368). -/
def State.takeoverStop (reason : Nat) (s : State) : State :=
  let s := s.setLane { s.lane with tkstop := true, watchDue := none, watchGo := false }
  let s := (s.post 0x0806 reason).failAll
  let s := { s with door := { s.door with hold := 0, holdAt := none, firstHold := none, nudge := false },
                    group := { s.group with ownCar := { s.group.ownCar with inService := false } } }
  s.stopLetters

/-- TAKEOVER: the new lane has finished boot, decision, load and replay, and is granted the active role, at the instant that R365
gives, or, in state NONE, once a lane is ready (R364-R368, R373). `bad0`,
`bad1`: the seal of a header does not match. -/
def execTakeover (dt : Nat) (bad0 bad1 : Bool) (replay : ReplayIn) (s : State) : Host.Outcome State Fault Refusal :=
  let s := s.advance dt
  if s.inReset then .next s else
  match s.lane.hand with
  | none => .next s
  | some h =>
    let dest := match s.lane.receiver with
      | some b => some b
      | none => if h.fromNone then (if s.lane.laneA = LaneCond.ready then some false else if s.lane.laneB = LaneCond.ready then some true else none) else none
    match dest with
    | none => .next s
    | some b =>
      let d := s.takeDecision h bad0 bad1 replay.bad replay.errs
      let x := d.1
      let n := match x with
        | .ok p => s.lane.jnext - p.2.jpos
        | .error _ => 0
      let due := h.pm + handLen x n / 5
      if h.planned ∨ s.now < due ∨ (h.fromNone = false ∧ due < s.now) then .next s
      else
        let faulted := s.lane.cond (!b) = LaneCond.held
        let reason := match x with
          | .ok _ => 0
          | .error r => r
        let s := d.2.grantRole b false reason h (handLen x n)
        let s := s.setLane { s.lane with cntTakeover := satAdd 0xFF s.lane.cntTakeover 1 }
        let s := if faulted then s.afterFault (!b) else s
        match x with
        | .ok (n, p) =>
          let s := s.setLane { s.lane with lastSlot := some n }
          .next ((s.post 0x0803 (b2n b + 256 * (p.epoch % 2 ^ 24))).flushDeferred)
        | .error r => .next ((s.post 0x0803 (b2n b)).takeoverStop r)

/-! ### Lane resets -/

/-- STANDBY_READY: a lane reset ends (R370): the lane is ready, or unfit with the failed step (`failed` + 1). -/
def execStandbyReady (dt : Nat) (laneB : Bool) (failed : Fin 4) (s : State) : Host.Outcome State Fault Refusal :=
  let s := s.advance dt
  if s.inReset then .next s else
  if s.lane.cond laneB ≠ .resetting then .next s
  else if failed.val ≠ 0 then
    .next ((s.setLane (s.lane.putCond laneB .unfit)).post 0x080C (b2n laneB + 256 * (failed.val + 1)))
  else
    -- its keeper has accepted a heartbeat after the view was cleared; in NONE no lane sends one
    if s.lane.stile = .none ∨ 0 < s.lane.hbOk then
      .next ((s.setLane ((s.lane.putCond laneB .ready).clearCount laneB s.now)).post 0x080B (b2n laneB))
    else .next s

/-- STILE_FAULT: the two arbiters disagree (R353): no lane, no output enables, until a module reset. -/
def execStileFault (dt : Nat) (s : State) : Host.Outcome State Fault Refusal :=
  let s := s.advance dt
  if s.inReset then .next s else
  if s.lane.stile = .fault then .next s
  else
    let s := s.sealCut
    let s := s.setLane { s.lane with stile := .fault, laneA := .held, laneB := .held, hand := none }
    .next ((s.post 0x080E 0).gapBegins.doorSwitch)

/-! ### The changing of the watch -/

/-- Counts since local midnight (R375). -/
def State.dayTime (s : State) : Nat := (((s.now : Int) - (s.pair 0x80028 : Int)) % (dayCounts : Int)).toNat

/-- Counts since the latest start of the minute of LANE_WATCH.MINUTE (R375). -/
def State.minuteAge (s : State) : Nat := (s.dayTime + dayCounts - s.fld 0x80020 0 11 * minuteCounts) % dayCounts

/-- The conditions of R376 besides being parked. -/
def State.watchFree (s : State) : Bool :=
  match s.lane.holder with
  | some b => s.lane.cond (!b) = .ready && !s.lane.stale && !s.lane.tkstop
  | none => false

/-- WATCH_CHANGE (R376). -/
def watchChangeHandler : Handler :=
  handler (fun _ _ => none)
    fun _ s =>
      if !s.parked then refuse .wrongState 0x82 s
      else if !s.watchFree then refuse .wrongState 0x83 s
      else (.queued .watchChange, s.setLane { s.lane with watchGo := true })

/-- WATCH_CHANGE: starts a watch change at the end of the tick. -/
def execWatchChange (l : Letter) (s : State) : Host.Outcome State Fault Refusal := .next (s.serve 0x080 watchChangeHandler l)

/-- WATCH_SET (R375). -/
def watchSetHandler : Handler :=
  handler (fun _ p => lowestBad p [] [(0, decide (1439 < u16 p 0)), (2, decide (1 < u16 p 2))])
    fun l s => doneWith ((s.setFld 0x80020 0 11 (u16 l.payload 0)).setFld 0x80020 16 1 (u16 l.payload 2))

/-- WATCH_SET: sets the minute of day and the enable of the daily watch change. -/
def execWatchSet (l : Letter) (s : State) : Host.Outcome State Fault Refusal := .next (s.serve 0x081 watchSetHandler l)

/-- WATCH_DUE: the scheduled minute begins (R376). -/
def execWatchDue (dt : Nat) (s : State) : Host.Outcome State Fault Refusal :=
  let s := s.advance dt
  if s.inReset then .next s else
  if s.pwr.phase = .run ∧ s.fld 0x80020 16 1 = 1 ∧ s.minuteAge < s.instantLen then
    .next (s.setLane { s.lane with watchDue := some s.now })
  else .next s

/-- WATCH_CHANGE_START: at the tick instant after the seal, the active lane requests the planned hand-over (R376, R377). A change
that a letter decided needs the standby lane alone, and ends FAILED without it. -/
def execWatchChangeStart (dt : Nat) (s : State) : Host.Outcome State Fault Refusal :=
  let s := s.advance dt
  if s.inReset then .next s else
  match s.lane.holder with
  | none => .next s
  | some b =>
    if ¬ (s.serving ∧ s.now = s.sys.tickAt ∧ s.lane.sealEpoch + 1 = s.sys.tickNo) then .next s
    else if s.lane.watchGo ∧ s.lane.cond (!b) ≠ .ready then .next s.watchDrop
    else if s.lane.watchGo ∨ (s.lane.watchDue.isSome ∧ s.parked ∧ s.watchFree) then
      let l := (s.lane.putCond b .held).putCond (!b) .active
      .next (s.setLane { l with stile := handTo (!b), watchGo := false, watchDue := none,
                                hand := some { pm := s.now, epoch := s.sys.tickNo, planned := true, fromNone := false } }).gapBegins
    else .next s

/-- WATCH_CHANGED: the grant of a planned hand-over (R377). -/
def execWatchChanged (dt : Nat) (s : State) : Host.Outcome State Fault Refusal :=
  let s := s.advance dt
  if s.inReset then .next s else
  match s.lane.hand, s.lane.receiver with
  | some h, some b =>
    let len := handTime (match s.lane.slot (s.lane.lastSlot.getD false) with
      | some p => p.bodyLen
      | none => 0) 0
    if h.planned = false ∨ s.now ≠ h.pm + len / 5 then .next s
    else
      let s := s.grantRole b true 0 h len
      let l := s.lane.resetLane (!b)
      let s := s.setLane { l with cntWatch := satAdd 0xFF l.cntWatch 1 }
      .next (((s.post 0x0807 (b2n b)).complete .watchChange .done 0 0).flushDeferred)
  | _, _ => .next s

/-- WATCH_SKIPPED: the scheduled change was not possible within WINDOW minutes (R376). -/
def execWatchSkipped (dt : Nat) (s : State) : Host.Outcome State Fault Refusal :=
  let s := s.advance dt
  if s.inReset then .next s else
  match s.lane.watchDue with
  | none => .next s
  | some p =>
    let w := s.fld 0x80020 24 8
    if s.now = p + w * minuteCounts then .next ((s.setLane { s.lane with watchDue := none }).post 0x080D w) else .next s

/-! ### What letters and registers do -/

/-- MODULE_RESET kind 2 (R372). -/
def State.laneResetRefused (s : State) : Option Nat :=
  if s.lane.laneA = .resetting || s.lane.laneB = .resetting || s.lane.receiver.isSome then some 0x84
  else if s.lane.holder.isNone then some 0x83
  else none

/-- A lane reset of the lane that does not hold the active role; the one of a letter also forgets the lane's faults
(notes/assumptions/65.md). -/
def State.laneReset (forget : Bool) (s : State) : State :=
  match s.lane.holder with
  | some b =>
    let l := s.lane.resetLane (!b)
    s.setLane (if forget then l.putFaults (!b) [] else l)
  | none => s

/-- A REG_WRITE of 0 to LANE_TKSTOP is refused (R369). -/
def State.tkstopRefused (s : State) (v : Nat) : Option (Status × Nat × Nat) :=
  if v % 2 = 0 ∧ s.lane.tkstop ∧ (s.anyMoving ∨ s.lane.holder.isNone) then some (.wrongState, 0x83, 0) else none

/-- A REG_WRITE of 0 clears cause TAKEOVER; writing 1 is ignored (R369). -/
def State.tkstopClear (v : Nat) (s : State) : State :=
  if v % 2 = 0 ∧ s.lane.tkstop then (s.setLane { s.lane with tkstop := false }).post 0x070B 0x200 else s

end Sys2Proof.Machine
end

