-- ==== Sys2Proof/Machine/Intake.lean ====
section
/-! DEFINITION. The letterbox (R48-R56, R72, R73, R78, R80): arrival of letters on every port, the host SPI port, CAN segments,
the service UART, and the sessions. -/
namespace Sys2Proof.Machine

/-! ### Arrival (R72) -/

/-- The letterbox takes letters: out of module reset and not in SLEEP (R509, R524). -/
def State.boxUp (s : State) : Bool :=
  (s.pwr.phase = .released || s.pwr.phase = .run || s.pwr.phase = .recovery) && s.pwr.mode ≠ .sleep

/-- The host port serves the notice board: as the letterbox, and while invalid straps hold both lanes (R4). -/
def State.portUp (s : State) : Bool := s.boxUp || s.pwr.phase = .strapBad

/-- The letter that bytes carry (R55). -/
def letterOf (port : Fin 6) (src : Addr) (b : List Byte) : Letter :=
  let n := u16 b 2
  { src := src, dt := 0, port := port, cls := ⟨u16 b 0 / 4096 % 4, Nat.mod_lt _ (by decide)⟩, seq := BitVec.ofNat 16 (u16 b 4),
    quiet := bitAt (u8 b 7) 0, finalOnly := bitAt (u8 b 7) 1, deadline := word (u32 b 8),
    tag := if u16 b 0 / 4096 = 3 then BitVec.ofNat 64 (u64 b (16 + n)) else 0, payload := slice b 16 n }

/-- N of R78 for a letter that would be served after those in the queue that precede it. -/
def State.windows (q : Queued) (s : State) : Nat :=
  let before := s.lb.queue.filter fun x => servedBefore x q
  let sum := (before.map Queued.cost).foldl (· + ·) 0 - s.lb.charged
  let x := s.now - s.sys.tickAt
  let spent := if 800 ≤ x ∧ x < 800 + s.budgetLen then x - 800 else 0
  ceilDiv (sum + spent + q.cost) s.budgetLen

/-- The checks of R72 on a letter of `b` bytes as they arrived from `src`, `len` the length that the framing states. -/
def State.intake (port : Fin 6) (src : Addr) (len : Nat) (b : List Byte) (s : State) : State :=
  let op16 := u16 b 0
  let opc := op16 % 4096
  let cls := op16 / 4096
  let n := u16 b 2
  let total := 16 + n + (if cls = 3 then 8 else 0)
  let no (st : Status) (d : Nat) (s : State) : State := s.boxRefuse port src op16 (BitVec.ofNat 16 (u16 b 4)) st d
  let info := opInfo opc
  let k := match info with | some i => min i.ctl n | none => 0
  if b.length ≠ total ∨ len ≠ total ∨ 4080 < n ∨ 4096 < total then no .badCheck 3 s
  else if crc32c (slice b 0 12 ++ slice b 16 k) ≠ word (u32 b 12) then no .badCheck 1 s
  else match info with
  | none => no .badOpcode 0 s
  | some i =>
    let l := letterOf port src b
    let q : Queued := { letter := l, opc := opc, arrival := s.now, gap := false }
    if !i.classes.contains cls then no .badOpcode 0 s
    else if u8 b 6 ≠ port.val then no .badArg 0xFE s
    else if 4 ≤ u8 b 7 then no .badArg 0xFD s
    else if !i.len.ok l.payload then no .badArg 0xFF s
    else if port = 5 then ({ s with lb := { s.lb with held5 := s.lb.held5 ++ [q] } }).admitHeld
    else if 64 ≤ (s.portQueue port).length then no .refusedBusy 1 s
    else if !s.shareOk q then no .refusedBusy 2 s
    else if 128 < s.reserved port + i.stages then no .refusedBusy 3 s
    else
      let w := s.windows q + (if opc = 0x0F0 then 1 else 0)
      if l.deadline ≠ 0 ∧ l.deadline.toNat < w then no .refusedLate (min w 255) s
      else s.enqueue q

/-- LETTER_ARRIVAL: a letter's last byte arrives on a port; the letterbox checks framing, CRC, opcode, arguments, room and
deadline, and queues the letter or answers its refusal (R72). -/
def execLetterArrival (dt : Nat) (port : Fin 6) (bytes : List Byte) (s : State) : Host.Outcome State Fault Refusal :=
  let s := s.advance dt
  if s.inReset then .next s else
  .next (if s.boxUp then s.intake port ⟨0, 0⟩ bytes.length bytes else s)

/-! ### The host SPI port (R52-R54) -/

/-- INBOX_READY (R53). -/
def State.inboxReady (s : State) : Bool := decide (s.lb.inboxBusy ≤ s.now)

/-- What an unwritten inbox byte holds. -/
def inboxDefault (_ : Nat) : Byte := 0#8

/-- Bytes written into the inbox; a write past its end is ignored. -/
def putInbox : Nat → List Byte → List Host.Cell → List Host.Cell
  | _, [], c => c
  | o, b :: l, c => putInbox (o + 1) l (if o < 4096 then aset inboxDefault o b c else c)

/-- HP_STATUS as the host reads it (R52, R53). -/
def State.hpStatus (s : State) : Nat :=
  let session := match s.lb.session with
    | some x => decide (x.port = 0)
    | none => false
  b2n s.inboxReady + 2 * b2n s.lb.postErr + 4 * b2n session + 256 * s.lb.rcpt0.length + 65536 * s.ev.unread

/-- HOST_IRQ (R52): asserted for receipts waiting, or for unread events, as HP_IRQEN asks. -/
def State.hostIrq (s : State) : Bool :=
  (s.lb.irqRcpt && !s.lb.rcpt0.isEmpty) || (s.lb.irqEvent && decide (s.ev.unread ≠ 0))

/-- The record in slot `i` of the event ring: the newest one is slot (WR − 1) mod 256. -/
def EvSt.slot (e : EvSt) (i : Nat) : EvRec := e.recs.getD ((i + 512 - e.wr) % 256) EvRec.zero

/-- The word of the notice board mirror at host-window offset `a`: the mirrors of R348, R383 and R487. -/
def State.boardWord (s : State) (a : Nat) : Nat := if 0x4700 ≤ a then (s.board.getD ((a - 0x4700) / 4) 0#32).toNat else 0

/-- A byte of the host window as the host reads it (R52, R54, R57); write-only registers and the inbox read 0, and so does what
lies past the end of a region. -/
def State.hostRead (s : State) (a : Nat) : Byte :=
  let byteOf (w : Nat) : Byte := BitVec.ofNat 8 (w / 256 ^ (a % 4))
  if a < 4 then byteOf s.hpStatus
  else if 0xC ≤ a ∧ a < 0x10 then byteOf (s.ev.rd + 65536 * s.ev.wr)
  else if 0x10 ≤ a ∧ a < 0x14 then byteOf (b2n s.lb.irqRcpt + 2 * b2n s.lb.irqEvent)
  else if 0x2000 ≤ a ∧ a < 0x3000 then
    (match s.lb.rcpt0 with
     | r :: _ => r.bytes.getD (a - 0x2000) 0#8
     | [] => 0#8)
  else if 0x3000 ≤ a ∧ a < 0x4000 then ((s.ev.slot ((a - 0x3000) / 16)).bytes severity).getD (a % 16) 0#8
  else if 0x4000 ≤ a ∧ a < 0x10000 then byteOf (s.boardWord a)
  else 0#8

/-- A host write to the registers of the window that have no row of their own (notes/assumptions/87.md): HP_STATUS, where a 1
clears POST_ERR, and HP_IRQEN. -/
def State.hostRegWrite (a : Nat) (b : List Byte) (s : State) : State :=
  let at0 := b.getD 0 0#8
  if a = 0 ∧ bitAt at0.toNat 1 ∧ b ≠ [] then { s with lb := { s.lb with postErr := false } }
  else if a = 0x10 ∧ b ≠ [] then
    { s with lb := { s.lb with irqRcpt := bitAt at0.toNat 0, irqEvent := bitAt at0.toNat 1 } }
  else s

/-- INBOX_WRITE: letter bytes are stored, or the write is ignored and sets POST_ERR while INBOX_READY is 0. A write elsewhere in the
host window reaches its registers; the rest of the window ignores it (R52). -/
def execInboxWrite (dt : Nat) (offset : Fin 65536) (bytes : List Byte) (s : State) : Host.Outcome State Fault Refusal :=
  let s := s.advance dt
  if s.inReset then .next s
  else if offset.val < 0x1000 ∨ 0x2000 ≤ offset.val then .next (if s.portUp then s.hostRegWrite offset.val bytes else s)
  else if !s.boxUp then .next s
  else if s.inboxReady then .next { s with lb := { s.lb with inbox := putInbox (offset.val - 0x1000) bytes s.lb.inbox } }
  else .next { s with lb := { s.lb with postErr := true } }

/-- HP_POST: a write of LENGTH posts the letter in the inbox; INBOX_READY is 0 for a time that R53 bounds. -/
def execHpPost (dt : Nat) (length : Fin 8192) (s : State) : Host.Outcome State Fault Refusal :=
  let s := s.advance dt
  if s.inReset then .next s else
  if !s.boxUp then .next s
  else if !s.inboxReady then .next { s with lb := { s.lb with postErr := true } }
  else
    let n := min length.val 4096
    let b := (List.range n).map fun i => aget inboxDefault i s.lb.inbox
    let f := s.freeUpTo (80 + length.val / 5)
    let s := { f.2 with lb := { f.2.lb with inboxBusy := f.2.now + f.1 } }
    .next (s.intake 0 ⟨0, 0⟩ length.val b)

/-- HP_TAKE: a write of 1 discards the outbox content and moves the next waiting receipt in (R54). -/
def execHpTake (dt : Nat) (take : Bool) (s : State) : Host.Outcome State Fault Refusal :=
  let s := s.advance dt
  if s.inReset then .next s else
  .next (if take && s.portUp then { s with lb := { s.lb with rcpt0 := s.lb.rcpt0.drop 1 } } else s)

/-- HP_EVIDX_WRITE: a write of RD is taken only if (WR − RD) mod 512 is then at most 256 (R54). -/
def execHpEvidxWrite (dt : Nat) (rd : Fin 512) (s : State) : Host.Outcome State Fault Refusal :=
  let s := s.advance dt
  if s.inReset then .next s else
  .next (if s.portUp && decide ((s.ev.wr + 512 - rd.val) % 512 ≤ 256) then { s with ev := { s.ev with rd := rd.val } } else s)

/-! ### CAN segments and the service UART (R49-R51) -/

/-- The port of a CAN controller (R48). -/
def canPort (c : Fin 3) : Fin 6 := if c.val = 2 then 1 else 2

/-- The reassembly of a sender on a controller. -/
def State.reasmOf (c : Fin 3) (sender : Nat) (s : State) : Option Reasm :=
  s.lb.reasm.find? fun r => r.ctrl = c && r.sender = sender

/-- The reassembly of a sender removed. -/
def State.reasmDrop (c : Fin 3) (sender : Nat) (s : State) : State :=
  { s with lb := { s.lb with reasm := s.lb.reasm.filter fun r => !(r.ctrl = c && r.sender = sender) } }

/-- A letter under reassembly is discarded without a receipt (R50). -/
def State.reasmDiscard (c : Fin 3) (sender : Nat) (s : State) : State :=
  (s.reasmDrop c sender).deadLetter (canPort c) 4

/-- The length of a letter by its header (R55). -/
def lettersLen (b : List Byte) : Nat := 16 + u16 b 2 + (if u16 b 0 / 4096 = 3 then 8 else 0)

/-- The last segment's padding is dropped: at most 15 bytes beyond the letter's own length (R49). -/
def trimPad (b : List Byte) : List Byte :=
  let total := lettersLen b
  if total ≤ b.length ∧ b.length < total + 16 then b.take total else b

/-- A segment in its order is added; the last one delivers the letter. -/
def State.reasmAdd (r : Reasm) (last : Bool) (data : List Byte) (s : State) : State :=
  let b := r.bytes ++ data
  let s := s.reasmDrop r.ctrl r.sender
  if last then
    let l := trimPad b
    s.intake (canPort r.ctrl) ⟨r.ctrl, fidx 63 r.sender⟩ l.length l
  else
    { s with lb := { s.lb with reasm := s.lb.reasm ++ [{ r with next := (r.next + 1) % 64, bytes := b, last := s.now }] } }

/-- CAN_LETTER_SEGMENT: a letter segment frame is added to its sender's reassembly, or discards it when out of sequence
(R49, R50). -/
def execCanLetterSegment (dt : Nat) (ctrl : Fin 3) (sender : Fin 64) (dest : Fin 4096) (data : List Byte) (s : State) :
    Host.Outcome State Fault Refusal :=
  let s := s.advance dt
  if s.inReset then .next s else
  if !s.boxUp || !s.canActive ctrl || s.canCfg ctrl 9 1 ≠ 1 || dest.val ≠ s.ownNumber ctrl || sender.val = 0 || data.isEmpty ||
      decide (64 < data.length) then .next s
  else
    let ctl := u8 data 0
    let first := bitAt ctl 7
    let last := bitAt ctl 6
    let idx := ctl % 64
    let rest := data.drop 1
    let old := s.reasmOf ctrl sender.val
    let late := match old with | some r => decide (r.last + 800000 < s.now) | none => false
    let s := if late then s.reasmDiscard ctrl sender.val else s
    let old := if late then none else old
    if first then
      let s := if old.isSome then s.reasmDiscard ctrl sender.val else s
      if idx ≠ 0 then .next (s.deadLetter (canPort ctrl) 4)
      else if 4 ≤ (s.lb.reasm.filter (·.ctrl = ctrl)).length then .next (s.deadLetter (canPort ctrl) 4)
      else .next (s.reasmAdd { ctrl := ctrl, sender := sender.val, next := 0, bytes := [], last := s.now } last rest)
    else match old with
      | none => .next s
      | some r => if idx = r.next then .next (s.reasmAdd r last rest) else .next (s.reasmDiscard ctrl sender.val)

/-- CAN_REASSEMBLY_TIMEOUT: more than 10 ms without a segment discards the letter under reassembly (R50). -/
def execCanReassemblyTimeout (dt : Nat) (ctrl : Fin 3) (sender : Fin 64) (s : State) : Host.Outcome State Fault Refusal :=
  let s := s.advance dt
  if s.inReset then .next s else
  match s.reasmOf ctrl sender.val with
  | some r => .next (if r.last + 800000 < s.now then s.reasmDiscard ctrl sender.val else s)
  | none => .next s

/-- The frames of a receipt that goes out on a CAN bus (R48, R49): identifier and data bytes, 63 bytes of the receipt and its tail to
a frame of type 0x71 behind the segment control byte, the last one padded to the smallest data length. -/
def receiptFrames (own dest : Nat) : Nat → Nat → List Byte → List (Nat × List Byte)
  | 0, _, _ => []
  | n + 1, idx, b =>
    let last := decide (b.length ≤ 63)
    let ctl : Byte := BitVec.ofNat 8 ((if idx = 0 then 128 else 0) + (if last then 64 else 0) + idx % 64)
    let body := ctl :: b.take 63
    let size := ((List.range 16).filterMap dlcLen).find? (body.length ≤ ·)
    let frame := (5 * 2 ^ 26 + own * 2 ^ 20 + 0x71 * 2 ^ 12 + dest, body ++ List.replicate (size.getD 64 - body.length) 0#8)
    if last then [frame] else frame :: receiptFrames own dest n (idx + 1) (b.drop 63)

/-- A receipt as it leaves on ports 1 and 2: the controller, which is that of arrival, and its frames. -/
def Sent.frames (s : State) (x : Sent) : Fin 3 × List (Nat × List Byte) :=
  (x.src.ctrl, receiptFrames (s.ownNumber x.src.ctrl) x.src.node.val (x.receipt.bytes.length / 63 + 1) 0 x.receipt.bytes)

/-- A receipt as it leaves on the service UART: behind the start mark (R51). -/
def Sent.uart (x : Sent) : List Byte := [0xA5#8, 0x5A#8] ++ x.receipt.bytes

/-- The bytes from the first start mark on; a last byte 0xA5 may be the first half of one. -/
def uartHunt : List Byte → List Byte
  | [] => []
  | [b] => if b = 0xA5#8 then [b] else []
  | a :: b :: l => if a = 0xA5#8 ∧ b = 0x5A#8 then a :: b :: l else uartHunt (b :: l)

/-- A letter's framing and header CRC are right: checks 1 and 2 of R72. -/
def headOk (b : List Byte) : Bool :=
  let n := u16 b 2
  let k := match opInfo (u16 b 0 % 4096) with
    | some i => min i.ctl n
    | none => 0
  decide (n ≤ 4080 ∧ lettersLen b ≤ 4096) && crc32c (slice b 0 12 ++ slice b 16 k) = word (u32 b 12)

/-- The letters in the bytes that have come in on the UART (R51): a whole letter behind a start mark is delivered; one that fails its
header check is answered, and the hunt resumes at the byte after its start mark. `n` bounds the letters. -/
def State.uartScan : Nat → List Byte → State → State
  | 0, b, s => { s with lb := { s.lb with uart := b } }
  | n + 1, b, s =>
    let m := uartHunt b
    let l := m.drop 2
    let len := lettersLen l
    let short := decide (l.length < 16)
    if short || (decide (l.length < len) && decide (u16 l 2 ≤ 4080 ∧ len ≤ 4096)) then { s with lb := { s.lb with uart := m } }
    else
      let x := l.take len
      (s.intake 3 ⟨0, 0⟩ x.length x).uartScan n (if headOk x then l.drop len else l)

/-- A letter is being received on the UART. -/
def State.uartBusy (s : State) : Bool := decide (2 ≤ s.lb.uart.length)

/-- The letter being received on the UART is discarded: a dead letter (R51). -/
def State.uartDrop (s : State) : State := ({ s with lb := { s.lb with uart := [] } }).deadLetter 3 4

/-- UART_LETTER: bytes come in on the service UART; a letter after the start mark is delivered to the letterbox (R51). -/
def execUartLetter (dt : Nat) (bytes : List Byte) (s : State) : Host.Outcome State Fault Refusal :=
  let s := s.advance dt
  if s.inReset || !s.boxUp then .next s
  else
    let s := if s.uartBusy && decide (s.lb.uartAt + 80000 < s.now) then s.uartDrop else s
    let s := { s with lb := { s.lb with uartAt := s.now } }
    .next (s.uartScan ((s.lb.uart ++ bytes).length + 1) (s.lb.uart ++ bytes))

/-- UART_GAP_TIMEOUT: a gap above 1 ms between two bytes of a letter discards it without a receipt (R51). -/
def execUartGapTimeout (dt : Nat) (s : State) : Host.Outcome State Fault Refusal :=
  let s := s.advance dt
  if s.inReset then .next s else
  .next (if s.boxUp && s.uartBusy && decide (s.lb.uartAt + 80000 < s.now) then s.uartDrop else s)

/-! ### Sessions (R63-R68) -/

/-- The lockout of R68 is in force. -/
def State.lockedOut (s : State) : Bool := match s.lb.lockEnd with | some t => decide (s.now < t) | none => false

/-- A session open on another port. -/
def State.otherSession (port : Fin 6) (s : State) : Option (Fin 6) :=
  match s.lb.session with
  | some x => if x.port = port then none else some x.port
  | none => none

/-- The session ends. -/
def State.endSession (s : State) : State := { s with lb := { s.lb with session := none } }

/-- Step 1: a fresh challenge on the port (R64). -/
def State.sessionChallenge (l : Letter) (s : State) : Reply × State :=
  let f := s.freeWord
  let c : Challenge := { value := f.1, pm := s.now }
  (.done f.1 [], { f.2 with lb := { f.2.lb with challenges := f.2.lb.challenges.set l.port (some c) } })

/-- Step 2: a valid tag over a valid challenge opens the session, or starts it afresh (R64). -/
def State.sessionProve (l : Letter) (s : State) : Reply × State :=
  let used := { s with lb := { s.lb with challenges := s.lb.challenges.set l.port none } }
  match s.lb.challenges[l.port] with
  | some c =>
    if s.now ≤ c.pm + 800000000 ∧ s.tagFor c.value 0x0F1 4 l = l.tag.toNat then
      let x : Session := { port := l.port, challenge := c.value, lastSeq := l.seq.toNat, lastDone := s.now }
      (.done 0 [], { used with lb := { used.lb with session := some x } })
    else refuse .badCheck 2 (used.tagFailure l.port)
  | none => refuse .badCheck 2 (s.tagFailure l.port)

/-- Step 3: the session on the port ends (R67). The step has been checked as any class 3 letter of the session (R63, R66, R74). -/
def State.sessionClose (l : Letter) (s : State) : Reply × State :=
  match s.lb.session with
  | none => refuse .notPrivileged 1 s
  | some x => if x.port ≠ l.port then refuse .notPrivileged 1 s else doneWith s.endSession

/-- SESSION_OPEN (R64, R67, R68, R569). -/
def sessionHandler : Handler :=
  handler (fun _ p => lowestBad p [] [(0, decide (u32 p 0 = 0 ∨ 3 < u32 p 0))])
    fun l s =>
      if u32 l.payload 0 = 3 then s.sessionClose l
      else if s.lockedOut then
        let left := match s.lb.lockEnd with | some t => t - s.now | none => 0
        refuseWith .wrongState 0x0C (openDiv left 80000000).toNat s
      else match s.otherSession l.port with
        | some p => refuseWith .wrongState 0x0B p.val s
        | none => if u32 l.payload 0 = 1 then s.sessionChallenge l else s.sessionProve l

/-- SESSION_OPEN step 1: the VG63 answers with a fresh challenge. -/
def execSessionOpenChallenge (l : Letter) (s : State) : Host.Outcome State Fault Refusal := .next (s.serve 0x0F1 sessionHandler l)

/-- SESSION_OPEN step 2: a valid tag opens the privileged session. -/
def execSessionOpenProve (l : Letter) (s : State) : Host.Outcome State Fault Refusal := .next (s.serve 0x0F1 sessionHandler l)

/-- SESSION_OPEN step 3: closes the session. -/
def execSessionOpenClose (l : Letter) (s : State) : Host.Outcome State Fault Refusal := .next (s.serve 0x0F1 sessionHandler l)

/-- SESSION_TIMEOUT: no class 3 letter answered DONE for TIMEOUT seconds ends the session (R67). -/
def execSessionTimeout (dt : Nat) (s : State) : Host.Outcome State Fault Refusal :=
  let s := s.advance dt
  if s.inReset then .next s else
  match s.lb.session with
  | some x => .next (if x.lastDone + s.fld 0x10050 16 16 * 80000000 ≤ s.now then s.endSession else s)
  | none => .next s

/-- SESSION_LOCKOUT_END: 60 s after the third tag failure, SESSION_OPEN is served again (R68). -/
def execSessionLockoutEnd (dt : Nat) (s : State) : Host.Outcome State Fault Refusal :=
  let s := s.advance dt
  if s.inReset then .next s else
  match s.lb.lockEnd with
  | some t =>
    .next (if t ≤ s.now then { s with lb := { s.lb with lockEnd := none, fails := s.lb.fails.filter (s.now < · + 4800000000) } }
           else s)
  | none => .next s

end Sys2Proof.Machine
end

