-- ==== Sys2Proof/Machine/Link.lean ====
section
/-! DEFINITION. The car link (R488-R502): cycles, frames, time on the car station, the letter channel, loss and return. -/
namespace Sys2Proof.Machine

/-- The LINK block replaced. -/
def State.setLink (k : LinkSt) (s : State) : State := { s with link := k }

/-! ### The letter channel (R498) -/

/-- The bytes of what waits for the letter channel. -/
def LinkOut.bytes : LinkOut → List Byte
  | .letter b => b
  | .receipt r => r.bytes

/-- The link is UP; at the third consecutive miss it no longer is (R495). -/
def State.linkIsUp (s : State) : Bool := s.link.state = 3 && decide (s.link.missed < 3)

/-- The letter channel of a frame that is sent: control byte and data (R490, R498). -/
def State.segment (s : State) : Byte × List Byte :=
  match (if s.linkIsUp then s.lb.rcpt4.head? else none) with
  | none => (0, [])
  | some o =>
    let n := s.link.txSeg
    let content := match o with
      | .letter _ => 1
      | .receipt _ => 2
    (BitVec.ofNat 8 (content + 4 * b2n (n = 0) + 8 * b2n (o.bytes.length ≤ 256 * (n + 1)) + 16 * (n % 16)),
     slice o.bytes (256 * n) (min 256 (o.bytes.length - 256 * n)))

/-- The segment of this cycle's frame has left. -/
def State.segmentSent (s : State) : State :=
  match s.lb.rcpt4 with
  | [] => s
  | o :: r =>
    if o.bytes.length ≤ 256 * (s.link.txSeg + 1) then
      ({ s with lb := { s.lb with rcpt4 := r } }).setLink { s.link with txSeg := 0 }
    else s.setLink { s.link with txSeg := s.link.txSeg + 1 }

/-- The transfer under way breaks: a letter is a dead letter, a receipt is lost and counted. -/
def State.rxBreak (s : State) : State :=
  match s.link.rx with
  | none => s
  | some x =>
    let s := s.setLink { s.link with rx := none }
    if x.receipt then s.setLink { s.link with letterDrop := satAdd 0xFF s.link.letterDrop 1 } else s.deadLetter 4 4

/-- The fields of a received frame (R490, R491). -/
structure LinkIn where
  kind : Nat
  flags : BitVec 4
  seq : Nat
  tTx : Nat
  echoTx : Nat
  echoRx : Nat
  gen : Nat
  period : Nat
  /-- Letter channel: control and data. -/
  content : Nat
  first : Bool
  last : Bool
  index : Nat
  data : List Byte
  /-- The 24 bytes of station data. -/
  station : List Byte
  /-- Counts from reception to now. -/
  age : Nat
deriving DecidableEq, Repr

/-- The fields of a payload. -/
def linkFields (p : List Byte) (age : Nat) : LinkIn :=
  let c := u8 p 34
  { kind := u8 p 0, flags := BitVec.ofNat 4 (u8 p 1), seq := u16 p 2, tTx := u64 p 8, echoTx := u64 p 16, echoRx := u64 p 24,
    gen := u8 p 32, period := u8 p 33, content := c % 4, first := bitAt c 2, last := bitAt c 3, index := bitsAt c 4 4,
    data := slice p 64 (min 256 (u16 p 6)), station := slice p 40 24, age := age }

/-- A segment of the letter channel is received. -/
def State.rxSegment (x : LinkIn) (s : State) : State :=
  if x.content = 0 ∨ x.content = 3 then s.rxBreak
  else
    let receipt := x.content = 2
    let s := if x.first then s.rxBreak else s
    let cur : Option LinkRx := if x.first then some { receipt := receipt, next := 0, bytes := [] } else s.link.rx
    match cur with
    | none => s
    | some r =>
      if x.index ≠ r.next ∨ r.receipt ≠ receipt then (s.setLink { s.link with rx := some r }).rxBreak
      else
        let b := r.bytes ++ x.data
        let s := s.setLink { s.link with rx := none }
        if !x.last then s.setLink { s.link with rx := some { r with next := (r.next + 1) % 16, bytes := b } }
        else if receipt then s
        else s.intake 4 ⟨0, 0⟩ b.length b

/-! ### The state of the link (R494, R495) -/

/-- The link goes OFF: frames cease, the car station holds c := f. -/
def State.linkOff (s : State) : State :=
  s.setLink { s.link with state := 0, stopReq := false, limited := false, okRun := 0, exempt := true, c := s.link.f, missed := 0,
                          frame := [] }

/-- A start fails (R494). -/
def State.linkFail (detail : Nat) (s : State) : State := s.linkOff.complete .linkStart .failed detail 0

/-- CAR_LINK_DOWN and what follows from it (R495-R497): the state becomes `st`. -/
def State.linkDown (st : Nat) (s : State) : State :=
  let k := s.link
  let s := s.rxBreak
  let s := if k.txSeg = 0 then s else { s with lb := { s.lb with rcpt4 := s.lb.rcpt4.drop 1 } }
  let s := s.setLink { s.link with
    state := st, downs := satAdd 0xFF k.downs 1, txSeg := 0, c := k.f, okRun := 0, limited := false,
    blindDue := s.machine, hold := true, blind := 0, openRun := s.carStation && s.door.state = 5, opened := false,
    openedAt := none, since := s.now }
  let s := s.post 0x0E01 k.seqRx
  let s := { s with sense := { s.sense with known := s.sense.known.set 2 false } }
  match s.lb.session with
  | some x => if x.port = 4 then s.endSession else s
  | none => s

/-- The conditions of step 3 of R494 for becoming UP. -/
def State.linkReady (s : State) : Bool :=
  let k := s.link
  decide (8 ≤ k.okRun) && k.gen = s.sys.gen && k.period = s.sys.period && (if s.carStation then k.locked else k.flags.getLsbD 1)

/-- The link becomes UP: CAR_LINK_UP with the partner's role, and LINK_MODE ends DONE (R494). -/
def State.linkUp (s : State) : State :=
  let partner := if s.carStation then 1 else 2
  let s := s.setLink { s.link with state := 3, partner := partner, missed := 0, accepted := false, limited := false, hold := false,
                                   blindDue := false, blind := if s.link.blind = 1 then 1 else 0 }
  (s.post 0x0E02 partner).complete .linkStart .done 0 0

/-! ### Frames sent (R489-R491) -/

/-- The address of a station (R489): the last byte is its role. -/
def linkAddr (car : Bool) : List Byte := [2#8, 0#8, 0#8, 0#8, 0#8, if car then 2#8 else 1#8]

/-- The ASSIGNED origin stops of an isolated station have been dropped (R306). -/
def State.stopsDropped (s : State) : Bool :=
  match s.group.isoAt with
  | some t => decide (t + s.fld 0x60004 24 4 * s.roundLen ≤ s.now)
  | none => false

/-- The car holds ASSIGNED or BOARDED entries (R491): of a mute station the published ones (R296, R306). -/
def State.stopsHeld (s : State) : Bool :=
  s.group.core.bag.any fun x => x.2.car = s.group.car &&
    (x.2.st = 3 || (x.2.st = 2 && (x.2.pub || !s.group.mute) && !s.stopsDropped))

/-- The station data of R491: a car station's latest good tape read (R207), door state and load; a machine station's car and door
request. -/
def State.stationData (s : State) : List Byte :=
  if s.carStation then
    let q := s.sense
    let p := match q.ssiLast with
      | some r => (s.ssiPos r.raw, r.pm)
      | none => (0, 0)
    bytesLE 8 (ucode 64 p.1) ++ bytesLE 8 p.2 ++ bytesLE 4 (ucode 32 s.ssiSpeed) ++
      [BitVec.ofNat 8 (b2n q.known[1] + 2 * b2n q.loadValid), BitVec.ofNat 8 s.door.state] ++
      bytesLE 2 (if q.loadValid then ucode 16 (satS 16 q.load) else 0)
  else
    let c := s.group.ownCar
    [BitVec.ofNat 8 c.state, BitVec.ofNat 8 c.landing, BitVec.ofNat 8 c.dir] ++ bytesLE 5 0 ++ bytesLE 8 0 ++ bytesLE 4 0 ++
      [0#8, BitVec.ofNat 8 s.link.doorOut] ++ bytesLE 2 0

/-- Bytes 0-35 of the payload of the frame of this cycle instant (R490). The postmark of its start-of-frame delimiter lies a fixed
time after the instant, which the spec does not give (notes/assumptions/96.md). -/
def State.linkHead (s : State) : List Byte :=
  let k := s.link
  let g := s.segment
  let m := s.machine
  [if m then 1#8 else 2#8,
   BitVec.ofNat 8 (b2n s.linkIsUp + 2 * b2n (!m && k.locked) + 4 * b2n (m && s.anyMoving) + 8 * b2n (m && s.stopsHeld))] ++
    bytesLE 2 k.seqTx ++ bytesLE 2 k.seqRx ++ bytesLE 2 g.2.length ++ bytesLE 8 (s.now + Config.sfdDelay) ++
    bytesLE 8 k.echoTx ++ bytesLE 8 k.echoRx ++ [BitVec.ofNat 8 s.sys.gen, BitVec.ofNat 8 s.sys.period, g.1, 0#8]

/-- The 338 bytes of the frame of this cycle instant (R489). -/
def State.linkFrame (s : State) : List Byte :=
  let h := s.linkHead
  let l := s.segment.2
  let f := linkAddr s.machine ++ linkAddr s.carStation ++ bytesBE 2 (s.fld 0xE0004 16 16) ++ h ++ bytesLE 4 (crc32c h).toNat ++
    s.stationData ++ l ++ List.replicate (256 - l.length) 0#8
  f ++ bytesLE 4 (fcs32 f).toNat

/-- The frame of a cycle instant is sent, with a segment of the letter channel while the link is UP. -/
def State.linkSend (s : State) : State :=
  let t := if s.linkIsUp then s.segmentSent else s
  t.setLink { t.link with frame := s.linkFrame }

/-- CAR_LINK_CYCLE: at each cycle instant missed cycles are counted, the link may become UP, a stop takes effect, and a frame is sent
(R489, R494, R495). A lane service gap leaves the door request as it was. -/
def execCarLinkCycle (x : CycleIn) (s : State) : Host.Outcome State Fault Refusal :=
  let s := s.advance x.dt
  if s.inReset then .next s else
  let k := s.link
  if s.now % 20000 ≠ 0 ∨ k.state = 0 then .next s
  else if k.stopReq then
    let s := if k.state = 3 then s.linkDown 0 else s.rxBreak
    .next ((s.linkOff.complete .linkStart .aborted 0 0).complete .linkStop .done 0 0)
  else if k.state = 1 then .next s
  else
    let s := s.setLink { k with seqTx := (k.seqTx + 1) % 65536, doorOut := if s.serving then x.req.val else k.doorOut }
    let s :=
      if k.state = 3 then
        -- a frame that ends at this very instant counts for the next one (R499)
        let heard := k.accepted && decide (k.acceptedAt < s.now)
        let s := if heard then s else s.rxBreak
        s.setLink { s.link with missed := if heard then 0 else satAdd 3 k.missed 1, accepted := k.accepted && !heard }
      else if s.linkReady ∧ (k.state = 2 ∨ s.fld 0xE0004 5 1 = 1) then s.linkUp
      else s
    .next s.linkSend

/-- CAR_LINK_DOWN, at a cycle instant: the third consecutive missed cycle makes the link DOWN (R495). -/
def execCarLinkDown (dt : Nat) (s : State) : Host.Outcome State Fault Refusal :=
  let s := s.advance dt
  if s.inReset then .next s else
  .next (if s.now % 20000 = 0 ∧ s.link.state = 3 ∧ 3 ≤ s.link.missed then s.linkDown 4 else s)

/-! ### Frames received (R492, R493) -/

/-- Time on the car station: θ, δ, TIME_LOCKED, and the steering or the step (R493). -/
def State.linkTime (x : LinkIn) (s : State) : State :=
  let t2 : Int := ((s.now - x.age : Nat) : Int)
  let a : Int := t2 - (x.tTx : Int)
  let b : Int := (x.echoRx : Int) - (x.echoTx : Int)
  let th := 25 * (a - b) - 4 * sext 16 (s.fld 0xE0018 0 16)
  let k := s.link
  let locked := if th.natAbs ≤ 800 then true else if 4000 < th.natAbs then false else k.locked
  let k := { k with theta := th, delay := 25 * (a + b), locked := locked }
  let slew := 1000 * s.fld 0xE0018 16 9
  if k.state ≠ 2 ∧ k.state ≠ 3 then s.setLink k
  else if 8000 < th.natAbs then
    if !s.anyMoving then ((s.setLink k).stepTime (openDiv (-th) 50)).post 0x0E04 (stepDetail (-th) 4)
    else s.setLink { k with c := (if 0 < th then -1 else 1) * (slew * 65536 : Nat) }
  else
    let fc := steer k.f (-th) 4 250000 slew
    s.setLink { k with f := fc.1, c := fc.2 }

/-- The station data of a valid frame (R207, R491); a car station that reports its tape invalid makes source 2 invalid (R193), and a
door request that differs from the previous frame's wakes from DOZE (R514). -/
def State.linkData (x : LinkIn) (s : State) : State :=
  let b := x.station
  if s.machine then
    let ok := bitAt (u8 b 20) 0
    let pm := u64 b 8
    let c : CarSample := { p := sext 64 (u64 b 0), pm := pm, v := sext 32 (u32 b 16), valid := ok, load := sext 16 (u16 b 22),
                           loadValid := bitAt (u8 b 20) 1 }
    let s := ({ s with sense := { s.sense with car := some c } }).setLink { s.link with doorState := u8 b 21 }
    if !ok then { s with sense := { s.sense with known := s.sense.known.set 2 false } }
    else if s.link.state ≠ 4 ∧ s.now ≤ pm + 60000 ∧ s.sense.known[2] = false then
      ({ s with sense := { s.sense with known := s.sense.known.set 2 true } }).post 0x0405 2
    else s
  else (s.noteIf (decide (s.link.doorReq ≠ u8 b 21)) 13).setLink { s.link with
    carState := u8 b 0, carLand := u8 b 1, carDir := u8 b 2, doorReq := u8 b 21 }

/-- A frame passes the checks of R492 but for kind and sequence number; `own`: the addresses that a frame of the station's own kind
carries in place of the partner's. -/
def State.frameOk (f : List Byte) (own : Bool) (s : State) : Bool :=
  f.length = 338 && decide (u32 f 334 = (fcs32 (f.take 334)).toNat) &&
    slice f 0 12 = linkAddr (s.carStation != own) ++ linkAddr (s.machine != own) &&
    slice f 12 2 = bytesBE 2 (s.fld 0xE0004 16 16) && decide (u32 f 50 = (crc32c (slice f 14 36)).toNat)

/-- CAR_LINK_FRAME_RX: a received car-link frame is checked, and its data, time echoes and letter segment are taken. -/
def execCarLinkFrameRx (dt : Nat) (rx : LinkFrameIn) (s : State) : Host.Outcome State Fault Refusal :=
  let s := s.advance dt
  if s.inReset then .next s else
  let k := s.link
  let x := linkFields (slice rx.frame 14 320) rx.age
  let own := if s.machine then 1 else 2
  let ahead := (x.seq + 65536 - k.seqRx) % 65536
  let seqOk := k.exempt || decide (1 ≤ ahead ∧ ahead ≤ 32767)
  if k.state < 2 then .next s
  else if !s.frameOk rx.frame false || x.kind + own ≠ 3 || !seqOk then
    let s := s.setLink { k with discard := satAdd 0xFF k.discard 1, okRun := 0 }
    .next (if s.frameOk rx.frame true && x.kind = own && k.state = 2 && k.limited then s.linkFail 0xC2 else s)
  else if k.state = 2 ∧ k.limited ∧ (x.gen ≠ s.sys.gen ∨ x.period ≠ s.sys.period) then .next (s.linkFail 0xC3)
  else
    let gap := !k.exempt && decide (1 < ahead)
    let s := s.setLink { k with
      gap := if gap then satAdd 0xFF k.gap 1 else k.gap, exempt := false, accepted := true, acceptedAt := if k.accepted then k.acceptedAt else s.now, seqRx := x.seq,
      okRun := k.okRun + 1, echoTx := x.tTx, echoRx := s.now - x.age, flags := x.flags, gen := x.gen, period := x.period,
      locked := if s.machine then x.flags.getLsbD 1 else k.locked }
    let s := if gap then s.rxBreak else s
    let s := s.linkData x
    let s := if s.carStation ∧ x.echoTx ≠ 0 then s.linkTime x else s
    .next (s.rxSegment x)

/-! ### Start-up (R488, R494) -/

/-- LINK_MODE (R494). -/
def linkModeHandler : Handler :=
  handler (fun _ p => lowestBad p [(2, 2)] [(0, decide (1 < u8 p 0)), (1, decide (1 < u8 p 1))])
    fun l s =>
      if u8 l.payload 0 = 1 then
        if s.link.state ≠ 0 then refuse .wrongState 0xC0 s
        else (.queued .linkStart, s.setLink { s.link with
          state := 1, fibre := u8 l.payload 1 = 1, since := s.now, limited := true, exempt := true, okRun := 0, stopReq := false,
          txSeg := 0, rx := none })
      else if s.anyMoving then refuse .wrongState 0xC5 s
      else if s.link.state = 0 then (.ended .linkStop .done 0 0, s)
      else (.queued .linkStop, s.setLink { s.link with stopReq := true })

/-- LINK_MODE start: begins the car link. -/
def execLinkModeStart (l : Letter) (s : State) : Host.Outcome State Fault Refusal := .next (s.serve 0x0C0 linkModeHandler l)

/-- LINK_MODE stop: takes effect at the next cycle instant. -/
def execLinkModeStop (l : Letter) (s : State) : Host.Outcome State Fault Refusal := .next (s.serve 0x0C0 linkModeHandler l)

/-- PHY_STATUS_POLL: every 1 ms the PHY's link status is read; it ends PHY_WAIT (R488, R494). -/
def execPhyStatusPoll (dt : Nat) (up : Bool) (s : State) : Host.Outcome State Fault Refusal :=
  let s := s.advance dt
  if s.inReset then .next s else
  let k : LinkSt := { s.link with phy := up }
  .next (s.setLink (if k.state = 1 ∧ up then { k with state := 2, since := s.now, okRun := 0, exempt := true } else k))

/-- LINK_PHY_TIMEOUT: no PHY link within 5 s fails the start (R494). -/
def execLinkPhyTimeout (dt : Nat) (s : State) : Host.Outcome State Fault Refusal :=
  let s := s.advance dt
  if s.inReset then .next s else
  .next (if s.link.state = 1 ∧ s.link.since + 400000000 = s.now then s.linkFail 0xC1 else s)

/-- LINK_SYNC_TIMEOUT: no UP within 5 s of PHY link fails the start (R494). -/
def execLinkSyncTimeout (dt : Nat) (s : State) : Host.Outcome State Fault Refusal :=
  let s := s.advance dt
  if s.inReset then .next s else
  .next (if s.link.state = 2 ∧ s.link.limited ∧ s.link.since + 400000000 = s.now then s.linkFail 0xC4 else s)

/-! ### Blind levelling (R496) -/

/-- A landing at least v² / (2 D) + |v| · REACT beyond the profile position: `d`, `v` with 16 fraction bits, D in µm/s², REACT
in ms. -/
def farEnough (d v dec react : Nat) : Bool :=
  dec ≠ 0 && decide (v * v * 1000 + v * react * 2 * dec * 65536 ≤ d * 2 * dec * 1000 * 65536)

/-- The first landing in the direction of motion that qualifies, with its level. -/
def State.blindTarget (s : State) (up : Bool) : Option (Nat × Int) :=
  let r := s.ramp[0]
  let react := s.fld 0xE001C 0 8
  let l := (List.range s.sense.land.length).map fun i => (i, s.sense.land.getD i 0)
  let ok (x : Nat × Int) : Bool :=
    let d := x.2 * 65536 - r.pos
    (if up then decide (0 ≤ d) else decide (d ≤ 0)) && farEnough d.natAbs r.vel.natAbs (s.limits 0).dec react
  if up then l.find? ok else l.reverse.find? ok

/-- The end position in µm of the running table of unit 0. -/
def State.tableEnd (s : State) (x : SegRun) : Option Int :=
  let pieces := match s.ramp[0].tail with | some t => swapTail t x.pieces | none => x.pieces
  match pieceOf (segTotal pieces - 1) pieces with
  | some (a, _) => some ((segOf (s.cellsFrom a 32)).fin s.sys.period).1
  | none => none

/-- A ramp stop of unit 0 by the lane. -/
def State.blindStop (s : State) : State := s.orderStop 0 false .moveStop

/-- A tail of segments that ends at a level. -/
def State.endsAtLevel (s : State) (level : Int) (segs : List Byte) : Bool :=
  ((segOf (slice segs (segs.length - 32) 32)).fin s.sys.period).1 = level

/-- Steps 3 and 4 of R496 for a target level: the motion runs on, a tail that ends there is posted on port 5, or a ramp stop is
made. -/
def State.blindMove (level : Int) (f : BitVec 16) (addr : Word) (segs : List Byte) (s : State) : State :=
  match s.ramp[0].motion with
  | .run x =>
    if s.tableEnd x = some level then s
    else if !s.endsAtLevel level segs then s.blindStop
    else
      let a := addr.toNat
      let s := if tableRange a segs.length then s.storeBytes a segs else s
      let s := s.setLink { s.link with blindJ := s.lane.jnext }
      s.post5 0x032 1 ([0#8, 0#8] ++ bytesLE 2 f.toNat ++ bytesLE 4 a ++ bytesLE 4 (segs.length / 32))
  | .trap t => if s.ramp[0].homing.isNone ∧ s.sense.land.any (fun y => t.target = y * 65536) then s else s.blindStop
  | _ => s

/-- BLIND_LEVELLING: at the next letter window after CAR_LINK_DOWN, the machine station stops at the next reachable landing on
ENC0 (R496). `f`, `addr`, `segs`: the tail that the lane composes (notes/assumptions/32.md). -/
def execBlindLevelling (dt : Nat) (f : BitVec 16) (addr : Word) (segs : List Byte) (s : State) :
    Host.Outcome State Fault Refusal :=
  let s := s.advance dt
  if s.inReset then .next s else
  if !s.link.blindDue || !s.serving || decide (s.now < s.sys.tickAt + 800 ∨ s.sys.tickAt + 800 + s.budgetLen < s.now) then .next s
  else
    let s := s.setLink { s.link with blindDue := false, blindJ := s.lane.jnext }
    let r := s.ramp[0]
    if !r.moving then .next s
    else
      let up := decide (0 < r.vel ∨ (r.vel = 0 ∧ 0 ≤ r.acc))
      let s := s.setLink { s.link with blind := 1 }
      match s.blindTarget up with
      | none => .next ((s.post 0x0E03 255).blindStop)
      | some (i, level) => .next ((s.post 0x0E03 i).blindMove level f addr segs)

/-- The MOVE_TAIL of blind levelling was refused when served. -/
def State.blindTailFailed (s : State) : Bool :=
  s.lane.journal.any fun e =>
    decide (s.link.blindJ ≤ e.num) && e.kind = 1 && u16 e.hdr 0 % 4096 = 0x032 && u8 e.hdr 6 = 5 && e.status ≠ .queued

/-! ### The door while the link is down (R497) -/

/-- Both zone inputs of LINK_DOOR are active. -/
def State.linkZones (s : State) : Bool := s.inActive (s.fld 0xE0020 0 6) && s.inActive (s.fld 0xE0020 8 6)

/-- LINK_OPEN_ON_LOSS: from CAR_LINK_DOWN until the link is UP again, 1 s at low tape speed in the zone with the open permit opens the door (R497). -/
def execLinkOpenOnLoss (dt : Nat) (s : State) : Host.Outcome State Fault Refusal :=
  let s := s.advance dt
  if s.inReset then .next s else
  let k := s.link
  let slow := match k.slowAt with | some t => decide (t + 80000000 ≤ s.now) | none => false
  let p := s.fld 0xE0020 17 3
  let able := (s.door.mode = 1 || s.door.mode = 2 || s.door.mode = 3) && !s.door.fault && !s.profileBad p &&
    (s.door.state = 3 || s.door.state = 4 || s.door.state = 10 || s.door.state = 11)
  if s.carStation && k.hold && s.fld 0xE0020 16 1 = 1 && !k.opened && slow && s.linkZones && s.openPermit && able then
    let s := s.setLink { k with opened := true, openedAt := some s.now }
    .next ((s.setDoor { s.door with hold := 0, openProfile := p, nudge := false, firstHold := none }).openSoon p)
  else .next s

/-- LINK_DOOR_HOLD_EXPIRY: LINK_DOOR.HOLD expires and the door opened on loss closes (R497). -/
def execLinkDoorHoldExpiry (dt : Nat) (s : State) : Host.Outcome State Fault Refusal :=
  let s := s.advance dt
  if s.inReset then .next s else
  match s.link.openedAt with
  | none => .next s
  | some t =>
    if s.now < t + s.fld 0xE0020 24 8 * 80000000 then .next s
    else
      let s := s.setLink { s.link with openedAt := none }
      .next (if s.door.state = 6 ∨ s.door.state = 10 then s.closeSoon (s.fld 0xE0020 17 3) false else s)

/-- The LINK block at a tick instant: the slow time of R497, an open in progress that has left the zone, the end of blind
levelling, and a tail of blind levelling that failed (R496, R497). -/
def State.linkTick (s : State) : State :=
  let k := s.link
  let slow := s.sense.lvalid[1] && decide ((s.sense.spd[1]).natAbs ≤ 10000)
  let slowAt := if slow then (match k.slowAt with | some t => some t | none => some s.now) else none
  let run := k.openRun && s.door.state = 5
  let s := s.setLink { k with slowAt := slowAt, openRun := run && s.linkZones }
  let s := if run && !s.linkZones then
      let t := ((s.complete .doorOpen .failed 0x5E 0).orderStop s.doorUnit false .door)
      let c : CloseSt := { profile := t.door.openProfile, nudge := false, since := t.now }
      t.setDoor { t.door with openAt := none, next := some (.closeMove t.door.openProfile false), close := some c }
    else s
  if s.link.blind ≠ 1 then s
  else if !s.ramp[0].moving then s.setLink { s.link with blind := 2 }
  else if s.blindTailFailed ∧ s.ramp[0].stopReq.isNone then
    match s.ramp[0].motion with
    | .run _ => (s.setLink { s.link with blindJ := s.lane.jnext }).blindStop
    | _ => s
  else s

/-- A write of a LINK register is refused (R500, R502): `v` the register's value after the write. -/
def State.linkRefused (a v : Nat) (s : State) : Option (Status × Nat) :=
  if (a = 0xE001C ∧ s.carStation) ∨ (a = 0xE0020 ∧ s.machine) then some (.wrongState, 1)
  else if s.link.state = 0 then none
  else if a = 0xE0004 ∨ a = 0xE0018 ∨ a = 0xE001C then some (.wrongState, 0xC0)
  else if a = 0xE0020 ∧ (bitsAt v 0 6 ≠ s.fld a 0 6 ∨ bitsAt v 8 6 ≠ s.fld a 8 6) then some (.wrongState, 0xC0)
  else none

end Sys2Proof.Machine
end

