-- ==== Sys2Proof/Machine/MillOp.lean ====
section
/-! DEFINITION. The mill instruction set (R400-R419): decoded instructions, their encodings, and the arithmetic. -/
namespace Sys2Proof.Machine

/-- A memory operand (R401): address register, mode, signed step. -/
structure MillEa where
  n : Fin 8
  mode : Fin 4
  step : Int
deriving DecidableEq, Repr

/-- A decoded instruction (R418). -/
inductive MillOp where
  | nop
  | halt
  | mov (d a : Fin 16)
  | add (sat : Bool) (d a b : Fin 16)
  | sub (sat : Bool) (d a b : Fin 16)
  | neg (sat : Bool) (d a : Fin 16)
  | abs (sat : Bool) (d a : Fin 16)
  | min (d a b : Fin 16)
  | max (d a b : Fin 16)
  | and (d a b : Fin 16)
  | or (d a b : Fin 16)
  | xor (d a b : Fin 16)
  | not (d a : Fin 16)
  | shl (sat : Bool) (d a : Fin 16) (sh : Nat)
  | asr (d a : Fin 16) (sh : Nat)
  | lsr (d a : Fin 16) (sh : Nat)
  | cmp (a b : Fin 16)
  | movi (d : Fin 16) (imm : BitVec 16)
  | movu (d : Fin 16) (imm : BitVec 16)
  | ldx (d : Fin 16) (ea : MillEa)
  | ldy (d : Fin 16) (ea : MillEa)
  | stx (d : Fin 16) (ea : MillEa)
  | sty (d : Fin 16) (ea : MillEa)
  | movai (n : Fin 8) (imm : BitVec 16)
  | setb (n : Fin 8) (imm : BitVec 16)
  | setl (n : Fin 8) (imm : BitVec 16)
  | movda (n : Fin 8) (a : Fin 16)
  | movad (d : Fin 16) (n : Fin 8)
  | mpy (sat : Bool) (ac : Fin 4) (a b : Fin 16)
  | mac (sat : Bool) (ac : Fin 4) (a b : Fin 16)
  | msu (sat : Bool) (ac : Fin 4) (a b : Fin 16)
  | macxy (sat : Bool) (ac : Fin 4) (x y : MillEa)
  | msuxy (sat : Bool) (ac : Fin 4) (x y : MillEa)
  | clra (ac : Fin 4)
  | accld (ac : Fin 4) (a : Fin 16) (sh : Nat)
  | accadd (sat : Bool) (ac : Fin 4) (a : Fin 16) (sh : Nat)
  | ext (sat : Bool) (d : Fin 16) (ac : Fin 4) (rnd : Bool) (sh : Nat)
  | b (cond : Nat) (off : Int)
  | call (cond : Nat) (off : Int)
  | ret (cond : Nat)
  | loop (d : Fin 16) (len count : Nat)
  | endl
  | rte
  | clrf (mask : BitVec 4)
  | movl (d : Fin 16) (imm : BitVec 32)
  | addl (sat : Bool) (d a : Fin 16) (imm : BitVec 32)
  | andl (d a : Fin 16) (imm : BitVec 32)
  | cmpl (a : Fin 16) (imm : BitVec 32)
  | ldxa (d : Fin 16) (w : Nat)
  | ldya (d : Fin 16) (w : Nat)
  | stxa (d : Fin 16) (w : Nat)
  | stya (d : Fin 16) (w : Nat)
deriving DecidableEq, Repr

/-! ### Encodings (R417, R418) -/

/-- The opcode, bits [31:26]. -/
def millOpcode (w : Nat) : Nat := w / 2 ^ 26 % 64

/-- An instruction has 64 bits (R417). -/
def millLong (w : Nat) : Bool := decide (0x30 ≤ millOpcode w ∧ millOpcode w ≤ 0x37)

/-- A data register field. -/
def millReg (w lo : Nat) : Fin 16 := fidx 15 (bitsAt w lo 4)

/-- The bits of a word outside a mask are 0; the opcode is not looked at. -/
def rest0 (w mask : Nat) : Bool := (w % 2 ^ 26) &&& mask = w % 2 ^ 26

/-- A memory operand of form F4. -/
def eaF4 (w : Nat) : MillEa := { n := fidx 7 (bitsAt w 18 3), mode := fidx 3 (bitsAt w 16 2), step := sext 16 w }
/-- The X operand of form F6. -/
def eaF6x (w : Nat) : MillEa := { n := fidx 7 (bitsAt w 20 3), mode := fidx 3 (bitsAt w 18 2), step := sext 5 (w / 2 ^ 13) }
/-- The Y operand of form F6. -/
def eaF6y (w : Nat) : MillEa := { n := fidx 7 (bitsAt w 10 3), mode := fidx 3 (bitsAt w 8 2), step := sext 5 (w / 2 ^ 3) }

/-- An instruction if its reserved bits are 0 and its fields are in range. -/
def okIf (c : Bool) (o : MillOp) : Option MillOp := if c then some o else none

/-- Opcodes 0x00-0x10: control-free register forms F1 and F2. -/
def decodeAlu (w : Nat) : Option MillOp :=
  let d := millReg w 21
  let a := millReg w 17
  let b := millReg w 13
  let s := bitAt w 25
  let sh := bitsAt w 11 6
  match millOpcode w with
  | 0x00 => okIf (rest0 w 0) .nop
  | 0x01 => okIf (rest0 w 0) .halt
  | 0x02 => okIf (rest0 w 0x1FE0000) (.mov d a)
  | 0x03 => okIf (rest0 w 0x3FFE000) (.add s d a b)
  | 0x04 => okIf (rest0 w 0x3FFE000) (.sub s d a b)
  | 0x05 => okIf (rest0 w 0x3FE0000) (.neg s d a)
  | 0x06 => okIf (rest0 w 0x3FE0000) (.abs s d a)
  | 0x07 => okIf (rest0 w 0x1FFE000) (.min d a b)
  | 0x08 => okIf (rest0 w 0x1FFE000) (.max d a b)
  | 0x09 => okIf (rest0 w 0x1FFE000) (.and d a b)
  | 0x0A => okIf (rest0 w 0x1FFE000) (.or d a b)
  | 0x0B => okIf (rest0 w 0x1FFE000) (.xor d a b)
  | 0x0C => okIf (rest0 w 0x1FE0000) (.not d a)
  | 0x0D => okIf (rest0 w 0x3FFF800 && decide (sh ≤ 31)) (.shl s d a sh)
  | 0x0E => okIf (rest0 w 0x1FFF800 && decide (sh ≤ 31)) (.asr d a sh)
  | 0x0F => okIf (rest0 w 0x1FFF800 && decide (sh ≤ 31)) (.lsr d a sh)
  | 0x10 => okIf (rest0 w 0x1FE000) (.cmp a b)
  | _ => none

/-- Opcodes 0x11-0x24: immediates, memory, multiplication and accumulators. -/
def decodeMem (w : Nat) : Option MillOp :=
  let d := millReg w 21
  let s := bitAt w 25
  let imm := BitVec.ofNat 16 w
  let n := fidx 7 (bitsAt w 21 3)
  let ac := fidx 3 (bitsAt w 23 2)
  let ac7 := fidx 3 (bitsAt w 19 2)
  let sh := bitsAt w 12 6
  match millOpcode w with
  | 0x11 => okIf (rest0 w 0x1E0FFFF) (.movi d imm)
  | 0x12 => okIf (rest0 w 0x1E0FFFF) (.movu d imm)
  | 0x13 => okIf (rest0 w 0x1FFFFFF) (.ldx d (eaF4 w))
  | 0x14 => okIf (rest0 w 0x1FFFFFF) (.ldy d (eaF4 w))
  | 0x15 => okIf (rest0 w 0x1FFFFFF) (.stx d (eaF4 w))
  | 0x16 => okIf (rest0 w 0x1FFFFFF) (.sty d (eaF4 w))
  | 0x17 => okIf (rest0 w 0xE0FFFF) (.movai n imm)
  | 0x18 => okIf (rest0 w 0xE0FFFF) (.setb n imm)
  | 0x19 => okIf (rest0 w 0xE0FFFF) (.setl n imm)
  | 0x1A => okIf (rest0 w 0xFE0000) (.movda n (millReg w 17))
  | 0x1B => okIf (rest0 w 0x1EE0000) (.movad d (fidx 7 (bitsAt w 17 3)))
  | 0x1C => okIf (rest0 w 0x3FF8000) (.mpy s ac (millReg w 19) (millReg w 15))
  | 0x1D => okIf (rest0 w 0x3FF8000) (.mac s ac (millReg w 19) (millReg w 15))
  | 0x1E => okIf (rest0 w 0x3FF8000) (.msu s ac (millReg w 19) (millReg w 15))
  | 0x1F => okIf (rest0 w 0x3FFFFF8) (.macxy s ac (eaF6x w) (eaF6y w))
  | 0x20 => okIf (rest0 w 0x3FFFFF8) (.msuxy s ac (eaF6x w) (eaF6y w))
  | 0x21 => okIf (rest0 w 0x1800000) (.clra ac)
  | 0x22 => okIf (rest0 w 0x1FBF000 && decide (sh ≤ 40)) (.accld ac7 d sh)
  | 0x23 => okIf (rest0 w 0x3FBF000 && decide (sh ≤ 40)) (.accadd s ac7 d sh)
  | 0x24 => okIf (rest0 w 0x3FFF000 && decide (sh ≤ 40)) (.ext s d ac7 (bitAt w 18) sh)
  | _ => none

/-- Opcodes 0x28-0x2E: control. -/
def decodeCtl (w : Nat) : Option MillOp :=
  let cond := bitsAt w 22 4
  let off := sext 16 w
  match millOpcode w with
  | 0x28 => okIf (rest0 w 0x3C0FFFF && decide (cond ≤ 10)) (.b cond off)
  | 0x29 => okIf (rest0 w 0x3C0FFFF && decide (cond ≤ 10)) (.call cond off)
  | 0x2A => okIf (rest0 w 0x3C00000 && decide (cond ≤ 10)) (.ret cond)
  | 0x2B => okIf (rest0 w 0x1FFFFFF && bitsAt w 10 11 ≠ 0) (.loop (millReg w 21) (bitsAt w 10 11) (bitsAt w 0 10))
  | 0x2C => okIf (rest0 w 0) .endl
  | 0x2D => okIf (rest0 w 0) .rte
  | 0x2E => okIf (rest0 w 0xF) (.clrf (BitVec.ofNat 4 w))
  | _ => none

/-- Opcodes 0x30-0x37: 64-bit instructions, with the second word. -/
def decodeLong (w imm : Nat) : Option MillOp :=
  let d := millReg w 21
  let a := millReg w 17
  let i := BitVec.ofNat 32 imm
  let adr := decide (imm < 2 ^ 16)
  match millOpcode w with
  | 0x30 => okIf (rest0 w 0x1E00000) (.movl d i)
  | 0x31 => okIf (rest0 w 0x3FE0000) (.addl (bitAt w 25) d a i)
  | 0x32 => okIf (rest0 w 0x1FE0000) (.andl d a i)
  | 0x33 => okIf (rest0 w 0x1E0000) (.cmpl a i)
  | 0x34 => okIf (rest0 w 0x1E00000 && adr) (.ldxa d imm)
  | 0x35 => okIf (rest0 w 0x1E00000 && adr) (.ldya d imm)
  | 0x36 => okIf (rest0 w 0x1E00000 && adr) (.stxa d imm)
  | 0x37 => okIf (rest0 w 0x1E00000 && adr) (.stya d imm)
  | _ => none

/-- The instruction of a word, and of the word that follows it; none is an illegal instruction (R416, cause 1). -/
def decodeMill (w imm : Nat) : Option MillOp :=
  if millLong w then decodeLong w imm else (decodeAlu w).or ((decodeMem w).or (decodeCtl w))

/-! ### The encoder (R417, R418) -/

/-- An instruction word of opcode `opc` with the fields `l`: (lowest bit, value). -/
def millWord (opc : Nat) (l : List (Nat × Nat)) : Nat := l.foldl (fun w f => w + f.2 * 2 ^ f.1) (opc * 2 ^ 26)

/-- The fields of a memory operand of form F4. -/
def eaFieldsF4 (e : MillEa) : List (Nat × Nat) := [(18, e.n.val), (16, e.mode.val), (0, ucode 16 e.step)]

/-- The fields of the operands of form F6. -/
def eaFieldsF6 (x y : MillEa) : List (Nat × Nat) :=
  [(20, x.n.val), (18, x.mode.val), (13, ucode 5 x.step), (10, y.n.val), (8, y.mode.val), (3, ucode 5 y.step)]

/-- The words of an instruction: the word of its opcode, and the word after it, 0 for an instruction of 32 bits. -/
def encodeMill (o : MillOp) : Nat × Nat :=
  match o with
  | .nop => (millWord 0x00 [], 0)
  | .halt => (millWord 0x01 [], 0)
  | .mov d a => (millWord 0x02 [(21, d.val), (17, a.val)], 0)
  | .add s d a b => (millWord 0x03 [(25, b2n s), (21, d.val), (17, a.val), (13, b.val)], 0)
  | .sub s d a b => (millWord 0x04 [(25, b2n s), (21, d.val), (17, a.val), (13, b.val)], 0)
  | .neg s d a => (millWord 0x05 [(25, b2n s), (21, d.val), (17, a.val)], 0)
  | .abs s d a => (millWord 0x06 [(25, b2n s), (21, d.val), (17, a.val)], 0)
  | .min d a b => (millWord 0x07 [(21, d.val), (17, a.val), (13, b.val)], 0)
  | .max d a b => (millWord 0x08 [(21, d.val), (17, a.val), (13, b.val)], 0)
  | .and d a b => (millWord 0x09 [(21, d.val), (17, a.val), (13, b.val)], 0)
  | .or d a b => (millWord 0x0A [(21, d.val), (17, a.val), (13, b.val)], 0)
  | .xor d a b => (millWord 0x0B [(21, d.val), (17, a.val), (13, b.val)], 0)
  | .not d a => (millWord 0x0C [(21, d.val), (17, a.val)], 0)
  | .shl s d a sh => (millWord 0x0D [(25, b2n s), (21, d.val), (17, a.val), (11, sh)], 0)
  | .asr d a sh => (millWord 0x0E [(21, d.val), (17, a.val), (11, sh)], 0)
  | .lsr d a sh => (millWord 0x0F [(21, d.val), (17, a.val), (11, sh)], 0)
  | .cmp a b => (millWord 0x10 [(17, a.val), (13, b.val)], 0)
  | .movi d i => (millWord 0x11 [(21, d.val), (0, i.toNat)], 0)
  | .movu d i => (millWord 0x12 [(21, d.val), (0, i.toNat)], 0)
  | .ldx d e => (millWord 0x13 ((21, d.val) :: eaFieldsF4 e), 0)
  | .ldy d e => (millWord 0x14 ((21, d.val) :: eaFieldsF4 e), 0)
  | .stx d e => (millWord 0x15 ((21, d.val) :: eaFieldsF4 e), 0)
  | .sty d e => (millWord 0x16 ((21, d.val) :: eaFieldsF4 e), 0)
  | .movai n i => (millWord 0x17 [(21, n.val), (0, i.toNat)], 0)
  | .setb n i => (millWord 0x18 [(21, n.val), (0, i.toNat)], 0)
  | .setl n i => (millWord 0x19 [(21, n.val), (0, i.toNat)], 0)
  | .movda n a => (millWord 0x1A [(21, n.val), (17, a.val)], 0)
  | .movad d n => (millWord 0x1B [(21, d.val), (17, n.val)], 0)
  | .mpy s ac a b => (millWord 0x1C [(25, b2n s), (23, ac.val), (19, a.val), (15, b.val)], 0)
  | .mac s ac a b => (millWord 0x1D [(25, b2n s), (23, ac.val), (19, a.val), (15, b.val)], 0)
  | .msu s ac a b => (millWord 0x1E [(25, b2n s), (23, ac.val), (19, a.val), (15, b.val)], 0)
  | .macxy s ac x y => (millWord 0x1F ([(25, b2n s), (23, ac.val)] ++ eaFieldsF6 x y), 0)
  | .msuxy s ac x y => (millWord 0x20 ([(25, b2n s), (23, ac.val)] ++ eaFieldsF6 x y), 0)
  | .clra ac => (millWord 0x21 [(23, ac.val)], 0)
  | .accld ac a sh => (millWord 0x22 [(21, a.val), (19, ac.val), (12, sh)], 0)
  | .accadd s ac a sh => (millWord 0x23 [(25, b2n s), (21, a.val), (19, ac.val), (12, sh)], 0)
  | .ext s d ac r sh => (millWord 0x24 [(25, b2n s), (21, d.val), (19, ac.val), (18, b2n r), (12, sh)], 0)
  | .b c off => (millWord 0x28 [(22, c), (0, ucode 16 off)], 0)
  | .call c off => (millWord 0x29 [(22, c), (0, ucode 16 off)], 0)
  | .ret c => (millWord 0x2A [(22, c)], 0)
  | .loop d len count => (millWord 0x2B [(21, d.val), (10, len), (0, count)], 0)
  | .endl => (millWord 0x2C [], 0)
  | .rte => (millWord 0x2D [], 0)
  | .clrf k => (millWord 0x2E [(0, k.toNat)], 0)
  | .movl d i => (millWord 0x30 [(21, d.val)], i.toNat)
  | .addl s d a i => (millWord 0x31 [(25, b2n s), (21, d.val), (17, a.val)], i.toNat)
  | .andl d a i => (millWord 0x32 [(21, d.val), (17, a.val)], i.toNat)
  | .cmpl a i => (millWord 0x33 [(17, a.val)], i.toNat)
  | .ldxa d w => (millWord 0x34 [(21, d.val)], w)
  | .ldya d w => (millWord 0x35 [(21, d.val)], w)
  | .stxa d w => (millWord 0x36 [(21, d.val)], w)
  | .stya d w => (millWord 0x37 [(21, d.val)], w)

/-- A memory operand whose step fits `w` signed bits. -/
def MillEa.fits (w : Nat) (e : MillEa) : Bool := decide (-(2 ^ (w - 1) : Int) ≤ e.step ∧ e.step < (2 ^ (w - 1) : Int))

/-- An instruction whose operands lie in the ranges of R417 and R418: only these have words. -/
def MillOp.wf (o : MillOp) : Bool :=
  match o with
  | .shl _ _ _ sh | .asr _ _ sh | .lsr _ _ sh => decide (sh ≤ 31)
  | .ldx _ e | .ldy _ e | .stx _ e | .sty _ e => e.fits 16
  | .macxy _ _ x y | .msuxy _ _ x y => x.fits 5 && y.fits 5
  | .accld _ _ sh | .accadd _ _ _ sh | .ext _ _ _ _ sh => decide (sh ≤ 40)
  | .b c off | .call c off => decide (c ≤ 10 ∧ -(2 ^ 15 : Int) ≤ off ∧ off < (2 ^ 15 : Int))
  | .ret c => decide (c ≤ 10)
  | .loop _ len count => decide (1 ≤ len ∧ len < 2048 ∧ count < 1024)
  | .ldxa _ w | .ldya _ w | .stxa _ w | .stya _ w => decide (w < 2 ^ 16)
  | _ => true

/-! ### Arithmetic (R405-R407) -/

/-- A data result (R405): the written word, and whether the true result lies outside 32 bits. -/
def dataResult (sat : Bool) (x : Int) : BitVec 32 × Bool :=
  let out := decide (x < -(2 ^ 31) ∨ 2 ^ 31 ≤ x)
  (BitVec.ofInt 32 (if sat then satS 32 x else x), out)

/-- An accumulator result (R406): the written value and whether the true result lies outside 72 bits. -/
def accResult (sat : Bool) (x : Int) : Int × Bool :=
  let out := decide (x < -(2 ^ 71) ∨ 2 ^ 71 ≤ x)
  (if sat then clamp (-(2 ^ 71)) (2 ^ 71 - 1) x else sext 72 (ucode 72 x), out)

/-- The guard bits are in use. -/
def guardUsed (x : Int) : Bool := decide (x < -(2 ^ 63) ∨ 2 ^ 63 ≤ x)

/-- The quotient of EXT (R407). -/
def extQuot (x : Int) (rnd : Bool) (sh : Nat) : Int := if rnd then roundAway x (2 ^ sh) else x / ((2 ^ sh : Nat) : Int)

end Sys2Proof.Machine
end

