-- ==== Sys2Proof/Machine/Mill.lean ====
section
/-! DEFINITION. The mills (R384-R424): fetch, the pipeline's visible order, address generation, traps, events, and how one
instruction issues. The instructions are in MillIsa.lean. -/
namespace Sys2Proof.Machine

/-! ### A mill and its registers -/

/-- A mill replaced. -/
def State.setMill (m : Fin 4) (q : MillSt) (s : State) : State := { s with mill := { s.mill with mill := s.mill.mill.set m q } }

/-- A mill is running: states 1, 2 and 3 (R385). -/
def MillSt.running (q : MillSt) : Bool := q.state = 1 || q.state = 2 || q.state = 3

/-- A program of the mill executes. -/
def MillSt.executes (q : MillSt) : Bool := q.state = 2 || q.state = 3

/-- The data registers of the bank in use, as stage E reads them. -/
def MillSt.data (q : MillSt) : Vector Word 16 := if q.bank then q.d1 else q.d0
/-- The accumulators of the bank in use. -/
def MillSt.accs (q : MillSt) : Vector Int 4 := if q.bank then q.acc1 else q.acc0
/-- The flags of the bank in use, as stage E reads them. -/
def MillSt.flags (q : MillSt) : MFlags := if q.bank then q.flags1 else q.flags0
/-- The loop stack of the bank in use, innermost first. -/
def MillSt.loops (q : MillSt) : List MLoop := if q.bank then q.loops1 else q.loops0

/-- A data register as an integer. -/
def MillSt.int (q : MillSt) (r : Fin 16) : Int := q.data[r].toInt

/-- An accumulator written. -/
def MillSt.putAcc (ac : Fin 4) (x : Int) (q : MillSt) : MillSt :=
  if q.bank then { q with acc1 := q.acc1.set ac x } else { q with acc0 := q.acc0.set ac x }
/-- The loop stack of the bank in use replaced. -/
def MillSt.putLoops (l : List MLoop) (q : MillSt) : MillSt := if q.bank then { q with loops1 := l } else { q with loops0 := l }
/-- The innermost loop ends: its loop cache is discarded (R393). -/
def MillSt.endLoop (l : List MLoop) (q : MillSt) : MillSt := { q.putLoops l with cache := none }
/-- A loop starts: the cache is filled for it if its body is at most 32 words long (R393). -/
def MillSt.enterLoop (l : MLoop) (q : MillSt) : MillSt :=
  { q.putLoops (l :: q.loops) with cache := if l.last < l.start + 128 then some [] else none }
/-- The program counter lies in the body of the innermost active loop. -/
def MillSt.inBody (q : MillSt) : Bool := match q.loops with | l :: _ => decide (l.start ≤ q.pc ∧ q.pc ≤ l.last) | [] => false
/-- The instruction at the program counter, as the loop cache holds it: its word and its second word (R393). -/
def MillSt.cached (q : MillSt) : Option (Nat × Nat) :=
  if q.inBody then q.cache.bind fun c => (c.find? fun e => e.1 = q.pc).map (·.2) else none
/-- A fetched instruction enters the loop cache, if one is in use for the body it stands in (R393; notes/assumptions/88.md). -/
def MillSt.fill (w imm : Nat) (q : MillSt) : MillSt :=
  if q.inBody then { q with cache := q.cache.map ((q.pc, w, imm) :: ·) } else q
/-- A data register of the bank in use written. -/
def MillSt.putReg (d : Fin 16) (w : Word) (q : MillSt) : MillSt :=
  if q.bank then { q with d1 := q.d1.set d w } else { q with d0 := q.d0.set d w }
/-- The flags of the bank in use written. -/
def MillSt.putFlags (f : MFlags) (q : MillSt) : MillSt := if q.bank then { q with flags1 := f } else { q with flags0 := f }

/-- What an instruction writes at W is written: its register and its flags. -/
def MillSt.write (w : MWrite) (q : MillSt) : MillSt :=
  let q := match w.reg with | some (d, v) => q.putReg d v | none => q
  match w.flags with | some f => q.putFlags f | none => q

/-- No write pending. -/
def noWrite : MWrite := ⟨none, none, none⟩

/-- The instructions issued so far complete (R397, R399, R416). -/
def MillSt.drain (q : MillSt) : MillSt :=
  let q := q.write q.wr
  { q with wr := noWrite, stickyE := q.sticky, dA := q.data, events := q.events ||| q.raised, raised := 0 }

/-! ### Memories (R384, R391) -/

/-- The gang of a mill, itself alone where it is compact (R391). -/
def gangOf (arr m : Nat) : List Nat :=
  if arr = 4 then [0, 1, 2, 3]
  else if (arr = 1 ∨ arr = 3) ∧ m < 2 then [0, 1]
  else if (arr = 2 ∨ arr = 3) ∧ 2 ≤ m then [2, 3]
  else [m]

/-- The size of a mill's program space. -/
def progSpace (arr m : Nat) : Nat := (gangOf arr m).length * 0x10000

/-- The host byte address of a program address (R384, R391). -/
def progAddr (arr m p : Nat) : Nat := 0x11000000 + ((gangOf arr m).getD (p / 0x10000) m) * 0x40000 + p % 0x10000

/-- The host byte address of a data word: X, or Y. -/
def dataAddr (m : Nat) (y : Bool) (w : Nat) : Nat := (if y then 0x11028000 else 0x11010000) + m * 0x40000 + 4 * w

/-! ### Traps and events (R408, R413, R416) -/

/-- A trap: the mill stops, the instructions before complete (R416). -/
def State.millTrap (m : Fin 4) (cause adr : Nat) (s : State) : State :=
  let q := (s.mill.mill[m]).drain
  let pc := q.pc % 2 ^ 18
  let q := { q with state := 4, trapWord := cause + pc * 256, trapAdr := adr, events := 0, delay := 0, target := none, rte := false }
  (s.setMill m q).post 0x0904 (m.val + cause * 16 + (if cause = 6 then adr else pc) * 256)

/-- Source `k` is raised: pending if its enable is 1 (R413). -/
def State.millRaise (m : Fin 4) (k : Nat) (s : State) : State :=
  if bitAt (s.reg (0x90008 + 0x100 * m.val)) k then
    s.setMill m { s.mill.mill[m] with events := s.mill.mill[m].events ||| (1#6 <<< k) }
  else s

/-- An instruction raises source `k` at its stage W (R408, R409, R413). -/
def State.millRaiseW (m : Fin 4) (k : Nat) (s : State) : State :=
  if bitAt (s.reg (0x90008 + 0x100 * m.val)) k then
    s.setMill m { s.mill.mill[m] with raised := s.mill.mill[m].raised ||| (1#6 <<< k) }
  else s

/-- Sticky flag `k` is set: posted at its change from 0, and its source raised (R408). `n`: the register of CFOLD. -/
def State.millSticky (m : Fin 4) (k n : Nat) (s : State) : State :=
  let q := s.mill.mill[m]
  if q.sticky.getLsbD k then s
  else
    let s := s.setMill m { q with sticky := q.sticky ||| (1#4 <<< k), cfreg := if k = 2 then n else q.cfreg }
    let s := if k < 3 then s.post (0x0901 + k) (m.val + (if k = 2 then n * 256 else 0)) else s
    s.millRaiseW m k

/-- A sticky flag is set where a condition holds. -/
def State.millStickyIf (c : Bool) (m : Fin 4) (k n : Nat) (s : State) : State := if c then s.millSticky m k n else s

/-! ### Address generation (R401-R404) -/

/-- The effective address of an operand, the new pointer, and whether the pointer was folded from outside its range; or the
trap: cause and address. -/
def MillSt.genEa (q : MillSt) (y : Bool) (e : MillEa) : Except (Nat × Nat) (Nat × Nat × Bool) :=
  let p : Int := q.ptr[e.n]
  let b : Int := q.base[e.n]
  let l : Int := q.len[e.n]
  let wrap (x : Int) : Int := x % 65536
  let r : Int × Int × Bool := match e.mode.val with
    | 0 => (p + e.step, p, false)
    | 1 => (p, wrap (p + e.step), false)
    | 2 =>
      let p' := b + (p - b) % l
      (p', wrap (b + (p' - b + e.step) % l), !decide (b ≤ p ∧ p < b + l))
    | _ => (wrap (p + e.step), wrap (p + e.step), false)
  if e.mode.val = 2 ∧ l = 0 then .error (3, 0)
  else if r.1 < 0 ∨ (if y then 0x5FFF else 0x63FF) < r.1 then .error (2, (wrap r.1).toNat + (if y then 65536 else 0))
  else .ok (r.1.toNat, r.2.1.toNat, r.2.2)

/-- An absolute address in range (R403). -/
def absEa (y : Bool) (w : Nat) : Except (Nat × Nat) Nat :=
  if (if y then 0x5FFF else 0x63FF) < w then .error (2, w % 65536 + (if y then 65536 else 0)) else .ok w

/-! ### The window and the data memories (R388-R390) -/

/-- A window word as the mill reads it. -/
def State.millWindow (m : Fin 4) (w : Nat) (s : State) : Word :=
  let q := s.mill.mill[m]
  if w = 0x6008 then q.cause.setWidth 32
  else if w = 0x6009 then q.stickyE.setWidth 32
  else if 0x6070 ≤ w ∧ w < 0x6080 then iword s.mill.winOut[fidx 15 (w - 0x6070)]
  else if 0x6200 ≤ w ∧ w < 0x6210 then iword (s.loop.slots[fidx 15 (w - 0x6200)]).injVal
  else if 0x6210 ≤ w ∧ w < 0x6218 then q.out[fidx 7 (w - 0x6210)]
  else ((s.mill.window.find? (·.1 = w)).map (·.2)).getD 0

/-- A window word written (R390). -/
def State.millPutWindow (m : Fin 4) (w : Nat) (v : Word) (s : State) : State :=
  if 0x6200 ≤ w ∧ w < 0x6210 then
    let i : Fin 16 := fidx 15 (w - 0x6200)
    if s.fld (0x30100 + 0x40 * i.val) 10 3 = m.val + 1 then
      { s with loop := { s.loop with slots := s.loop.slots.set i { s.loop.slots[i] with injVal := sext 31 v.toNat } } }
    else s
  else if 0x6210 ≤ w ∧ w < 0x6218 then
    s.setMill m { s.mill.mill[m] with out := (s.mill.mill[m]).out.set (fidx 7 (w - 0x6210)) v }
  else s

/-- A data word as stage E reads it: a word stored by the instruction before still reads as it was (R410). An uncorrectable
word traps (R387). -/
def State.millLoad (m : Fin 4) (y : Bool) (w : Nat) (s : State) : Except (Nat × Nat × State) (Word × State) :=
  let seen (v : Word) : Word := match s.mill.mill[m].wr.mem with
    | some (y', w', old) => if y' = y ∧ w' = w then old else v
    | none => v
  if !y && decide (0x6000 ≤ w) then .ok (seen (s.millWindow m w), s)
  else
    let a := dataAddr m.val y w
    let e := s.eccRead (a / 8 * 8) 8
    match e.1 with
    | some h => .error (6, h - 0x11000000, e.2)
    | none => .ok (seen (word (e.2.cell32 a)), e.2)

/-- A data word stored: the state after, and the word before. An uncorrectable code word traps (R387, R39). -/
def State.millStore (m : Fin 4) (y : Bool) (w : Nat) (v : Word) (s : State) : Except (Nat × Nat × State) (Word × State) :=
  if !y && decide (0x6000 ≤ w) then .ok (s.millWindow m w, s.millPutWindow m w v)
  else
    let a := dataAddr m.val y w
    let e := s.eccRead (a / 8 * 8) 8
    match e.1 with
    | some h => .error (6, h - 0x11000000, e.2)
    | none => .ok (word (e.2.cell32 a), e.2.storeBytes a (bytesLE 4 v.toNat))

/-! ### Fetch and issue (R391, R409-R412) -/

/-- The instruction that the words `w` and `imm` at the program counter make, with its size, or the trap of its fetch (R417). -/
def State.millDecode (m : Fin 4) (w imm : Nat) (s : State) : Except (Nat × Nat × State) (MillOp × Nat × State) :=
  if millLong w ∧ (s.mill.mill[m]).pc % 8 ≠ 0 then .error (5, 0, s)
  else match decodeMill w imm with
    | none => .error (1, 0, s)
    | some o => .ok (o, if millLong w then 8 else 4, s)

/-- The instruction at the program counter with its size, or the trap that its fetch makes (R416, R417). One that the loop cache
holds is not fetched; a fetched one enters the cache (R393). -/
def State.millFetch (m : Fin 4) (s : State) : Except (Nat × Nat × State) (MillOp × Nat × State) :=
  let q := s.mill.mill[m]
  if q.pc % 4 ≠ 0 ∨ progSpace s.mill.arr m.val ≤ q.pc then .error (5, 0, s)
  else match q.cached with
    | some (w, imm) => s.millDecode m w imm
    | none =>
      let a := progAddr s.mill.arr m.val q.pc
      let e := s.eccRead (a / 8 * 8) 8
      match e.1 with
      | some h => .error (6, h - 0x11000000, e.2)
      | none =>
        let w := e.2.cell32 a
        let imm := e.2.cell32 (a + 4)
        (e.2.setMill m ((e.2.mill.mill[m]).fill w imm)).millDecode m w imm

/-- What an instruction does besides its writes at W. -/
inductive MillOut where
  /-- A trap: cause and address, with the state in which it is made. -/
  | trap (cause adr : Nat) (s : State)
  /-- The next instruction follows, with what this one writes at W. -/
  | seq (w : MWrite) (s : State)
  /-- A transfer with two delay slots, taken if it has a target; whether it is an RTE. -/
  | jump (w : MWrite) (target : Option Nat) (rte : Bool) (s : State)
  /-- The instruction at this address follows (LOOP with count 0). -/
  | skip (next : Nat) (s : State)
  /-- HALT. -/
  | halt (s : State)

/-- A program address as a transfer reaches it; one outside 18 bits stays outside every program space. -/
def pcOf (x : Int) : Nat := if 0 ≤ x then x.toNat else 2 ^ 18 + (x % 2 ^ 18).toNat

/-- Control transfers, LOOP, ENDL and HALT (R411, R412). -/
def MillOp.control : MillOp → Bool
  | .b .. | .call .. | .ret .. | .rte | .loop .. | .endl | .halt => true
  | _ => false

/-- The next instruction lies among the last three words of an active loop body (R412, R414). -/
def MillSt.nearEnd (q : MillSt) : Bool :=
  q.loops.any fun l => decide (l.start ≤ q.pc ∧ q.pc ≤ l.last ∧ l.last ≤ q.pc + 8)

/-- The address after an instruction of `n` bytes, with the innermost loop served (R412). -/
def MillSt.follow (n : Nat) (q : MillSt) : MillSt :=
  match q.loops with
  | [] => { q with pc := q.pc + n }
  | l :: r =>
    if q.pc ≤ l.last ∧ l.last < q.pc + n ∧ l.start ≤ q.pc then
      if 1 < l.count then { q.putLoops ({ l with count := l.count - 1 } :: r) with pc := l.start }
      else { q.endLoop r with pc := q.pc + n }
    else { q with pc := q.pc + n }

/-- The bank returns to 0 at the end of an RTE's delay slots, and the loop cache is emptied (R415). -/
def MillSt.leaveBank (q : MillSt) : MillSt :=
  let q := q.write q.wr
  { q with wr := ⟨none, none, q.wr.mem⟩, bank := false, dA := q.d0, cause := 0, cache := none }

/-- The program counter moves on after an instruction of `n` bytes that is no transfer: a delay slot counts down, a taken
transfer's target follows the second (R411). -/
def MillSt.advance (n : Nat) (q : MillSt) : MillSt :=
  if q.delay = 0 then q.follow n
  else if q.delay = 1 then
    match q.target with
    | some t =>
      let r := { q with delay := 0, target := none, rte := false, pc := t }
      if q.rte then r.leaveBank else r
    | none => { q with delay := 0 }.follow n
  else { q.follow n with delay := q.delay - 1 }

/-- The pipeline moves on: the instruction before completes, this one's writes wait one more instruction (R409, R410). `old` is
the mill as this instruction found it, `n` the instruction's size. -/
def MillSt.retire (old : MillSt) (w : MWrite) (stall n : Nat) (q : MillSt) : MillSt :=
  { q.write old.wr with wr := w, dA := old.data, stickyE := old.sticky, run := q.run + 1 + stall,
                        events := q.events ||| old.raised, jumped := false, longs := if n = 8 then q.longs + 1 else 0 }

/-- The program counter has moved on from `pc`, past an instruction of `n` bytes: whether the next instruction waits for its fetch
in a four-mill gang (R392). `taken`: by a transfer. -/
def MillSt.jump (taken : Bool) (pc n : Nat) (q : MillSt) : MillSt :=
  { q with jumped := taken || (q.pc ≠ pc + n && q.cached.isNone) }

/-- The cycles that the instruction at the program counter can wait: one for a letter's access (R386), and in a four-mill gang one
for its fetch (R392). `n`: its size. -/
def MillSt.stallMax (arr n : Nat) (q : MillSt) : Nat :=
  1 + b2n (arr = 4 && (q.jumped || (n = 8 && decide (2 ≤ q.longs))))

/-- HALT ends the run (R397). -/
def MillSt.endRun (stall : Nat) (q : MillSt) : MillSt :=
  let n := q.run + 1 + stall
  let tick := q.state = 2
  { q.drain with state := if tick then 1 else 0, events := 0, cause := 0, run := n, cycles := if tick then n else q.cycles,
                 maxCyc := if tick then max q.maxCyc n else q.maxCyc }

/-- A pending event is due at the boundary before the next instruction (R414). -/
def MillSt.eventDue (q : MillSt) : Bool := q.executes && !q.bank && q.events ≠ 0 && q.delay = 0 && !q.nearEnd

/-- An instruction's outcome makes the next state of the mill. -/
def State.millFinish (m : Fin 4) (stall n : Nat) (old : MillSt) : MillOut → State
  | .trap c a s => s.millTrap m c a
  | .seq w s => s.setMill m (((MillSt.retire old w stall n s.mill.mill[m]).advance n).jump
      (old.delay = 1 && old.target.isSome) old.pc n)
  | .jump w t r s => s.setMill m { (MillSt.retire old w stall n s.mill.mill[m]).follow n with delay := 2, target := t, rte := r }
  | .skip p s => s.setMill m { MillSt.retire old noWrite stall n s.mill.mill[m] with pc := p }
  | .halt s => s.setMill m ((s.mill.mill[m]).endRun stall)

/-- One instruction issues: `pick` names the instructions of the command, with their effect; `stall`: the cycles it waited, of
those it can wait. Another instruction at the program counter, or an event that is due, leaves the mill as it was
(notes/assumptions/33.md). -/
def State.millRow (m : Fin 4) (stall : Nat) (pick : MillOp → Option (State → MillOut)) (s : State) : State :=
  let q := s.mill.mill[m]
  if !q.executes || !s.engineRuns then s
  else match s.millFetch m with
    | .error (c, a, t) => t.millTrap m c a
    | .ok (o, n, t) =>
      match pick o with
      | none => s
      | some f =>
        if q.eventDue ∧ o ≠ .halt then s
        else if o.control ∧ (q.delay ≠ 0 ∨ q.nearEnd) then t.millTrap m 4 0
        else State.millFinish m (min stall (q.stallMax s.mill.arr n)) n q
          (f (t.setMill m { t.mill.mill[m] with raised := 0 }))

/-! ### Event entry and tick starts (R397, R398, R414) -/

/-- MILL_EVENT_ENTRY: a pending event is taken at an allowed boundary, the loop cache is discarded (R393), and the handler starts
in bank 1. -/
def execMillEventEntry (m : Fin 4) (s : State) : Host.Outcome State Fault Refusal :=
  let q := s.mill.mill[m]
  if !q.eventDue || !s.engineRuns then .next s
  else
    let go : State :=
      let d := q.drain
      s.setMill m { d with epc := q.pc, bank := true, dA := q.d1, cause := q.events, events := q.raised, cache := none,
                           pc := s.reg (0x9000C + 0x100 * m.val), run := q.run + 2, jumped := true, longs := 0 }
    match s.millFetch m with
    | .error (c, a, t) => .next (t.millTrap m c a)
    | .ok (o, _, _) => .next (if o = .halt then s else go)

/-- A mill made ready to start at an address (R396, R397). -/
def MillSt.ready (p : Nat) (q : MillSt) : MillSt :=
  { q.drain with pc := p, bank := false, dA := q.drain.d0, loops0 := [], loops1 := [], cache := none, events := 0, cause := 0, delay := 0,
                 target := none, rte := false, run := 0, raised := 0, jumped := false, longs := 0 }

/-- MILL_TICK_START: at 10 µs after a tick instant, each mill in TICK_IDLE enters TICK_RUN at its entry address, but one whose
start of this tick is skipped; the window shows the outputs released before (R389, R397, R398). -/
def execMillTickStart (dt : Nat) (s : State) : Host.Outcome State Fault Refusal :=
  let s := s.advance dt
  if s.inReset then .next s else
  if s.now ≠ s.sys.tickAt + 800 ∨ !s.engineRuns then .next s
  else
    let start (q : MillSt) : MillSt := if q.state = 1 ∧ !q.skip then { q.ready q.entry with state := 2 } else q
    .next { s with mill := { s.mill with winOut := Vector.ofFn fun i : Fin 16 => s.released i, mill := s.mill.mill.map start } }

/-- A tick instant: the start of this tick is skipped for a mill found still in TICK_RUN, which is an overrun (R25, R398). -/
def State.millOverrun (m : Fin 4) (s : State) : State :=
  let q := s.mill.mill[m]
  if q.state ≠ 2 then s.setMill m { q with skip := false }
  else ((s.setMill m { q with ovr := satAdd 0xFFFF q.ovr 1, skip := true }).post 0x0905 m.val).millRaise m 4

/-- The mills at a tick instant. -/
def State.millTick (s : State) : State :=
  if s.engineRuns then (((s.millOverrun 0).millOverrun 1).millOverrun 2).millOverrun 3 else s

/-! ### Letters and registers (R394, R396, R399, R424) -/

/-- The mill that a letter names. -/
def millOf (n : Nat) : Fin 4 := fidx 3 n

/-- MILL_START (R396). -/
def millStartHandler : Handler :=
  handler (fun s p =>
      let e := u32 p 4
      lowestBad p [(2, 2)] [(0, decide (3 < u8 p 0)), (1, decide (1 < u8 p 1)),
        (4, decide (e % 4 ≠ 0 ∨ progSpace s.mill.arr (u8 p 0) ≤ e))])
    fun l s =>
      let m := millOf (u8 l.payload 0)
      let e := u32 l.payload 4
      let q := s.mill.mill[m]
      if q.running then refuse .wrongState 0x90 s
      else doneWith (s.setMill m { q.ready e with entry := e, state := if u8 l.payload 1 = 0 then 1 else 3,
                                                  pc := if u8 l.payload 1 = 0 then q.pc else e })

/-- MILL_START, start code 0: the entry address is set and the mill armed as a tick program. -/
def execMillStartTick (l : Letter) (s : State) : Host.Outcome State Fault Refusal := .next (s.serve 0x090 millStartHandler l)

/-- MILL_START, start code 1: the program runs once. -/
def execMillStartOnce (l : Letter) (s : State) : Host.Outcome State Fault Refusal := .next (s.serve 0x090 millStartHandler l)

/-- MILL_STOP (R399). -/
def millStopHandler : Handler :=
  handler (fun _ p => lowestBad p [] [(0, decide (3 < u32 p 0))])
    fun l s =>
      let m := millOf (u8 l.payload 0)
      let q := s.mill.mill[m]
      if q.state = 0 then doneWith s
      else doneWith (s.setMill m { q.drain with state := 0, delay := 0, target := none, rte := false })

/-- MILL_STOP: stops the mill and leaves it in STOPPED. -/
def execMillStop (l : Letter) (s : State) : Host.Outcome State Fault Refusal := .next (s.serve 0x091 millStopHandler l)

/-- MILL_FETCH (R394). -/
def millFetchHandler : Handler :=
  handler (fun _ p => lowestBad p [] [(0, decide (4 < u32 p 0))])
    fun l s =>
      let a := u8 l.payload 0
      let busy := (List.finRange 4).any fun m => (s.mill.mill[m]).running && gangOf a m.val ≠ gangOf s.mill.arr m.val
      if busy then refuse .wrongState 0x90 s else doneWith { s with mill := { s.mill with arr := a } }

/-- MILL_FETCH: sets the fetch arrangement of the mills. -/
def execMillFetch (l : Letter) (s : State) : Host.Outcome State Fault Refusal := .next (s.serve 0x092 millFetchHandler l)

/-- A write of MILLk_FLAGS clears the sticky flags whose bits are 1 (R408). -/
def State.millFlagsClear (m : Fin 4) (v : Nat) (s : State) : State :=
  let q := s.mill.mill[m]
  let k := ~~~ (BitVec.ofNat 4 v)
  s.setMill m { q with sticky := q.sticky &&& k, stickyE := q.stickyE &&& k }

/-- A write of MILLk_SIG raises SIG of a mill that executes (R413, R421). -/
def State.millSig (m : Fin 4) (v : Nat) (s : State) : State :=
  if bitAt v 0 && (s.mill.mill[m]).executes then s.millRaise m 5 else s

/-- A write of MILLk_EVVEC is refused (R424). -/
def State.evvecRefused (m : Fin 4) (v : Nat) (s : State) : Option (Status × Nat) :=
  if v % 4 ≠ 0 ∨ progSpace s.mill.arr m.val ≤ v then some (.badArg, 4)
  else if (s.mill.mill[m]).running then some (.wrongState, 0x92)
  else none

/-- A running mill fetches from a program memory that a range touches (R385). -/
def State.progInUse (a n : Nat) (s : State) : Bool :=
  (List.finRange 4).any fun m => (s.mill.mill[m]).running && (gangOf s.mill.arr m.val).any fun g =>
    let b := 0x11000000 + g * 0x40000
    decide (a < b + 0x10000 ∧ b < a + n)

end Sys2Proof.Machine
end

