-- ==== Sys2Proof/Machine/Reset.lean ====
section
/-! DEFINITION. Power-on reset, module reset and boot (R1-R5, R503, R504, R522-R531, R538). -/
namespace Sys2Proof.Machine

/-- The PWR block replaced. -/
def State.setPwr (p : PwrSt) (s : State) : State := { s with pwr := p }
/-- The flash die replaced. -/
def State.setFlash (f : FlashSt) (s : State) : State := { s with flash := f }

/-! ### The module reset (R522-R524) -/

/-- The life-cycle record and its count written in one step (R536, R538). -/
def FlashSt.transition (target : Nat) (f : FlashSt) : FlashSt :=
  { f with lc := target, lcCount := satAdd 0xFFFF f.lcCount 1, erase := f.erase || target = 4, lcFrom := some f.lc, lcTarget := none }

/-- A configuration copy replaced. -/
def FlashSt.putCopy (b : Fin 2) (isB : Bool) (c : ConfCopy) (f : FlashSt) : FlashSt :=
  if isB then { f with copyB := f.copyB.set b c } else { f with copyA := f.copyA.set b c }

/-- A section whose programming a reset cut short is invalid (R539). -/
def FlashSt.tear (f : FlashSt) : FlashSt :=
  match f.imgBusy with
  | some (b, k) => { f with imgBusy := none, fw := f.fw.set b { f.fw[b] with torn := k :: f.fw[b].torn } }
  | none => f

/-- The copy that a CONFIG_SAVE was writing is invalid (R539). -/
def FlashSt.dropSave (f : FlashSt) : FlashSt :=
  match f.saving with
  | some (b, isB, _) => { f.putCopy b isB .damaged with saving := none }
  | none => f

/-- The flash across a reset: what was being written is invalid, VERIFIED is 0, a stored key takes force unless the state is
BLANK (R534, R539). -/
def FlashSt.afterReset (f : FlashSt) : FlashSt :=
  let f := f.tear.dropSave
  { f with verifying := none, lcTarget := none, verified := Vector.replicate 2 false, stage := List.replicate 32 0#8,
           keyForce := if f.lc = 0 then none else f.key }

/-- A reset during the write of the life-cycle record leaves the old or the new state (R539). -/
def State.cutTransition (s : State) : State :=
  match s.flash.lcTarget with
  | some t => let b := s.freeBool
    if b.1 then b.2.setFlash (b.2.flash.transition t) else b.2
  | none => s

/-- What the PWR block and the always-on domain keep through a module reset made now: the supplies, the clocks, the temperatures and
PWR_RESETCAUSE, with the cause added (R522). -/
def PwrSt.afterReset (cause : Nat) (phase : Phase) (now : Postmark) (p : PwrSt) : PwrSt :=
  { PwrSt.init with
    phase := phase, seqAt := now, mains := p.mains, onVkeep := p.onVkeep, lostAt := p.lostAt, rescued := p.rescued, vlog := p.vlog,
    vkeep := p.vkeep, xtalOk := p.xtalOk, tempC := p.tempC, tempF := p.tempF, overC := p.overC, overF := p.overF,
    resetCause := p.resetCause ||| 2 ^ cause, sinceBoot := p.sinceBoot ||| 2 ^ cause, bank := p.bank, clockFault := p.clockFault,
    wakeSrc := if cause = 6 then p.wakeSrc else 0, lastMode := if cause = 6 then 3 else 0 }

/-- A module reset is asserted (R522-R524): every block as at reset, outputs off, memory zeroised, the event ring, the session
and the pending image cleared; the postmark runs on, the flash is kept. `cause`: the bit of PWR_RESETCAUSE. -/
def State.moduleReset (cause : Nat) (phase : Phase) (s : State) : State :=
  let s := s.cutTransition
  { State.reset with
    pending := s.pending, now := s.now, free := s.free, flash := s.flash.afterReset, pwr := s.pwr.afterReset cause phase s.now,
    lb := { LetterSt.init with left := s.lb.left },
    -- cause IMAGE stays until a valid image is loaded (R323)
    lock := { LockSt.init with imageBad := s.lock.imageBad },
    sys := { SysSt.init with strap := s.sys.strap, role := 0, agree := s.sys.agree, tickAt := s.now } }

/-- Where a module reset leads: a supply that does not hold keeps it asserted (R503). -/
def State.resetPhase (s : State) : Phase := if s.pwr.phase = .held then .held else .sequence

/-- POWER_ON_RESET: both supplies fell below 8.0 V and returned: the postmark is 0 and the cause is POR alone (R504, R508,
R522). -/
def execPowerOnReset (dt : Nat) (s : State) : Host.Outcome State Fault Refusal :=
  let s := (s.advance dt).cutTransition
  .next { State.reset with
    pending := s.pending, free := s.free, flash := s.flash.afterReset, lb := { LetterSt.init with left := s.lb.left },
    pwr := { PwrSt.init with phase := .held, bank := s.pwr.bank }, sys := { SysSt.init with role := 0 } }

/-- BROWN_OUT: both supplies lie below 9.5 V (R504). -/
def execBrownOut (dt vlog vkeep : Nat) (s : State) : Host.Outcome State Fault Refusal :=
  let s := s.advance dt
  if vlog < 9500 ∧ vkeep < 9500 then
    .next ((s.setPwr { s.pwr with vlog := vlog, vkeep := vkeep }).moduleReset 3 .held)
  else .next s

/-- RESET_PIN: RESET_N was held low for at least 10 µs (R522). -/
def execResetPin (dt : Nat) (s : State) : Host.Outcome State Fault Refusal :=
  let s := s.advance dt
  .next (s.moduleReset 1 s.resetPhase)

/-- SUPPLY_STABLE: the supply in use has met its threshold for 10 ms, and the control die is let out of module reset (R503);
VKEEP is in use while mains is lost. -/
def execSupplyStable (dt : Nat) (x : SupplyIn) (s : State) : Host.Outcome State Fault Refusal :=
  let s := s.advance dt
  if s.pwr.phase ≠ .held ∨ x.mv < (if x.fromVkeep then 10000 else 18000) ∨ s.now < x.since + 800000 then .next s
  else if x.fromVkeep then
    .next (s.setPwr { s.pwr with phase := .sequence, seqAt := s.now, mains := false, onVkeep := true, vkeep := x.mv,
                                 lostAt := match s.pwr.lostAt with | some t => some t | none => some s.now })
  else .next (s.setPwr { s.pwr with phase := .sequence, seqAt := s.now, mains := true, onVkeep := false, vlog := x.mv, lostAt := none,
                                    rescued := false })

/-- A strap code is valid (R2). -/
def strapOk (c : BitVec 2) : Bool := c = 1#2 || c = 2#2

/-- The instant 0.312 ms into the reset sequence has come; while the PLL is stopped the postmark advances by up to 2,442 counts at a
time (R508, R524). -/
def State.sequenceEnds (s : State) : Bool := decide (s.pwr.seqAt + 24960 ≤ s.now ∧ s.now < s.pwr.seqAt + 24960 + 2442)

/-- MODULE_RESET_SEQUENCE: the straps are read three times, and at 0.312 ms lane A is released, or both lanes stay held (R1-R4, R524). -/
def execModuleResetSequence (dt : Nat) (straps : Vector (BitVec 2) 3) (s : State) : Host.Outcome State Fault Refusal :=
  let s := s.advance dt
  if s.pwr.phase ≠ .sequence ∨ !s.sequenceEnds then .next s
  else
    let agree := straps[0] = straps[1] && straps[1] = straps[2]
    let ok := agree && strapOk straps[2]
    let s := { s with sys := { s.sys with strap := straps[2], agree := agree, role := if ok then straps[2] else 0 } }
    if ok then .next (s.setPwr { s.pwr with phase := .released, releasedAt := s.now })
    else
      let s := (s.setPwr { s.pwr with phase := .strapBad }).setLane { s.lane with stile := .none, laneA := .held, laneB := .held }
      .next (s.post 1 (straps[0].toNat + 256 * straps[1].toNat + 65536 * straps[2].toNat))

/-! ### Boot (R527-R531) -/

/-- The configuration copy of a bank that a boot uses: the valid one with the higher save count (R527). -/
def FlashSt.best (f : FlashSt) (b : Fin 2) : Option (Bool × Conf) :=
  match f.copyA[b], f.copyB[b] with
  | .valid x, .valid y => if x.saves < y.saves then some (true, y) else some (false, x)
  | .valid x, _ => some (false, x)
  | _, .valid y => some (true, y)
  | _, _ => none

/-- A bank holds a configuration copy that is not valid (R527, R533). -/
def FlashSt.copyBad (f : FlashSt) (b : Fin 2) : Bool := f.copyA[b] = .damaged || f.copyB[b] = .damaged

/-- The register record that a boot of a bank loads: the delivered values without a valid copy (R527). -/
def FlashSt.record (f : FlashSt) (b : Fin 2) : List (Nat × Word) :=
  match f.best b with
  | some x => x.2.regs
  | none => []

/-- A field of a register record. -/
def recordFld (r : List (Nat × Word)) (a lo len : Nat) : Nat := bitsAt (aget regDelivered a r).toNat lo len

/-- GEN_NEXT as a boot of a bank finds it (R531). -/
def FlashSt.genOf (f : FlashSt) (b : Fin 2) : Nat := f.genNext.getD (recordFld (f.record b) 0x14 8 8)

/-- The erasure of R538: the configuration copies, the next-value record and the key store. -/
def FlashSt.erased (f : FlashSt) : FlashSt :=
  if f.erase then
    { f with copyA := Vector.replicate 2 .blank, copyB := Vector.replicate 2 .blank, genNext := none, periodNext := none,
             budgetNext := none, key := none, keyForce := none, erase := false }
  else f

/-- The bank that boots, and whether it is the fallback; none: the recovery service (R527). -/
def FlashSt.bootBank (f : FlashSt) : Option (Fin 2 × Bool) :=
  let ok (b : Fin 2) : Bool := (f.fw[b].bad (f.genOf b)).isNone
  let a := f.activation
  let o : Fin 2 := ⟨1 - a.val, by omega⟩
  if ok a then some (a, false) else if ok o then some (o, true) else none

/-- The letter budget in force, in 0.25 µs, and whether it is clipped (R23). -/
def clipBudget (budget period : Nat) : Nat × Bool := (min budget (period * 5 - 80), decide (period * 5 - 80 < budget))

/-- The register record in force, with the next-value record applied: generation, tick length and budget (R23, R531). -/
def State.loadRecord (r : List (Nat × Word)) (s : State) : State :=
  let f := s.flash
  let s := { s with regs := r }
  let put (a : Nat) (o : Option Nat) (s : State) : State := match o with | some v => s.setFld a 8 8 v | none => s
  let s := put 0x10000 f.budgetNext (put 0x20 f.periodNext (put 0x14 f.genNext s))
  let period := s.fld 0x20 8 8
  let c := clipBudget (s.fld 0x10000 8 8) period
  let s := { s with sys := { s.sys with gen := s.fld 0x14 8 8, period := period, budget := c.1,
                                        tickAt := s.now - s.now % (period * 100) } }
  if c.2 then s.post 0x0104 (c.1 * 250) else s

/-- What a tick length can make invalid: the carrier factor and the tape timing, which leaves SSI0 disabled (R172, R204). -/
def State.checkTick (s : State) : State :=
  let s := { s with loop := { s.loop with kbad := !carrierOk (s.fld 0x34000 0 5) s.sys.period } }
  if s.fld 0x40400 15 1 = 1 && !s.ssiTimingOk (s.reg 0x40400) (s.reg 0x40404) then
    (s.setFld 0x40400 15 1 0).post 0x0402 5
  else s

/-- The interlock image of the copy in use, loaded and checked; `bad`: its stored CRC does not match (R340). -/
def State.loadImage (img : Option (List Byte)) (bad : Bool) (s : State) : State :=
  match img with
  | none => s
  | some b => if bad then s.imageFails 0 else s.imageLoad (some b)

/-- The groups of PWR_RESCUE2.SHEDMASK are shed at once (R517). -/
def State.mainsShed (s : State) : State :=
  [1, 2, 3, 4].foldl (fun s g =>
    if bitAt (s.fld 0xF001C 16 4) (g - 1) then
      ((s.setPwr { s.pwr with mainsShed := putBits s.pwr.mainsShed (g - 1) 1 1 }).outRefresh).post 0x0A05 g
    else s) s

/-- The events that a boot posts (R507, R514, R522, R536, R539). -/
def State.bootEvents (s : State) : State :=
  let p := s.pwr
  let s := s.post 7 p.sinceBoot
  let s := match p.clockFault with | some k => s.post 5 k | none => s
  let s := match s.flash.lcFrom with | some o => s.post 6 (o + 256 * s.flash.lc) | none => s
  let s := if bitAt p.sinceBoot 6 then s.post 0x0F05 (3 + 256 * p.wakeSrc) else s
  (s.setPwr { s.pwr with sinceBoot := 0, clockFault := none }).setFlash { s.flash with lcFrom := none }

/-- Mains lost across the reset is posted at boot (R539). -/
def State.bootMains (s : State) : State :=
  if s.pwr.lostAt.isSome then (s.post 0x0F01 s.pwr.vkeep).mainsShed else s

/-- Lane A is active, or lane B where lane A fails its boot; the other lane is brought to readiness (R371). -/
def State.bootLanes (aFails : Bool) (s : State) : State :=
  if aFails then s.setLane { s.lane with stile := .bActive, laneA := .resetting, laneB := .active } else s

/-- The stored letters wait on port 5 (R529). -/
def State.postStored (q : List Queued) (s : State) : State :=
  State.admitHeld { s with lb := { s.lb with held5 := q.map fun x => { x with arrival := s.now } } }

/-- The SENSE block starts with its configuration: every encoder channel that is on, and SSI0 (R197, R204, R218). -/
def State.senseStart (s : State) : State :=
  let on (k : Fin 3) (s : State) : State := if s.encMode k.val = 0 then s else s.encStart k
  let s := ((on 0 s |> on 1) |> on 2)
  { s with sense := { s.sense with ssiFrom := s.now } }

/-- The boot of a bank: registers, interlock image, events, stored letters; letter service begins (R527-R531). -/
def State.bootFrom (b : Fin 2) (fallback imageBad aFails : Bool) (s : State) : State :=
  let f := s.flash
  let c := f.best b
  let s := (s.loadRecord (f.record b)).checkTick.senseStart
  let s := s.setFlash { s.flash with activation := b }
  let s := s.setPwr { s.pwr with phase := .run, bank := b, fallback := fallback, copy := c.map (·.1),
                                 encOn := s.fld 0xF0004 2 1 = 1 }
  let s := if fallback then s.post 8 b.val else s
  let s := if c.isNone && f.copyBad b then s.post 9 b.val else s
  let s := (s.loadImage (c.bind fun x => x.2.image) imageBad).bootLanes aFails
  (s.bootEvents.bootMains).postStored (match c with | some x => x.2.letters | none => [])

/-- The recovery service (R527): delivered values, no output enables. -/
def State.recover (aFails : Bool) (s : State) : State :=
  let s := (s.loadRecord []).checkTick.senseStart
  let s := (s.setPwr { s.pwr with phase := .recovery, encOn := s.fld 0xF0004 2 1 = 1 }).bootLanes aFails
  (s.post 0xA 0).bootEvents.bootMains

/-- BOOT: lane A's boot ROM completes an erasure, checks the firmware, selects a bank and a configuration copy and loads the
register record, or enters the recovery service (R527, R538). -/
def execBoot (dt : Nat) (imageBad aFails : Bool) (s : State) : Host.Outcome State Fault Refusal :=
  let s := s.advance dt
  if s.pwr.phase ≠ .released then .next s
  else
    let s := s.setFlash s.flash.erased
    match s.flash.bootBank with
    | some (b, fb) => .next (s.bootFrom b fb imageBad aFails)
    | none => .next (s.recover aFails)

/-- BOOT_DONE: the last stored letter has been served (R529); with mains lost, DELAY of R519 counts from here (R539). -/
def execBootDone (dt : Nat) (s : State) : Host.Outcome State Fault Refusal :=
  let s := s.advance dt
  let p := s.pwr
  if (p.phase = .run ∨ p.phase = .recovery) ∧ p.bootDone = false ∧ (s.portQueue 5).isEmpty ∧ s.lb.held5.isEmpty then
    let t := min ((s.now - p.releasedAt) / 8000) 0xFFFF
    .next ((s.setPwr { p with bootDone := true, bootTime := t, lostAt := p.lostAt.map fun _ => s.now }).post 0xB t)
  else .next s

/-! ### MODULE_RESET -/

/-- The car or a door is moving (R510, R569). -/
def State.carMoves (s : State) : Bool := s.anyMoving || (s.carStation && s.doorMoving)

/-- MODULE_RESET (R372, R522, R569). -/
def moduleResetHandler : Handler :=
  handler (fun _ p => lowestBad p [] [(0, decide (u32 p 0 ≠ 1 ∧ u32 p 0 ≠ 2))])
    fun l s =>
      if s.carMoves then refuse .wrongState 0xD0 s
      else if u32 l.payload 0 = 1 then doneWith (s.setPwr { s.pwr with resetDue := true })
      else match s.laneResetRefused with
        | some d => refuse .wrongState d s
        | none => doneWith (s.laneReset true)

/-- The module reset that follows the receipt of MODULE_RESET kind 1, which is sent before it (R71). -/
def State.resetIfDue (port : Fin 6) (s : State) : State :=
  if s.pwr.resetDue then ((s.setPwr { s.pwr with resetDue := false }).portSent port).moduleReset 2 .sequence else s

/-- MODULE_RESET: kind 1 answers DONE and then makes a module reset. -/
def execModuleReset (l : Letter) (s : State) : Host.Outcome State Fault Refusal := .next ((s.serve 0x008 moduleResetHandler l).resetIfDue l.port)

/-- MODULE_RESET kind 2: a lane reset of the lane that does not hold the active role. -/
def execModuleResetLane (l : Letter) (s : State) : Host.Outcome State Fault Refusal := .next ((s.serve 0x008 moduleResetHandler l).resetIfDue l.port)

end Sys2Proof.Machine
end

