-- ==== Sys2Proof/Machine/Image.lean ====
section
/-! DEFINITION. CONFIG_SAVE, firmware images, keys and the life-cycle (R529-R538). -/
namespace Sys2Proof.Machine

/-! ### What CONFIG_SAVE stores (R529) -/

/-- A stored letter: port 5, the first class that its opcode permits. -/
def storedLetter (opc : Nat) (payload : List Byte) : Queued :=
  let cls := match opInfo opc with | some i => i.classes.headD 0 | none => 0
  { letter := { dt := 0, port := 5, cls := ⟨cls % 4, Nat.mod_lt _ (by decide)⟩, seq := 0, quiet := false, finalOnly := false,
                deadline := 0, tag := 0, payload := payload }, opc := opc, arrival := 0, gap := false }

/-- The TABLE_WRITE letters of a range, each of the longest length that R72 admits and an aligned address allows. -/
def State.tableLetters (s : State) (a n : Nat) : List Queued :=
  (List.range (ceilDiv n 4072)).map fun i =>
    let k := min 4072 (n - 4072 * i)
    storedLetter 0x020 (bytesLE 4 (a + 4072 * i) ++ bytesLE 4 k ++ s.cellsFrom (a + 4072 * i) k)

/-- The letters accepted last of an opcode, by object. -/
def State.keptLetters (s : State) (opc : Nat) (keep : Nat → Bool) : List Queued :=
  (s.lb.accepted.filter fun x => x.1 / 2 ^ 24 = opc && keep (x.1 % 2 ^ 24)).map fun x => storedLetter opc x.2

/-- A filter element is enabled: a match type other than 0 (R461). -/
def State.filterOn (s : State) (k : Nat) : Bool := bitsAt (s.can[fidx 2 (k / 65536)].filter (k % 65536)).w2.toNat 0 2 ≠ 0

/-- The letters that CONFIG_SAVE composes, in the order of R529. -/
def State.savedLetters (s : State) : List Queued :=
  let all (opc : Nat) := s.keptLetters opc fun _ => true
  ((List.range 8).flatMap fun k => s.tableLetters (s.reg (0x90 + 8 * k)) (s.reg (0x94 + 8 * k))) ++
  ((List.range 4).flatMap fun m => if s.mill.mill[fidx 3 m].state = 0 then [] else s.tableLetters (0x11000000 + 0x40000 * m) 0x40000) ++
  all 0x034 ++ all 0x0A3 ++ all 0x050 ++ all 0x052 ++ all 0x053 ++ all 0x036 ++ all 0x040 ++ all 0x092 ++
  s.keptLetters 0x090 (fun m => s.mill.mill[fidx 3 m].state = 1) ++ s.keptLetters 0x0B1 s.filterOn ++ all 0x0B0 ++
  (if s.link.state = 0 then [] else all 0x0C0) ++ all 0x062 ++ all 0x063 ++
  (if 3 ≤ s.group.state then all 0x060 else []) ++ all 0x081

/-- A register's stored fields whose reset is "from flash"; the others at their delivered values. -/
def flashFields (a n : Nat) : Nat :=
  (regFields a).foldl (fun v f => if f.flash then putBits v f.lo f.len (bitsAt n f.lo f.len) else v) (regDelivered a).toNat

/-- The register record of R529. -/
def State.savedRegs (s : State) : List (Nat × Word) :=
  s.regs.foldl (fun r x => aset regDelivered x.1 (word (flashFields x.1 x.2.toNat)) r) []

/-- The copy of a bank that CONFIG_SAVE writes: the one that is not valid, or the one with the lower save count (R530). -/
def FlashSt.older (f : FlashSt) (b : Fin 2) : Bool :=
  match f.best b with
  | some (isB, _) => !isB
  | none => false

/-- A range of SYS_SAVEk that does not lie wholly within one table-space region (R530). -/
def State.badRange (s : State) : Option Nat :=
  (List.range 8).find? fun k => s.reg (0x94 + 8 * k) ≠ 0 && !tableRange (s.reg (0x90 + 8 * k)) (s.reg (0x94 + 8 * k))

/-- The bank that a payload names. -/
def bankOf (p : List Byte) : Fin 2 := fidx 1 (u32 p 0)

/-- CONFIG_SAVE (R530). -/
def configSaveHandler : Handler :=
  handler (fun _ p => lowestBad p [] [(0, decide (1 < u32 p 0))])
    fun l s =>
      match s.badRange with
      | some k => refuseWith .wrongState 0xEC k s
      | none =>
        if s.flashBusy then refuse .wrongState 0xE1 s
        else if s.flash.lc = 4 then refuse .wrongState 0xE0 s
        else
          let b := bankOf l.payload
          let saves := match s.flash.best b with
            | some (_, c) => c.saves + 1
            | none => 1
          let len := s.freeUpTo (3637248 - 128)
          let c : Conf := { saves := saves, fwVersion := s.fwVersion, len := len.1, regs := s.savedRegs, letters := s.savedLetters,
                            image := s.lock.image1 }
          let isB := s.flash.older b
          let s := len.2
          (.queued .configSave, s.setFlash { s.flash.putCopy b isB .damaged with saving := some (b, isB, c) })

/-- CONFIG_SAVE: writes the older configuration copy of a bank. -/
def execConfigSave (l : Letter) (s : State) : Host.Outcome State Fault Refusal := .next (s.serve 0x010 configSaveHandler l)

/-- CONFIG_SAVE_DONE: the write and the read-back end; `ok`: the copy reads back correctly (R530). -/
def execConfigSaveDone (dt : Nat) (ok : Bool) (s : State) : Host.Outcome State Fault Refusal :=
  let s := s.advance dt
  if s.inReset then .next s else
  match s.flash.saving with
  | none => .next s
  | some (b, isB, c) =>
    let f := { s.flash with saving := none }
    if ok then .next ((s.setFlash (f.putCopy b isB (.valid c))).complete .configSave .done 0 0)
    else .next ((s.setFlash f).complete .configSave .failed 0xEA 0)

/-! ### Firmware images (R532, R533) -/

/-- The lane runs from a bank; the recovery service runs from none (R525, R527). -/
def State.runsBank (s : State) (b : Fin 2) : Bool := s.pwr.phase ≠ .recovery && s.pwr.bank = b

/-- One byte programmed; over a byte that is not erased its value is free (notes/assumptions/12.md). -/
def FwSec.program (o : Nat) (b fr : Byte) (f : FwSec) : FwSec :=
  let old := aget f.blank o f.cells
  let new := if old = 0xFF#8 || old = b then b else fr
  { f with cells := aset f.blank o new f.cells }

/-- Bytes programmed from `o` up, with a fresh free byte for each. -/
def programBytes (n o : Nat) : List Byte → FwSec → FwSec
  | [], f => f
  | b :: bs, f => programBytes (n + 1) (o + 1) bs (f.program o b ((Config.freeWord n).setWidth 8))

/-- A sector erased. -/
def FwSec.eraseSector (k : Nat) (f : FwSec) : FwSec :=
  { f with kept := f.kept.filter (· ≠ k), torn := f.torn.filter (· ≠ k), cells := f.cells.filter (fun c => c.1 / 65536 ≠ k) }

/-- IMAGE_WRITE (R532). -/
def imageWriteHandler : Handler :=
  handler (fun _ p => lowestBad p [] [(0, decide (1 < u32 p 0)), (4, decide (u32 p 4 % 16 ≠ 0 ∨ 0x100000 < u32 p 4 + (p.length - 8)))])
    fun l s =>
      let b := bankOf l.payload
      let o := u32 l.payload 4
      let d := l.payload.drop 8
      if d.length % 16 ≠ 0 then refuse .badArg 0xFF s
      else if s.runsBank b then refuse .wrongState 0xE7 s
      else if s.flashBusy then refuse .wrongState 0xE1 s
      else
        let f := s.flash.fw[b]
        let f := if o % 65536 = 0 ∧ o < 0x100000 then f.eraseSector (o / 65536) else f
        let f := programBytes s.free o d { f with factory := none }
        doneWith ({ s with free := s.free + d.length }.setFlash
          { s.flash with fw := s.flash.fw.set b f, verified := s.flash.verified.set b false, imgBusy := some (b, o / 65536) })

/-- IMAGE_WRITE: programs firmware-section bytes of a bank that is not running. -/
def execImageWrite (l : Letter) (s : State) : Host.Outcome State Fault Refusal := .next (s.serve 0x0E0 imageWriteHandler l)

/-- FLASH_PROGRAM_DONE: programming after IMAGE_WRITE ends (R532). -/
def execFlashProgramDone (dt : Nat) (s : State) : Host.Outcome State Fault Refusal :=
  let s := s.advance dt
  if s.inReset then .next s else
  .next (s.setFlash { s.flash with imgBusy := none })

/-- IMAGE_VERIFY (R533). -/
def imageVerifyHandler : Handler :=
  handler (fun _ p => lowestBad p [] [(0, decide (1 < u32 p 0))])
    fun l s =>
      if s.flashBusy then refuse .wrongState 0xE1 s
      else (.queued .imageVerify, s.setFlash { s.flash with verifying := some (bankOf l.payload) })

/-- IMAGE_VERIFY: checks a bank's firmware and configuration copies. -/
def execImageVerify (l : Letter) (s : State) : Host.Outcome State Fault Refusal := .next (s.serve 0x0E1 imageVerifyHandler l)

/-- What IMAGE_VERIFY finds wrong with a bank (R533). -/
def State.bankBad (s : State) (b : Fin 2) : Option Nat :=
  match s.flash.fw[b].bad (s.fld 0x14 8 8) with
  | some 0xE6 => if s.flash.copyBad b then some 0xE5 else some 0xE6
  | some d => some d
  | none => if s.flash.copyBad b then some 0xE5 else none

/-- IMAGE_VERIFY_DONE: the verification ends (R533). -/
def execImageVerifyDone (dt : Nat) (s : State) : Host.Outcome State Fault Refusal :=
  let s := s.advance dt
  if s.inReset then .next s else
  match s.flash.verifying with
  | none => .next s
  | some b =>
    let s := s.setFlash { s.flash with verifying := none }
    match s.bankBad b with
    | some d => .next (s.complete .imageVerify .failed d 0)
    | none => .next ((s.setFlash { s.flash with verified := s.flash.verified.set b true }).complete .imageVerify .done 0 0)

/-- IMAGE_ACTIVATE (R533). -/
def imageActivateHandler : Handler :=
  handler (fun _ p => lowestBad p [] [(0, decide (1 < u32 p 0))])
    fun l s =>
      let b := bankOf l.payload
      if !s.flash.verified[b] then refuse .wrongState 0xE8 s else doneWith (s.setFlash { s.flash with activation := b })

/-- IMAGE_ACTIVATE: writes the activation record for a verified bank. -/
def execImageActivate (l : Letter) (s : State) : Host.Outcome State Fault Refusal := .next (s.serve 0x0E2 imageActivateHandler l)

/-! ### Keys and the life-cycle (R534-R538) -/

/-- A CRC written to SYS_KEYCTL: a match stores the staged key; the staged bytes are cleared in both cases (R534). -/
def State.keyctl (v : Nat) (s : State) : State :=
  let f := s.flash
  let key := if (crc32c f.stage).toNat = v then some f.stage else f.key
  s.setFlash { f with key := key, stage := List.replicate 32 0#8 }

/-- The transport key is in force (R534). -/
def State.transportKey (s : State) : Bool := s.flash.keyForce.isNone

/-- A stored key is not yet in force (SYS_LC.KEYPEND). -/
def State.keyPending (s : State) : Bool := s.flash.key.isSome && s.flash.keyForce ≠ s.flash.key

/-- The transitions of R535. -/
def transitionOk (lc target : Nat) : Bool :=
  match lc with
  | 0 => target = 1 || target = 4
  | 1 => target = 2 || target = 4
  | 2 => target = 1 || target = 3 || target = 4
  | 3 => target = 2 || target = 4
  | _ => false

/-- An image is in force, and its CRC is that of the image of the copy in use of the running bank (R341). -/
def State.imageSaved (s : State) : Bool :=
  match s.image, (s.flash.best s.pwr.bank).bind fun x => x.2.image with
  | some i, some j => crc32c i = crc32c j
  | _, _ => false

/-- LC_TRANSITION (R536). -/
def lcTransitionHandler : Handler :=
  handler (fun _ p => lowestBad p [] [(0, decide (u32 p 0 = 0 ∨ 4 < u32 p 0))])
    fun l s =>
      let t := u32 l.payload 0
      if !transitionOk s.flash.lc t then refuse .wrongState 0xE0 s
      else if !s.parked then refuse .wrongState 0xD0 s
      else if t = 2 && s.transportKey && s.flash.key.isNone then refuse .wrongState 0xEB s
      else if t = 3 && !s.imageSaved then refuse .wrongState 0x70 s
      else if s.flashBusy then refuse .wrongState 0xE1 s
      else (.queued .lcTransition, s.setFlash { s.flash with lcTarget := some t })

/-- LC_TRANSITION: writes the new life-cycle state. -/
def execLcTransition (l : Letter) (s : State) : Host.Outcome State Fault Refusal := .next (s.serve 0x0E3 lcTransitionHandler l)

/-- LC_RECORD_WRITTEN: the record is written, LC_TRANSITION is answered DONE, and a module reset follows (R536). -/
def execLcRecordWritten (dt : Nat) (s : State) : Host.Outcome State Fault Refusal :=
  let s := s.advance dt
  if s.inReset then .next s else
  match s.flash.lcTarget with
  | none => .next s
  | some t =>
    let port := match s.lb.outst.find? (fun o => o.act = .lcTransition) with | some o => o.port | none => 0
    .next ((((s.setFlash (s.flash.transition t)).complete .lcTransition .done 0 0).portSent port).moduleReset 5 .sequence)

end Sys2Proof.Machine
end

