-- ==== Sys2Proof/Machine/LoopLetters.lean ====
section
/-! DEFINITION. The letters of the loop group, 0x050-0x055, and the checks of register writes to the LOOP block. -/
namespace Sys2Proof.Machine

/-- The lowest offending offset of a slot descriptor (R135). -/
def descBad (b : List Byte) : Option Nat :=
  let n := u8 b 1
  let rate := u8 b 0
  let dest := u8 b 7
  lowestBad b [(50, 14)]
    [(0, decide (1 < rate)), (1, decide (n = 0 ∨ 8 < n)), (2, decide (2 ^ min n 8 ≤ u8 b 2)),
     (3, decide (1 < u8 b 3 ∨ (u8 b 3 = 1 ∧ rate ≠ 0))), (4, !codeOk (u8 b 4)), (5, !codeOk (u8 b 5)), (6, !codeOk (u8 b 6)),
     (7, decide (5 < dest) || (decide (dest = 1 ∨ dest = 2) && decide (rate ≠ 1)) || (decide (3 ≤ dest) && decide (rate ≠ 0))),
     (8, decide (u32 b 8 = 0 ∨ 2147483647 < u32 b 8)), (20, !codeOk (u8 b 20)), (21, !codeOk (u8 b 21)),
     (22, decide (15 < u8 b 22)), (23, decide (3 < u8 b 23)), (24, !codeNorm (u8 b 20) && decide (u32 b 24 = 0)),
     (28, !codeNorm (u8 b 21) && decide (u32 b 28 = 0)), (36, decide (sext 31 (u32 b 36) ≤ sext 31 (u32 b 32))),
     (40, decide (sext 31 (u32 b 40) < 0)), (44, decide (sext 31 (u32 b 44) ≤ 0)), (48, decide (u16 b 48 = 0))]

/-- The role does not allow the descriptor (R6, R7, R135, R136). -/
def State.descRole (s : State) (b : List Byte) : Bool :=
  let dest := u8 b 7
  if s.machine then dest = 5
  else u8 b 0 = 1 || decide (1 ≤ dest ∧ dest ≤ 4) || codeMachine (u8 b 4) || codeMachine (u8 b 5) || codeMachine (u8 b 6) ||
    codeMachine (u8 b 20) || codeMachine (u8 b 21)

/-- The budget, count and destination refusals of a new descriptor (R134, R145-R147). -/
def State.descRefused (s : State) (i : Fin 16) (b : List Byte) : Option (Nat × Nat) :=
  let q := s.loop.slots[i]
  let others := (List.finRange 16).filter fun j => j ≠ i && s.loop.slots[j].configured
  let own := if q.configured && q.d 0 = 0 then tickCost q.desc (s.notchOn i.val).isSome else 0
  let ownC := if q.configured && q.d 0 = 1 then curCost q.desc else 0
  let tick := s.tickLoad 16 - own + tickCost b (s.notchOn i.val).isSome
  let cur := s.curLoad - ownC + curCost b
  let nCur := (others.filter fun j => s.loop.slots[j].d 0 = 1).length
  let nWit := (others.filter fun j => s.loop.slots[j].d 3 = 1).length
  if u8 b 0 = 0 ∧ 6600 < tick then some (0x32, tick)
  else if u8 b 0 = 1 ∧ (1000 < cur ∨ 4 ≤ nCur) then some (0x33, cur)
  else if u8 b 3 = 1 ∧ 4 ≤ nWit then some (0x34, 0)
  else if u8 b 7 ≠ 0 ∧ others.any fun j => s.loop.slots[j].d 7 = u8 b 7 then some (0x3B, 0)
  else none

/-- LOOP_CONFIG (R134, R135). -/
def loopConfigHandler : Handler :=
  handler (fun _ p => lowestBad p [] [(0, decide (15 < u32 p 0)), (4, decide (u32 p 4 ≠ 0) && !tableRange (u32 p 4) 64)])
    fun l s =>
      let p := l.payload
      let i := slotIdx (u32 p 0)
      let a := u32 p 4
      if !s.loop.slots[i].off then refuse .wrongState 0x30 s
      else if a = 0 then doneWith (s.setSlot i SlotSt.init)
      else
        let e := s.eccRead a 64
        match e.1 with
        | some w => refuseWith .failed 1 w e.2
        | none =>
          let s := e.2
          let b := s.cellsFrom a 64
          match descBad b with
          | some o => refuseWith .wrongState 0x31 o s
          | none =>
            if s.descRole b then refuse .wrongState 1 s
            else match s.descRefused i b with
              | some (d, f) => refuseWith .wrongState d f s
              | none =>
                let c := clearedBank (u8 b 2)
                doneWith (s.setSlot i { SlotSt.init with desc := b, bank0 := c, bank1 := c, eff := c, tickEff := c,
                                                          injVal := s.loop.slots[i].injVal })

/-- LOOP_CONFIG: copies a slot descriptor into a slot, leaving it configured and OFF, or unconfigures the slot. -/
def execLoopConfig (l : Letter) (s : State) : Host.Outcome State Fault Refusal := .next (s.serve 0x050 loopConfigHandler l)

/-- LOOP_MODE (R149). -/
def loopModeHandler : Handler :=
  handler (fun _ p => lowestBad p [(2, 2)] [(0, decide (15 < u8 p 0))])
    fun l s =>
      let i := slotIdx (u8 l.payload 0)
      let m := u8 l.payload 1
      let q := s.loop.slots[i]
      if 4 < m then refuse .wrongState 0x31 s
      else if !q.configured then refuse .wrongState 0x3C s
      else if q.d 0 = 1 ∧ s.loop.trip then refuse .wrongState 0x39 s
      else if q.d 0 = 1 ∧ s.loop.kbad then refuse .wrongState 0x3A s
      else doneWith (s.setSlot i { q with req := some m, reqBlk := false })

/-- LOOP_MODE: sets a slot's mode at its next sample, with a hand-over where required. -/
def execLoopMode (l : Letter) (s : State) : Host.Outcome State Fault Refusal := .next (s.serve 0x051 loopModeHandler l)

/-- COEF_BANK (R156, R157). -/
def coefBankHandler : Handler :=
  handler (fun _ p => lowestBad p [(2, 2)] [(0, decide (15 < u8 p 0)), (1, decide (1 < u8 p 1)),
      (4, decide (u32 p 4 % 8 ≠ 0) || !tableRange (u32 p 4) 192)])
    fun l s =>
      let p := l.payload
      let i := slotIdx (u8 p 0)
      let b := u8 p 1 = 1
      let q := s.loop.slots[i]
      if !q.configured then refuse .wrongState 0x3C s
      else if s.scheduled i.val then refuse .wrongState 0x35 s
      else
        let e := s.eccRead (u32 p 4) 192
        match e.1 with
        | some w => refuseWith .failed 1 w e.2
        | none =>
          let s := e.2
          let bs := s.cellsFrom (u32 p 4) 192
          match firstNonzero bs 168 24 with
          | some o => refuseWith .wrongState 0x31 o s
          | none =>
            let c := coefSet bs
            match q.unstable c with
            | some k => refuseWith .wrongState 0x36 k s
            | none =>
              -- the set replaces what single writes still waiting for the bank would have made (notes/assumptions/91.md)
              let q := { q with queue := q.queue.filter (·.1 ≠ b) }
              if b = s.bankSel i.val && (q.mode = 1 || q.mode = 2) then doneWith (s.setSlot i { q with newSet := some c })
              else doneWith (s.setSlot i (q.putBank b c))

/-- COEF_BANK: copies a coefficient set into a slot's bank, with a preset if the bank is in use. -/
def execCoefBank (l : Letter) (s : State) : Host.Outcome State Fault Refusal := .next (s.serve 0x052 coefBankHandler l)

/-- The region table of a schedule: lower bounds and set addresses (R160). -/
def State.regionTable (s : State) (a k : Nat) : List (Int × Nat) :=
  (List.range k).map fun i => (sext 64 (s.cell32 (a + 16 * i) + 2 ^ 32 * s.cell32 (a + 16 * i + 4)), s.cell32 (a + 16 * i + 8))

/-- The lowest offending offset of a region table for `n` scheduled slots (R160). -/
def State.regionsBad (s : State) (a k n : Nat) : Option Nat :=
  let t := s.regionTable a k
  (List.range k).foldl (fun o i =>
    let e := t.getD i (0, 0)
    let o := if decide (2 ≤ i) && decide (e.1 ≤ (t.getD (i - 1) (0, 0)).1) then minOff o (some (16 * i)) else o
    let o := if e.2 % 8 ≠ 0 || !tableRange e.2 (192 * n) then minOff o (some (16 * i + 8)) else o
    if s.cell32 (a + 16 * i + 12) ≠ 0 then minOff o (some (16 * i + 12)) else o) none

/-- The first unstable section among the sets of a region table, or the first word that cannot be read (R141, R159). -/
def State.regionSets (mask : Nat) (t : List (Int × Nat)) (s : State) : (Option (Bool × Nat)) × State :=
  let slots := (List.finRange 16).filter fun i => mask.testBit i.val
  t.foldl (fun (r : (Option (Bool × Nat)) × State) e =>
    slots.foldl (fun r i =>
      match r.1 with
      | some _ => r
      | none =>
        let a := e.2 + 192 * schedRank mask i.val
        let x := r.2.eccRead a 192
        match x.1 with
        | some w => (some (true, w), x.2)
        | none =>
          match (x.2.loop.slots[i]).unstable (coefSet (x.2.cellsFrom a 192)) with
          | some k => (some (false, k), x.2)
          | none => (none, x.2)) r) (none, s)

/-- SCHED_SET (R159, R160). -/
def schedSetHandler : Handler :=
  handler (fun _ p =>
      if u16 p 0 = 0 then none
      else lowestBad p [] [(2, decide (2 < u8 p 2)), (3, decide (u8 p 3 = 0 ∨ 32 < u8 p 3)),
        (4, !tableRange (u32 p 4) (16 * u8 p 3))])
    fun l s =>
      let p := l.payload
      let mask := u16 p 0
      let both := mask ||| (if s.loop.var = 3 then 0 else s.loop.mask)
      if (List.finRange 16).any fun i => both.testBit i.val && !s.loop.slots[i].off then refuse .wrongState 0x30 s
      else if mask = 0 then
        doneWith { s with loop := { s.loop with var := 3, mask := 0, regions := [], schedFrozen := false } }
      else
        let a := u32 p 4
        let k := u8 p 3
        let e := s.eccRead a (16 * k)
        match e.1 with
        | some w => refuseWith .failed 1 w e.2
        | none =>
          let s := e.2
          match s.regionsBad a k ((List.range 16).filter mask.testBit).length with
          | some o => refuseWith .wrongState 0x31 o s
          | none =>
            let t := s.regionTable a k
            let r := s.regionSets mask t
            match r.1 with
            | some (true, w) => refuseWith .failed 1 w r.2
            | some (false, x) => refuseWith .wrongState 0x36 x r.2
            | none =>
              let waits (i : Fin 16) : SlotSt :=
                let q := r.2.loop.slots[i]
                if mask.testBit i.val then { q with queue := [], newSet := none } else q
              let s := { r.2 with loop := { r.2.loop with slots := Vector.ofFn waits, var := u8 p 2, mask := mask, band := u32 p 8, regions := t,
                                                          schedFrozen := false } }
              let n := nearBoundary s.schedValue.1 t
              doneWith (({ s with loop := { s.loop with near := n } }).loadBanks n)

/-- SCHED_SET: sets up or turns off the gain schedule over a slot mask from a region table. -/
def execSchedSet (l : Letter) (s : State) : Host.Outcome State Fault Refusal := .next (s.serve 0x053 schedSetHandler l)

/-- INJECT (R184). -/
def injectHandler : Handler :=
  handler (fun _ p => lowestBad p [(2, 2)] [(0, decide (15 < u8 p 0)), (1, decide (2 < u8 p 1)),
      (4, decide (u32 p 4 % 4 ≠ 0) || !tableRange (u32 p 4) (4 * min (u32 p 8) 1)), (8, decide (u32 p 8 = 0 ∨ 262144 < u32 p 8)),
      (4, decide (u32 p 8 ≤ 262144) && !tableRange (u32 p 4) (4 * u32 p 8))])
    fun l s =>
      let p := l.payload
      let i := slotIdx (u8 p 0)
      let q := s.loop.slots[i]
      if !q.configured || q.mode = 0 then refuse .wrongState 0x3C s
      else if q.inj.isSome || s.fld (slotBase i.val) 10 3 ≠ 0 then refuse .wrongState 0x37 s
      else (.queued (.inject i), s.setSlot i { q with inj := some { point := u8 p 1, addr := u32 p 4, n := u32 p 8, i := 0 } })

/-- INJECT: adds a sequence of table values to one slot at an injection point, one per sample. -/
def execInject (l : Letter) (s : State) : Host.Outcome State Fault Refusal := .next (s.serve 0x054 injectHandler l)

/-- A trigger code is valid (R186). -/
def trigOk (t : Nat) : Bool :=
  let k := bitsAt t 0 4
  decide (k ≤ 3) && decide (bitsAt t 5 3 = 0) && (decide (k ≠ 1 ∧ k ≠ 3) || decide (bitsAt t 8 8 ≤ 15)) &&
    (decide (k = 2) || decide (bitsAt t 16 16 = 0))

/-- CAPTURE (R186). -/
def captureHandler : Handler :=
  handler (fun _ p => lowestBad p [] [(0, decide (u16 p 0 = 0 ∨ 255 < u16 p 0)), (2, decide (u16 p 2 = 0)), (4, !trigOk (u32 p 4)),
      (8, decide (u32 p 8 = 0 ∨ 1048576 < u32 p 8 * capSize (u16 p 2)))])
    fun l s =>
      let p := l.payload
      if bitsAt (u32 p 4) 4 1 = 1 ∧ s.carStation then refuse .wrongState 1 s
      else if s.loop.cap.isSome then refuse .wrongState 0x38 s
      else
        let c : CapSt := { dec := u8 p 0, mask := u16 p 2, trig := u32 p 4, count := u32 p 8, triggered := false, hit := false,
                           skip := 0, last := none }
        (.queued .capture, { s with loop := { s.loop with capRecs := 0, capTrig := false, cap := some c } })

/-- CAPTURE: arms a capture of the selected signals from a trigger into the capture buffer. -/
def execCapture (l : Letter) (s : State) : Host.Outcome State Fault Refusal := .next (s.serve 0x055 captureHandler l)

/-! ### Register writes of the LOOP block -/

/-- A bank with the set and then the queued writes given to it: the bank as a later single write will find it (R165). -/
def State.bankAhead (s : State) (i : Fin 16) (b : Bool) : List Int :=
  let q := s.loop.slots[i]
  let c := if b then q.bank1 else q.bank0
  let c := if b = s.bankSel i.val then q.newSet.getD c else c
  (q.queue.filter (·.1 = b)).foldl (fun c x => c.set x.2.1 x.2.2) c

/-- COEF_WRITE: a single write to coefficient `k` (0-41) of bank `b` (R164, R165): the detail and bytes 16-19 of the
refusal, or the state after it. It waits behind the writes that wait for the bank already. -/
def State.coefWrite (i : Fin 16) (b : Bool) (k : Nat) (v : Int) (s : State) : Except (Nat × Nat) State :=
  let q := s.loop.slots[i]
  let live := (b = s.bankSel i.val && (q.mode = 1 || q.mode = 2)) || q.queue.any (·.1 = b)
  let c := (s.bankAhead i b).set k v
  let sec := k / 5
  if s.scheduled i.val then .error (0x35, 0)
  else if live && decide (16 ≤ q.queue.length) then .error (0x3D, 0)
  else if k < 40 && !sectionStable (q.integ sec) (coefAt c (5 * sec + 3)) (coefAt c (5 * sec + 4)) then .error (0x36, sec)
  else if live then .ok (s.setSlot i { q with queue := q.queue ++ [(b, k, v)] })
  else .ok (s.setSlot i (q.putBank b ((if b then q.bank1 else q.bank0).set k v)))

/-- A coefficient register of R191: slot, bank and coefficient of its address. -/
def coefReg (a : Nat) : Option (Fin 16 × Bool × Nat) :=
  if 0x31000 ≤ a ∧ a < 0x33000 ∧ a % 4 = 0 then
    let o := a - 0x31000
    let k := o % 0x100 / 4
    if k < 42 then some (slotIdx (o / 0x200), o % 0x200 / 0x100 = 1, k) else none
  else none

/-- The current-rate slots are all OFF. -/
def State.curOff (s : State) : Bool :=
  (List.finRange 16).all fun i => let q := s.loop.slots[i]; !(q.configured && q.d 0 = 1) || q.off

/-- The refusal of a write to a register of the LOOP block: status, detail, bytes 16-19. `old` and `v` are the stored word
before and as it would be after, `m` the bits written. -/
def State.loopRefused (s : State) (a old v m : Nat) : Option (Status × Nat × Nat) :=
  if a = 0x30010 then
    if (List.finRange 16).any fun i => s.scheduled i.val && !s.loop.slots[i].off then some (.wrongState, 0x30, 0) else none
  else if 0x30100 ≤ a ∧ a < 0x30500 ∧ (a - 0x30100) % 0x40 = 0 then
    let i := slotIdx ((a - 0x30100) / 0x40)
    if bitAt m 3 ∧ s.scheduled i.val then some (.wrongState, 0x35, 0)
    else if bitsAt m 10 3 ≠ 0 ∧ bitsAt v 10 3 ≠ 0 ∧ s.loop.slots[i].inj.isSome then some (.wrongState, 0x37, 0)
    else none
  else if 0x34000 ≤ a ∧ a < 0x34060 ∧ s.carStation then some (.wrongState, 1, 0)
  else if a = 0x34000 then
    if bitsAt m 0 5 ≠ 0 then
      if !carrierOk (bitsAt v 0 5) s.sys.period then some (.badArg, 4, 0)
      else if !s.curOff then some (.wrongState, 0x30, 0) else none
    else none
  else if a = 0x34004 then if s.curOff then none else some (.wrongState, 0x30, 0)
  else if a = 0x35000 then
    match s.notchRefused old v with
    | some (d, f) => some (.wrongState, d, f)
    | none => none
  else if a = 0x36004 then
    if v % 8 ≠ 0 || !tableRange v 2048 then some (.badArg, 4, 0) else none
  else if 0x37000 ≤ a ∧ a < 0x37040 then
    if !capCodeOk (bitsAt v 0 8) then some (.badArg, 4, 0)
    else if s.loop.cap.isSome then some (.wrongState, 0x38, 0) else none
  else none

/-- The bank in use is switched away from `b` with the next sample; a set given to `b`, and the writes that wait for it, take effect
in that bank, which is not in use any more (R157, R158, R164). -/
def SlotSt.bankSwitched (b : Bool) (q : SlotSt) : SlotSt :=
  let q := match q.newSet with
    | some c => { (q.putBank b c) with newSet := none }
    | none => q
  { (q.queue.foldl (fun q x => q.putCoef x) q) with queue := [], change := true }

/-- What a stored write to the LOOP block does besides storing. -/
def State.loopAfter (a old v : Nat) (s : State) : State :=
  if 0x30100 ≤ a ∧ a < 0x30500 ∧ (a - 0x30100) % 0x40 = 0 then
    let i := slotIdx ((a - 0x30100) / 0x40)
    let q := s.loop.slots[i]
    if bitAt old 3 ≠ bitAt v 3 ∧ (q.mode = 1 ∨ q.mode = 2) then
      s.setSlot i (q.bankSwitched (bitAt old 3))
    else s
  else if a = 0x36004 then
    -- the range in force stays in use until the next sample (R170)
    if s.fld 0x36000 0 1 = 1 then { s with loop := { s.loop with cogOld := some (s.loop.cogOld.getD old) } } else s
  else if a = 0x34000 then { s with loop := { s.loop with kbad := !carrierOk (bitsAt v 0 5) s.sys.period } }
  else s

end Sys2Proof.Machine
end

