-- ==== Sys2Proof/Machine/MemMap.lean ====
section
/-! DEFINITION. The memory map as letters see it (R33, R36): the bytes that the blocks keep in shared SRAM (parcels, journal,
pigeonholes, postbag) laid out as the spec lays them out, and table space and mill memory as stored. -/
namespace Sys2Proof.Machine

/-! ### Parcel slots (R355) -/

/-- Header bytes 0-59 of a sealed parcel (R355). -/
def Parcel.header (b : Bool) (p : Parcel) : List Byte :=
  bytesLE 2 1 ++ [BitVec.ofNat 8 (b2n b), BitVec.ofNat 8 (b2n p.laneB)] ++ bytesLE 4 p.bodyLen ++ bytesLE 8 p.epoch ++
    bytesLE 8 p.pm ++ bytesLE 4 p.jpos ++ bytesLE 4 p.fw ++ [BitVec.ofNat 8 p.gen, BitVec.ofNat 8 p.role] ++
    List.replicate 26 0#8

/-- The 64 header bytes of a sealed parcel: bytes 0-59 and the seal. -/
def Parcel.bytes (b : Bool) (p : Parcel) : List Byte := p.header b ++ bytesLE 4 (crc32c (p.header b)).toNat

/-- The byte at offset `o` of a parcel slot: a sealed parcel, one cut short (format 0, the rest free), or nothing written. -/
def State.parcelAt (s : State) (b : Bool) (o : Nat) : Byte :=
  match s.lane.slot b with
  | some p => if o < 256 then (p.bytes b).getD o 0 else Config.parcelByte (b2n b) p.epoch o
  | none =>
    match if b then s.lane.torn1 else s.lane.torn0 with
    | some n => if o < 2 then 0 else Config.parcelByte (b2n b) (2 ^ 64 + n) o
    | none => 0

/-! ### The journal (R359) -/

/-- Bytes 0-59 of a journal entry. -/
def JEntry.body (e : JEntry) : List Byte :=
  bytesLE 4 e.num ++ [BitVec.ofNat 8 e.kind, BitVec.ofNat 8 e.status.code, BitVec.ofNat 8 e.detail, 0#8] ++ bytesLE 8 e.pm ++
    slice e.hdr 0 16 ++ slice e.ctl 0 24 ++ bytesLE 4 e.further.toNat

/-- The 64 bytes of a journal entry, with its CRC. -/
def JEntry.bytes (e : JEntry) : List Byte := e.body ++ bytesLE 4 (crc32c e.body).toNat

/-- The byte at offset `o` of the journal region. -/
def State.journalAt (s : State) (o : Nat) : Byte :=
  match s.lane.journal.find? fun e => e.num % 1024 = o / 64 with
  | some e => e.bytes.getD (o % 64) 0
  | none => 0

/-! ### Pigeonholes and postbag (R284, R285) -/

/-- Bytes 0-55 of a status slot (R271). -/
def slotBody (m : SlotMsg) : List Byte :=
  bytesLE 4 m.round ++ [BitVec.ofNat 8 m.state,
    BitVec.ofNat 8 (b2n m.mute + 2 * b2n m.inService + 4 * b2n m.leaving + 8 * b2n m.resync + 16 * b2n m.busA + 32 * b2n m.busB),
    BitVec.ofNat 8 m.landing, BitVec.ofNat 8 m.dir, BitVec.ofNat 8 m.count, BitVec.ofNat 8 m.refused] ++ bytesLE 2 m.pending ++
    (List.range 9).flatMap (fun i => bytesLE 4 (m.entries.getD i 0).toNat) ++ bytesLE 4 m.tag.toNat ++ bytesLE 4 m.digest.toNat

/-- The 64 data bytes of a status slot. -/
def slotBytes (m : SlotMsg) : List Byte :=
  slotBody m ++ bytesLE 4 (crc32c (slotBody m)).toNat ++ bytesLE 3 m.pos ++ [BitVec.ofNat 8 m.load]

/-- The part of R290 that does not depend on the request: the car is in P_k and its slot makes it a candidate. -/
def GroupSt.candidateCar (g : GroupSt) (c : Nat) (m : SlotMsg) : Bool :=
  g.p.getLsbD (c - 1) && m.inService && !m.leaving && decide (m.landing < g.tables.landings) &&
    decide (0 < u8 g.tables.pol (carBlock c)) && bitAt (u8 g.tables.pol (carBlock c + 2)) 0

/-- The stops of one direction as a mask of landings, 24 bytes. -/
def stopMask (up : Bool) (l : List Stop) : List Byte :=
  (List.range 24).map fun i => BitVec.ofNat 8 ((List.range 8).foldl (fun n j =>
    if l.any fun x => x.up = up && x.land = 8 * i + j then n + 2 ^ j else n) 0)

/-- The ETAs of R285: for each landing, the up stop and the down stop, 2 bytes each. -/
def etaBytes (l : List Eta) : List Byte :=
  (List.range 192).flatMap fun i => [true, false].flatMap fun up =>
    match l.find? fun e => e.stop.land = i && e.stop.up = up with
    | some e => bytesLE 2 (min e.eta 0xFFFF)
    | none => bytesLE 2 0xFFFF

/-- The 2,048 bytes of the pigeonhole of car `c` (R285). -/
def GroupSt.pigeonhole (g : GroupSt) (c : Nat) : List Byte :=
  let h := g.holes[fidx 62 (c - 1)]
  let mine := carEntries g.core.bag c
  let stops := mine.filterMap PEntry.stop
  let es := match h.slot with
    | some m => carEtas g.tables c m stops
    | none => []
  let msg := match h.slot with
    | some m => slotBytes m
    | none => List.replicate 64 0#8
  let mute : Bool := match h.slot with
    | some m => m.mute
    | none => false
  let cand : Bool := match h.slot with
    | some m => h.present && g.candidateCar c m
    | none => false
  let ep := match h.slot with
    | some m => expected g.tables c m mine
    | none => ((mine.filter (·.st = 2)).map (·.party)).foldl (· + ·) 0
  msg ++ bytesLE 4 h.slotRound ++
    [BitVec.ofNat 8 (min h.absent 15),
     BitVec.ofNat 8 (b2n h.present + 2 * b2n (g.p.getLsbD (c - 1)) + 4 * b2n mute + 8 * b2n cand)] ++
    bytesLE 2 (mine.filter (·.st = 2)).length ++ bytesLE 2 (mine.filter (·.st = 3)).length ++ bytesLE 2 (min ep 0xFFFF) ++
    List.replicate 4 0#8 ++ stopMask true stops ++ stopMask false stops ++ List.replicate 128 0#8 ++ etaBytes es ++
    List.replicate 1024 0#8

/-- The byte at offset `o` of the pigeonhole region: nothing before the first seal. -/
def State.pigeonAt (s : State) (o : Nat) : Byte :=
  if s.group.log.isEmpty then 0 else (s.group.pigeonhole (o / 0x800 + 1)).getD (o % 0x800) 0

/-- The byte at offset `o` of the postbag (R284). -/
def State.postbagAt (s : State) (o : Nat) : Byte :=
  match bagEntry s.group.core.bag (o / 32) with
  | some e => if o % 32 = 24 then BitVec.ofNat 8 e.sender else e.bytes.getD (o % 32) 0
  | none => 0

/-! ### The whole map -/

/-- One byte of shared SRAM or mill memory as a letter reads it (R36). -/
def State.byteAt (s : State) (a : Nat) : Byte :=
  if a < 0x10040000 then s.parcelAt (decide (0x10020000 ≤ a)) (a % 0x20000)
  else if a < 0x10050000 then s.journalAt (a - 0x10040000)
  else if a < 0x1006F800 then s.pigeonAt (a - 0x10050000)
  else if a < 0x10070000 then 0
  else if a < 0x10078000 then s.postbagAt (a - 0x10070000)
  else s.cell a

/-- `n` bytes from `a` up. -/
def State.bytesAt (s : State) (a n : Nat) : List Byte := (List.range n).map fun i => s.byteAt (a + i)

/-- CAN message RAM, which letters do not reach (R457). -/
def touchesCan (a n : Nat) : Bool := decide (a < 0x100B0000 ∧ 0x10080000 < a + n ∧ n ≠ 0)

/-- A range lies in shared SRAM or in mill memory. -/
def memRange (a n : Nat) : Bool :=
  decide (0x10000000 ≤ a ∧ a + n ≤ 0x10300000) || decide (0x11000000 ≤ a ∧ a + n ≤ 0x11100000)

/-- A letter may write a range: table space, the capture region, mill memory (R36). -/
def writable (a n : Nat) : Bool := tableRange a n || decide (0x11000000 ≤ a ∧ a + n ≤ 0x11100000)

/-- The ranges in use (R101, R170, R187): of segment runs and tails, of the cogging table, of an active capture. -/
def State.usedRanges (s : State) : List (Nat × Nat) :=
  let runs := (List.finRange 4).flatMap fun u =>
    if s.outstanding (.move u) then s.ramp[u].used ++ (match s.ramp[u].tail with
      | some t => [(t.addr, 32 * t.count)]
      | none => []) else []
  let cog := if bitAt (s.reg 0x36000) 0 then [(s.loop.cogOld.getD (s.reg 0x36004), 2048)] else []
  let cap := match s.loop.cap with
    | some c => [(0x10200000, capSize c.mask * c.count)]
    | none => []
  runs ++ cog ++ cap

/-- The first byte in use of the range (a, n), if any. -/
def State.firstUsed (s : State) (a n : Nat) : Option Nat :=
  s.usedRanges.foldl (fun o x =>
    if a < x.1 + x.2 ∧ x.1 < a + n ∧ n ≠ 0 ∧ x.2 ≠ 0 then minOff o (some (max a x.1)) else o) none

end Sys2Proof.Machine
end

