-- ==== Sys2Proof/Machine/Power.lean ====
section
/-! DEFINITION. Power modes, mains loss and rescue, clocks and supplies (R503-R521, R541, R571). -/
namespace Sys2Proof.Machine

/-- The code of a power mode (R510). -/
def PMode.code : PMode → Nat
  | .run => 0
  | .doze => 1
  | .park => 2
  | .sleep => 3

/-- The power mode of a code. -/
def pmodeOf (n : Nat) : PMode :=
  match n with
  | 1 => .doze
  | 2 => .park
  | 3 => .sleep
  | _ => .run

/-! ### Entry into a power mode (R509-R512) -/

/-- FIO_SLEEPKEEP names an output whose permit in the image is not 15 (R510). -/
def State.keepsPermit (s : State) : Bool :=
  (List.range 32).any fun k => bitAt (s.reg 0xA018C) k && s.imageByte (0x9F0 + k) ≠ some 15

/-- The checks of R510 on the state, in order. -/
def State.modeRefused (s : State) (m : Nat) : Option Nat :=
  let closed := !s.carStation || s.door.state = 0 || s.door.state = 3 || s.door.state = 4
  if s.carMoves || (2 ≤ m && (!s.parked || !closed)) then some 0xD0
  else if 2 ≤ m && decide (1 ≤ s.group.state ∧ s.group.state ≤ 5) then some 0xD1
  else if m = 2 && s.imageByte 0xA20 = some 2 then some 0xD4
  else if m = 3 && s.keepsPermit then some 0xD2
  else if m = 3 && !s.pwr.xtalOk then some 0xD3
  else none

/-- POWER_MODE (R510). -/
def powerModeHandler : Handler :=
  handler (fun _ p => lowestBad p [] [(0, decide (u32 p 0 = 0 ∨ 3 < u32 p 0)), (4, decide (1024 ≤ u32 p 4))])
    fun l s =>
      match s.modeRefused (u32 l.payload 0) with
      | some d => refuse .wrongState d s
      | none => doneWith (s.setPwr { s.pwr with
          askedEra := s.ev.era, askedAt := s.now, woken := 0,
          entry := some (pmodeOf (u32 l.payload 0), u32 l.payload 4, (s.now / s.tickLen + 1) * s.tickLen) })

/-- POWER_MODE: checks and accepts entry into DOZE, PARK or SLEEP. -/
def execPowerMode (l : Letter) (s : State) : Host.Outcome State Fault Refusal := .next (s.serve 0x0D0 powerModeHandler l)

/-- A link that is not OFF is stopped as by a LINK_MODE stop (R511). -/
def State.parkLink (s : State) : State :=
  if s.link.state = 0 then s
  else
    let up := s.link.state = 3
    let s := if up then s.linkDown 0 else s.rxBreak
    let s := (s.linkOff.complete .linkStart .aborted 0 0).complete .linkStop .done 0 0
    let s := s.setPwr { s.pwr with linkHeld := true }
    if up then s else s.post 0x0E01 s.link.seqRx

/-- A controller in state 1 or 2 leaves the bus (R511). -/
def State.parkCan (c : Fin 3) (s : State) : State :=
  let st := s.can[c].state
  let s := s.setPwr { s.pwr with canHeld := s.pwr.canHeld.set c st }
  if st = 1 ∨ st = 2 then s.canState c 3 else s

/-- What entry into PARK or SLEEP does (R511). -/
def State.parkBlocks (s : State) : State := ((((s.parkLink).parkCan 0).parkCan 1).parkCan 2).doorSwitch

/-- What entry into SLEEP adds: ENC_PWR off, and only the outputs of FIO_SLEEPKEEP stay on (R444, R505). -/
def State.sleepBlocks (s : State) : State :=
  let s := s.setPwr { s.pwr with encOn := false }
  (s.setFio { s.fio with sleepKept := s.fio.on &&& s.reg 0xA018C }).outRefresh

/-! ### Wake (R511-R514) -/

/-- A controller returns to the state it held (R511). -/
def State.unparkCan (c : Fin 3) (s : State) : State :=
  let st := s.pwr.canHeld[c]
  if (st = 1 ∨ st = 2) ∧ s.can[c].state = 3 then s.canState c st else s

/-- What was stopped in PARK and SLEEP returns; a link that was not OFF is started again from port 5 (R511). -/
def State.unpark (s : State) : State :=
  let s := ((s.unparkCan 0).unparkCan 1).unparkCan 2
  if s.pwr.linkHeld then
    (s.setPwr { s.pwr with linkHeld := false }).post5 0x0C0 1 [1#8, BitVec.ofNat 8 (b2n s.link.fibre), 0#8, 0#8]
  else s

/-- The wake from SLEEP with retention: the standby lane receives a lane reset, group time enters ACQUIRE, ENC_PWR returns
(R478, R505, R513). -/
def State.unsleep (s : State) : State :=
  let s := s.laneReset false
  let s := { s with group := { s.group with gt := { s.group.gt with state := 1 } } }
  let s := s.setPwr { s.pwr with encOn := s.fld 0xF0004 2 1 = 1 && s.pwr.encFault.isNone }
  (s.setFio ({ s.fio with sleepKept := 0 }.gatesRestart s.now fun _ => true)).outRefresh

/-- The time from the recognition of a wake source to the lane's first instruction (R509). -/
def PMode.wakeTime : PMode → Nat
  | .run => 0
  | .doze => 160
  | .park => 1600
  | .sleep => 240000

/-- A wake source raises the VG63 to RUN (R513, R514): WAKE carries the mode left and the source. -/
def State.wake (src : Nat) (s : State) : State :=
  let m := s.pwr.mode
  if m = .run then s
  else
    let s := s.setPwr { s.pwr with lastMode := m.code, wakeSrc := src % 16 }
    if m = .sleep ∧ s.fld 0xF0004 0 1 = 0 then s.moduleReset 6 .sequence
    else
      let s := (s.setPwr { s.pwr with mode := .run, idleFrom := none, laneFrom := s.now + m.wakeTime, woken := 0 }).post 0x0F05 (m.code + 256 * src)
      let s := if m = .sleep then s.unsleep else s
      if m = .doze then s else s.unpark

/-- A postmark is reached now, or was reached between the POWER_MODE and the entry into its mode (R514, R539). -/
def State.markReached (w : Postmark) (s : State) : Bool :=
  decide (s.pwr.askedAt < w ∧ w ≤ s.now ∧ s.now < max w s.pwr.enteredAt + s.instantLen)

/-- The postmarks of wake source 7: PWR_WAKEAT, and the latest start of the scheduled watch minute (R514). -/
def State.wakeMarks (s : State) : List Postmark :=
  (if s.pair 0xF0010 = 0 then [] else [s.pair 0xF0010]) ++ (if s.fld 0x80020 16 1 = 1 then [s.now - s.minuteAge] else [])

/-- An event of severity fault or stop has been posted since the POWER_MODE was accepted (R514). -/
def State.faultPosted (s : State) : Bool :=
  s.ev.recs.any fun r => decide (2 ≤ severity r.code ∧
    (s.pwr.askedEra < r.era ∨ (s.pwr.askedEra = r.era ∧ s.pwr.askedAt ≤ r.pm)))

/-- A wake source has been recognised and acts in the mode (R514): 0, 1 and 6 and the dominant level of a CAN bus (R474) are pins
outside the model; in DOZE also 10 an accepted letter, 11 an event of severity fault or stop, 12 a seal with a new or returned entry of
the own car, 13 a changed door request. -/
def State.wakes (src : Nat) (s : State) : Bool :=
  let m := s.pwr.mode
  let inMask := bitAt s.pwr.wakeMask src
  let noted := s.pwr.woken.getLsbD src
  let bus (c : Fin 3) : Bool := s.wakeReceiver c && (noted || s.fld (canBase c.val + 0x90) 1 1 = 1)
  match src with
  | 0 | 1 => inMask
  | 2 => inMask && bus 0
  | 3 => inMask && bus 1
  | 4 => inMask && bus 2
  | 5 => inMask && noted
  | 6 => inMask && m ≠ .doze
  | 7 => inMask && s.wakeMarks.any fun w => s.markReached w
  | 8 => !s.pwr.mains
  | 9 => inMask && m ≠ .sleep && noted
  | 11 => m = .doze && s.faultPosted
  | _ => m = .doze && noted

/-- WAKE: a wake source in force raises the VG63 to RUN. Detail byte 1 of the wakes of DOZE that have no source bit is free. -/
def execWake (dt : Nat) (src : Fin 14) (s : State) : Host.Outcome State Fault Refusal :=
  let s := s.advance dt
  if s.inReset then .next s else
  if s.pwr.mode = .run ∨ ¬ s.wakes src.val then .next s
  else if src.val < 10 then .next (s.wake src.val)
  else .next (s.freeUpTo 255 |>.2.wake (s.freeUpTo 255).1)

/-- POWER_MODE_ENTRY: the VG63 enters the mode at the end of the seal interval (R510, R511); where mains was lost meanwhile, it wakes at
once (R539). -/
def execPowerModeEntry (dt : Nat) (s : State) : Host.Outcome State Fault Refusal :=
  let s := s.advance dt
  if s.inReset then .next s else
  match s.pwr.entry with
  | none => .next s
  | some (m, mask, due) =>
    if s.now ≠ due ∨ s.pwr.mode ≠ .run then .next s
    else
      let s := s.setPwr { s.pwr with mode := m, wakeMask := mask, entry := none, enteredAt := s.now, linkHeld := false }
      let s := if m = .park ∨ m = .sleep then s.parkBlocks else s
      let s := if m = .sleep then s.sleepBlocks else s
      .next (if s.pwr.mains then s else s.wake 8)

/-! ### Parked idle time (R515) -/

/-- The VG63 is parked and idle (R515). -/
def State.parkedIdle (s : State) : Bool :=
  s.pwr.mode = .run && s.pwr.phase = .run && s.parked && s.lb.queue.isEmpty && !(s.machine && !s.group.ownEntries.isEmpty)

/-- The idle time at a tick instant. -/
def State.idleTick (s : State) : State :=
  if s.fld 0xF0008 0 1 = 1 && s.parkedIdle then
    (match s.pwr.idleFrom with
     | some _ => s
     | none => s.setPwr { s.pwr with idleFrom := some s.now })
  else s.setPwr { s.pwr with idleFrom := none }

/-- IDLE_TIMEOUT: the parked idle time reaches PWR_IDLE.IDLE, and the lane posts a POWER_MODE on port 5 (R515). -/
def execIdleTimeout (dt : Nat) (s : State) : Host.Outcome State Fault Refusal :=
  let s := s.advance dt
  if s.inReset then .next s else
  match s.pwr.idleFrom with
  | some t =>
    if s.serving ∧ s.parkedIdle ∧ s.fld 0xF0008 0 1 = 1 ∧ t + s.fld 0xF0008 4 12 * 80000000 ≤ s.now then
      .next ((s.setPwr { s.pwr with idleFrom := none }).post5 0x0D0 1
        (bytesLE 4 (s.fld 0xF0008 1 2) ++ bytesLE 4 (s.fld 0xF0008 16 10)))
    else .next s
  | none => .next s

/-! ### Mains loss and return (R516-R519, R571) -/

/-- In each of four samples VLOG lies below 17.0 V, or MAINS_SENSE is low where it is used (R516). -/
def State.mainsLow (vlog : Vector Nat 4) (low : Vector Bool 4) (s : State) : Bool :=
  (List.finRange 4).all fun k => decide (vlog[k] < 17000) || (s.fld 0xF0004 1 1 = 1 && low[k])

/-- MAINS_LOSS: four consecutive samples lie low: VKEEP supplies, RUN is entered, the groups of SHEDMASK are shed (R516, R517). In a
module reset and before the boot it is only noted, and posted at boot (R539). -/
def execMainsLoss (dt : Nat) (vlog : Vector Nat 4) (vkeep : Nat) (low : Vector Bool 4) (s : State) :
    Host.Outcome State Fault Refusal :=
  let s := s.advance dt
  if s.pwr.mains && s.mainsLow vlog low then
    let s := s.setPwr { s.pwr with mains := false, onVkeep := true, lostAt := some s.now, rescued := false, vlog := vlog[3],
                                   vkeep := vkeep, restoreAt := none }
    if s.inReset ∨ s.pwr.phase = .released then .next s
    else if s.pwr.mode = .sleep ∧ s.fld 0xF0004 0 1 = 0 then .next (s.wake 8)
    else .next (((s.post 0x0F01 vkeep).wake 8).mainsShed)
  else .next s

/-- MAINS_RESTORED: mains is present again, VLOG and MAINS_SENSE having met R516 for 10 ms (R516, R518); in a module reset nothing is
posted and no group waits. -/
def execMainsRestored (dt vlog : Nat) (x : MainsIn) (s : State) : Host.Outcome State Fault Refusal :=
  let s := s.advance dt
  if s.pwr.mains = false ∧ 18000 ≤ vlog ∧ x.since + 800000 ≤ s.now ∧ (s.fld 0xF0004 1 1 = 1 → x.senseHigh) then
    let p := { s.pwr with mains := true, onVkeep := false, lostAt := none, vlog := vlog }
    if s.inReset then .next (s.setPwr p)
    else .next ((s.setPwr { p with restoreAt := some (s.now + s.fld 0xA0130 16 8 * 800000) }).post 0x0F06 vlog)
  else .next s

/-- PWR_CFG.VKEEPLOW in mV. -/
def State.vkeepLow (s : State) : Nat := s.fld 0xF0004 8 8 * 100

/-- VKEEP_LOW: four consecutive samples of VKEEP lie below PWR_CFG.VKEEPLOW (R571). -/
def execVkeepLow (dt : Nat) (mv : Vector Nat 4) (s : State) : Host.Outcome State Fault Refusal :=
  let s := s.advance dt
  if s.inReset then .next s else
  let t := s.setPwr { s.pwr with vkeep := mv[3] }
  if s.pwr.vkeepArmed && mv.toList.all (· < s.vkeepLow) then
    .next ((t.setPwr { t.pwr with vkeepArmed := false }).post 0x0F02 mv[3])
  else .next t

/-- VKEEP_RECOVERED: four consecutive samples of VKEEP lie 0.5 V above the level again, which arms the detection (R571). -/
def execVkeepRecovered (dt : Nat) (mv : Vector Nat 4) (s : State) : Host.Outcome State Fault Refusal :=
  let s := s.advance dt
  if s.inReset then .next s else
  .next (s.setPwr { s.pwr with vkeep := mv[3], vkeepArmed := s.pwr.vkeepArmed || mv.toList.all (s.vkeepLow + 500 ≤ ·) })

/-! ### Rescue (R519-R521) -/

/-- RESCUE_AUTO_START: DELAY seconds after mains loss, unit 0 at standstill out of level, the lane posts RESCUE_START (R519). -/
def execRescueAutoStart (dt : Nat) (s : State) : Host.Outcome State Fault Refusal :=
  let s := s.advance dt
  if s.inReset then .next s else
  match s.pwr.lostAt with
  | some t =>
    if s.machine ∧ s.serving ∧ s.pwr.bootDone ∧ s.fld 0xF001C 20 1 = 1 ∧ s.pwr.mains = false ∧ s.pwr.rescued = false ∧
        t + s.fld 0xF001C 24 8 * 80000000 ≤ s.now ∧ s.moving 0 = false ∧ s.sense.inLevel = false then
      .next ((s.setPwr { s.pwr with rescued := true }).post5 0x0D1 1 (bytesLE 4 0))
    else .next s
  | none => .next s

/-- The first landing level beyond a position (with 16 fraction bits) in a direction: its number and level. -/
def levelBeyond (up : Bool) (pos : Int) : Nat → List Int → Option (Nat × Int)
  | _, [] => none
  | i, y :: l =>
    let rest := levelBeyond up pos (i + 1) l
    let ahead : Bool := if up then decide (pos < y * 65536) else decide (y * 65536 < pos)
    if !ahead then rest
    else match rest with
      | none => some (i, y)
      | some (j, z) => if (if up then decide (y ≤ z) else decide (z < y)) then some (i, y) else some (j, z)

/-- The direction of a rescue move with direction 0 (R520). -/
def State.rescueUp (s : State) : Bool :=
  let pos := s.ramp[0].pos
  if s.sense.loadValid then decide (s.sense.load < (s.fld 0xF001C 0 16 : Int))
  else match levelBeyond true pos 0 s.sense.land, levelBeyond false pos 0 s.sense.land with
    | some (_, y), some (_, z) => decide (y * 65536 - pos < pos - z * 65536)
    | some _, none => true
    | none, _ => false

/-- The target of a rescue move (R520). -/
def State.rescueTarget (dir : Nat) (s : State) : Option (Nat × Int) :=
  let go (up : Bool) := levelBeyond up s.ramp[0].pos 0 s.sense.land
  match dir with
  | 1 => go true
  | 2 => go false
  | _ => match go s.rescueUp with
    | some x => some x
    | none => go (!s.rescueUp)

/-- The payload of a SET_LIMITS for unit 0. -/
def limitsPayload (l : Limits) : List Byte :=
  bytesLE 4 0 ++ bytesLE 4 l.speed ++ bytesLE 4 l.acc ++ bytesLE 4 l.dec ++ bytesLE 4 l.jerk ++ bytesLE 4 l.hdec

/-- The letters of a rescue move (R521). -/
def State.rescueGo (i : Nat) (level : Int) (s : State) : State :=
  let l := s.limitsLane 0
  let a := min (s.fld 0xF0018 16 16 * 1000) l.hdec
  let s := s.setPwr { s.pwr with rescueStat := 1, rescue := some { target := level, landing := i, prev := l, jFrom := s.lane.jnext } }
  let s := s.setRamp 0 { s.ramp[0] with ended := none }
  let s := (s.post 0x0F03 i).post5 0x034 1 (limitsPayload { l with speed := s.fld 0xF0018 0 16 * 1000, acc := a, dec := a })
  s.post5 0x031 1 (bytesLE 8 0 ++ bytesLE 8 (ucode 64 level))

/-- RESCUE_START (R520, R521). -/
def rescueStartHandler : Handler :=
  handler (fun _ p => lowestBad p [] [(0, decide (2 < u32 p 0))])
    fun l s =>
      if s.carStation then refuse .wrongState 1 s
      else if s.pwr.mains then refuse .wrongState 0xD5 s
      else if s.moving 0 then refuse .wrongState 0xD0 s
      else if s.sense.inLevel then (.ended .rescue .done 0 0, s)
      else match s.rescueTarget (u32 l.payload 0) with
        | none => refuse .failed 0xD6 s
        | some (i, y) => (.queued .rescue, s.rescueGo i y)

/-- RESCUE_START: chooses a rescue direction and landing and starts the rescue move under mains loss. -/
def execRescueStart (l : Letter) (s : State) : Host.Outcome State Fault Refusal := .next (s.serve 0x0D1 rescueStartHandler l)

/-- The rescue ends: the previous limits are restored with a SET_LIMITS (R521). -/
def State.rescueEnd (st : Status) (detail further stat : Nat) (s : State) : State :=
  match s.pwr.rescue with
  | none => s
  | some r => ((s.setPwr { s.pwr with rescue := none, rescueStat := stat }).complete .rescue st detail further).post5 0x034 1
      (limitsPayload r.prev)

/-- The detail with which the MOVE_TRAP of a rescue was refused when served. -/
def State.rescueRefused (r : RescueSt) (s : State) : Option Nat :=
  (s.lane.journal.find? fun e =>
    decide (r.jFrom ≤ e.num) && e.kind = 1 && u16 e.hdr 0 % 4096 = 0x031 && u8 e.hdr 6 = 5 && e.status ≠ .queued).map (·.detail)

/-- How the MOVE_TRAP of a rescue ended: done at a postmark, or failed with a detail. -/
def State.rescueMove (r : RescueSt) (s : State) : Option (Except Nat Postmark) :=
  match s.ramp[0].ended with
  | some (.done, _, _, p) => some (.ok p)
  | some (_, d, _, _) => some (.error d)
  | none => match s.rescueRefused r with
    | some d => some (.error d)
    | none => none

/-- RESCUE_LEVEL_CHECK: after the MOVE_TRAP, RESCUE_START ends DONE at level, or FAILED (R521). -/
def execRescueLevelCheck (dt : Nat) (s : State) : Host.Outcome State Fault Refusal :=
  let s := s.advance dt
  if s.inReset then .next s else
  match s.pwr.rescue with
  | none => .next s
  | some r =>
    match s.rescueMove r with
    | none => .next s
    | some (.error d) => .next (s.rescueEnd .failed 0xD7 d 3)
    | some (.ok p) =>
      if s.now = s.sys.tickAt ∧ s.now ≤ p + 80000000 ∧ s.moving 0 = false ∧ s.ramp[0].pos = r.target * 65536 ∧ s.sense.inLevel then
        .next (s.rescueEnd .done 0 0 2)
      else if s.now = p + 80000000 then .next (s.rescueEnd .failed 0xD8 (ucode 32 s.sense.landDist) 3)
      else .next s

/-! ### Clocks, ENC_PWR and temperatures (R505, R507, R541) -/

/-- CLOCK_FAULT: a fault of XTAL25 or the PLL makes a module reset, one of XTAL32 bars SLEEP (R507). -/
def execClockFault (dt : Nat) (source : Fin 3) (s : State) : Host.Outcome State Fault Refusal :=
  let s := s.advance dt
  if source.val = 2 then .next ((s.setPwr { s.pwr with xtalOk := false }).post 5 3)
  else .next ((s.setPwr { s.pwr with clockFault := some (source.val + 1) }).moduleReset 4 s.resetPhase)

/-- ENC_PWR_FAULT: above 350 mA ENC_PWR is switched off, until ENCPWR is written 0 and then 1 (R505). -/
def execEncPwrFault (dt ma : Nat) (s : State) : Host.Outcome State Fault Refusal :=
  let s := s.advance dt
  if s.inReset then .next s else
  if s.pwr.encOn ∧ 350 < ma then .next ((s.setPwr { s.pwr with encOn := false, encFault := some false }).post 0x0F07 0)
  else .next s

/-- ENC_PWR after a write to PWR_CFG (R505). -/
def State.encPower (s : State) : State :=
  let p := s.pwr
  if s.fld 0xF0004 2 1 = 0 then s.setPwr { p with encOn := false, encFault := p.encFault.map fun _ => true }
  else match p.encFault with
    | some false => s
    | _ => s.setPwr { p with encOn := p.mode ≠ .sleep, encFault := none }

/-- OVERTEMP: a die passes 115 °C, and again only after it has fallen below 110 °C (R541). -/
def execOvertemp (dt : Nat) (fieldDie : Bool) (temp : Int) (s : State) : Host.Outcome State Fault Refusal :=
  let s := s.advance dt
  if s.inReset then .next s else
  let p := s.pwr
  let was := if fieldDie then p.overF else p.overC
  let overBy := decide (115 < temp) || (was && decide (110 ≤ temp))
  let s := s.setPwr (if fieldDie then { p with tempF := temp, overF := overBy } else { p with tempC := temp, overC := overBy })
  .next (if overBy && !was then s.post 0x0F04 (b2n fieldDie + 256 * ucode 16 temp) else s)

end Sys2Proof.Machine
end

