-- ==== Sys2Proof/Machine/RegRead.lean ====
section
/-! DEFINITION. Reading registers: the bits that the RO, RC, W1C and WO fields of each register block show (the stored fields
are in Machine/RegFile.lean), the 64-bit pairs of R91, and what a read clears (R15, R18). -/
namespace Sys2Proof.Machine

/-- A bit in its place. -/
def flag (b : Bool) (i : Nat) : Nat := if b then 2 ^ i else 0

/-- A value of `len` bits in its place. -/
def place (v lo len : Nat) : Nat := v % 2 ^ len * 2 ^ lo

/-! ### Pairs that the VG63 alone writes (R91) -/

/-- The 64-bit value whose low half is read at `a`, of the pairs that no letter writes. -/
def State.livePair (s : State) (a : Nat) : Option Nat :=
  if 0x20000 ≤ a ∧ a < 0x20400 then
    let r := s.ramp[unitOf ((a - 0x20000) / 0x100)]
    match a % 0x100 with
    | 0x40 => some (ucode 64 r.sp)
    | 0x80 => some (ucode 64 r.cap)
    | 0x88 => some (ucode 64 r.capPm)
    | _ => none
  else match a with
    | 0x40118 => some (ucode 64 (s.srcPos 3))
    | 0x40218 => some (ucode 64 (s.srcPos 4))
    | 0x40318 => some (ucode 64 (s.srcPos 5))
    | 0x40418 => some (ucode 64 (s.srcPos 1))
    | 0x40420 => some (match s.sense.ssiLast with
      | some r => ucode 64 r.pm
      | none => 0)
    | 0x40700 => some (ucode 64 (s.srcPos 2))
    | 0x50088 => some (ucode 64 s.doorPos)
    | 0x60030 => some s.group.present.toNat
    | 0x60038 => some s.group.p.toNat
    | 0x60040 => some s.group.muteMask.toNat
    | 0x60048 => some s.group.void.toNat
    | 0x70030 => some s.lock.term1.toNat
    | 0x70090 => some (match s.lock.armed with
      | some p => ucode 64 p
      | none => 0)
    | 0x80008 => some s.lane.sealEpoch
    | 0x80010 => some s.lane.viewEpoch
    | _ => none

/-- The addresses of the low halves of the pairs that a letter may write (R91, R375, R509). -/
def pairAddrs : List Nat :=
  [0x20070, 0x20170, 0x20270, 0x20370, 0x35010, 0x40108, 0x40110, 0x40208, 0x40210, 0x40308, 0x40310, 0x40408, 0x40410,
   0x40710, 0x50020, 0x50028, 0x80028, 0xF0010]

/-- The written pairs that are no position (R14): the scales, DAYBASE and WAKEAT. -/
def plainPairs : List Nat := [0x40108, 0x40208, 0x40308, 0x40408, 0x80028, 0xF0010]

/-- An address is the low half of a pair. -/
def State.pairLo (s : State) (a : Nat) : Bool := pairAddrs.contains a || (s.livePair a).isSome

/-! ### Registers, block by block -/

/-- SYS (R1, R9, R26, R38, R45, R534). -/
def State.liveSys (s : State) (a : Nat) : Nat :=
  match a with
  | 0x10 => s.sys.strap.toNat + place s.sys.role.toNat 2 2 + flag s.sys.agree 4
  | 0x14 => place s.sys.gen 0 8 + place Config.genMax 16 8
  | 0x20 => place s.sys.period 0 8
  | 0x30 => place s.sys.eccCorrected 0 24 + place s.sys.eccUncorrected 24 8
  | 0x34 => place s.ev.lost 0 16
  | 0x40 => s.flash.lc + flag s.transportKey 3 + flag s.keyPending 4 + place s.flash.lcCount 16 16
  | _ => if 0x44 ≤ a ∧ a < 0x54 ∧ a % 4 = 0 then
      natLE ((List.range 4).map fun i => Config.serial (a - 0x44 + i)) else 0

/-- LETTER (R23, R66-R68, R77, R86). -/
def State.liveLetter (s : State) (a : Nat) : Nat :=
  if a = 0x10000 then place s.sys.budget 0 8
  else if 0x10010 ≤ a ∧ a < 0x10028 ∧ a % 4 = 0 then
    let p : Fin 6 := fidx 5 ((a - 0x10010) / 4)
    place (s.portQueue p).length 16 7
  else if 0x10030 ≤ a ∧ a < 0x10048 ∧ a % 4 = 0 then
    let p : Fin 6 := fidx 5 ((a - 0x10030) / 4)
    place s.lb.deadCount[p] 0 16 + place s.lb.deadLast[p] 16 8
  else if a = 0x10050 then
    (match s.lb.session with
     | some x => x.port.val + 8
     | none => 7) +
      place (min 3 (s.lb.fails.filter fun p => decide (s.now ≤ p + 4800000000)).length) 4 2 + flag s.lockedOut 6
  else 0

/-- RAMPu_STAT.PHASE. -/
def RampSt.phase (r : RampSt) : Nat :=
  if r.homing.isSome then 6
  else match r.motion with
    | .still => if r.noPermit then 7 else 0
    | .run _ => 1
    | .trap t => (match t.phase with
      | .accel => 2
      | .decel => 3)
    | .stop hard _ => if hard then 5 else 4

/-- RAMPu_STAT.LIMIT_ACTIVE. -/
def State.limitActive (s : State) (u : Fin 4) : Nat :=
  (List.range 4).foldl (fun n k =>
    let v := s.reg (rampBase u + 0x60 + 4 * k)
    n + flag (bitAt v 6 && s.inActive (bitsAt v 0 6)) k) 0

/-- RAMP (R90, R108, R126, R129-R133). -/
def State.liveRamp (s : State) (a : Nat) : Nat :=
  if 0x20400 ≤ a then 0 else
  let u := unitOf ((a - 0x20000) / 0x100)
  let r := s.ramp[u]
  match a % 0x100 with
  | 0x00 => r.phase + flag r.homed 3 + flag r.tail.isSome 4 + flag r.declHeld 5 + flag (r.gear.source ≠ 0) 6 +
      flag r.gear.frozen 7 + place (s.limitActive u) 8 4 +
      (match r.motion with
       | .run x => place x.idx 16 16
       | _ => 0)
  | 0x48 => ucode 32 r.spVel
  | 0x4C => ucode 32 r.spAcc
  | 0x90 => place r.gear.source 0 4 + flag r.gear.frozen 4 + place r.gear.pts.length 5 7
  | 0x94 => ucode 32 r.gearOfs
  | _ => 0

/-- LOOPs registers. -/
def State.liveSlot (s : State) (i : Fin 16) (o : Nat) : Nat :=
  let q := s.loop.slots[i]
  match o with
  | 0x00 => place q.mode 0 3 + flag (s.scheduled i.val) 4 + flag q.configured 5
  | 0x04 => place q.state 0 3 + flag q.satHi 3 + flag q.satLo 4 + flag q.slewing 5 + flag q.remainder 6 + flag q.frozen 7 +
      flag (s.scheduled i.val && decide (0 < s.loop.lam ∧ s.loop.lam < 2 ^ 30)) 8 + flag q.inj.isSome 9 +
      flag q.refInvalid 10 + place q.queue.length 16 5
  | 0x10 => ucode 32 q.law
  | 0x14 => ucode 32 q.ye
  | 0x18 => ucode 32 q.injVal
  | _ => 0

/-- LOOP (R191). -/
def State.liveLoop (s : State) (a : Nat) : Nat :=
  if a = 0x30000 then
    (maskOf 16 fun i => s.loop.slots[slotIdx i].configured).toNat + 65536 * (maskOf 16 fun i => s.loop.slots[slotIdx i].mode ≠ 0).toNat
  else if a = 0x30004 then place (s.tickLoad 16) 0 16 + place s.curLoad 16 16
  else if a = 0x30010 then place s.loop.var 4 2 + place s.loop.near 16 5 + flag s.loop.schedFrozen 21
  else if a = 0x30014 then place s.loop.lam 0 31
  else if 0x30100 ≤ a ∧ a < 0x30500 then s.liveSlot (slotIdx ((a - 0x30100) / 0x40)) (a % 0x40)
  else if 0x31000 ≤ a ∧ a < 0x33000 then
    (match coefReg a with
     | some (i, b, k) => ucode 32 ((if b then s.loop.slots[i].bank1 else s.loop.slots[i].bank0).getD k 0)
     | none => 0)
  else if 0x33000 ≤ a ∧ a < 0x33400 then u32 s.loop.slots[slotIdx ((a - 0x33000) / 0x40)].desc (a % 0x40)
  else if a = 0x34014 then
    flag s.loop.trip 0 + place s.loop.phase 1 2 + flag s.loop.vlimit 3 + flag s.loop.stoA 4 + flag s.loop.stoB 5 +
      flag s.loop.enabled 6 + flag s.loop.kbad 7
  else if a = 0x35028 then place s.loop.fnow 0 32
  else if a = 0x37044 then flag s.loop.cap.isSome 0 + flag s.loop.capTrig 1 + place s.loop.capRecs 8 24
  else 0

/-- SENSE_STAT. -/
def State.senseStat (s : State) : Nat :=
  ((List.range 5).foldl (fun n c => n + flag (s.sense.known[srcIdx (c + 1)]) (c + 1)) 0) + flag s.sense.sdValid[0] 8 +
    flag s.sense.sdValid[1] 9 + flag s.sense.sdValid[2] 10 + flag s.sense.loadValid 11 + flag s.sense.mismatch 12

/-- Registers of encoder channel `k`. -/
def State.liveEnc (s : State) (k : Fin 3) (o : Nat) : Nat :=
  let q := s.sense
  match o with
  | 0x20 => ucode 32 (q.spd[srcIdx (k.val + 3)])
  | 0x24 => if k = 0 then place q.angle 0 32 else if k = 2 then place q.hall 0 3 else 0
  | 0x28 => flag q.fault[k] 0 + place q.kind[k] 1 4 +
      (if k = 0 then flag q.angleValid 5 + flag q.zsync 6 + place q.amp 16 12 else 0)
  | _ => 0

/-- SENSE (R220). -/
def State.liveSense (s : State) (a : Nat) : Nat :=
  let q := s.sense
  if a = 0x40000 then s.senseStat
  else if 0x40100 ≤ a ∧ a < 0x40400 then s.liveEnc (fidx 2 ((a - 0x40100) / 0x100)) (a % 0x100)
  else if a = 0x40428 then ucode 32 (q.spd[srcIdx 1])
  else if a = 0x40430 then place q.ssiErr 0 16
  else if a = 0x4051C then ucode 32 q.sdVal[0]
  else if a = 0x4052C then ucode 32 q.sdVal[1]
  else if a = 0x4053C then ucode 32 q.sdVal[2]
  else if 0x40640 ≤ a ∧ a < 0x40680 ∧ a % 4 = 0 then ucode 32 q.adc[slotIdx ((a - 0x40640) / 4)]
  else if a = 0x40708 then ucode 32 (q.spd[srcIdx 2])
  else if a = 0x4070C then place q.carAge 0 32
  else if a = 0x40808 then ucode 32 (satS 32 q.cmpDiff)
  else if a = 0x40830 then place q.landNear 0 8 + flag q.inZone 8 + flag q.inLevel 9 + flag q.landValid 10
  else if a = 0x40834 then ucode 32 (satS 32 q.landDist)
  else if a = 0x4084C then ucode 32 q.load
  else 0

/-- DOOR (R262); the whole block reads 0 in the machine station. -/
def State.liveDoor (s : State) (a : Nat) : Nat :=
  let q := s.door
  match a with
  | 0x50000 => place q.state 0 4 + place q.mode 4 3 + flag q.on 7 + flag q.fault 8 + place q.fkind 9 3 + flag s.contact 12 +
      flag s.lockInput 13 + flag (s.obstructed true || s.obstructed false) 14 + flag q.fcap 15 + flag q.ecap 16 + flag q.nudge 17 +
      flag (s.permit (s.fld 0x50004 8 4)) 18 + flag (s.permit (s.fld 0x50004 4 4)) 19 + flag q.vlimit 20
  | 0x50074 => ucode 16 q.fr + place (min q.energy 0xFFFF) 16 16
  | 0x50078 => place q.vplan 0 32
  | 0x5007C => place (openDiv q.vdoor 10).toNat 0 16 + place (ucode 16 q.temp) 16 16
  | _ => 0

/-- GROUP (R310); the whole block reads 0 in the car station. -/
def State.liveGroup (s : State) (a : Nat) : Nat :=
  let g := s.group
  match a with
  | 0x60000 => place g.state 0 3 + place g.car 3 6 + flag g.mute 9 + flag (g.car ≠ 0 && g.p.getLsbD (g.car - 1)) 10 +
      flag (g.mask.getLsbD 0 && !g.lost.getLsbD 0) 11 + flag (g.mask.getLsbD 1 && !g.lost.getLsbD 1) 12 + flag g.bell 13 +
      flag g.resync.isSome 14
  | 0x60010 => place g.round 0 32
  | 0x60014 => g.digest.toNat
  | 0x60018 => g.refDig.toNat
  | 0x6001C => g.tag.toNat
  | 0x60020 => place g.core.bag.length 0 11 + place g.admitted 16 11
  | 0x60024 => place g.ownCar.state 0 8 + place g.ownCar.landing 8 8 + place g.ownCar.dir 16 8 + place g.ownCar.load 24 8
  | 0x60028 => place (min g.discard 0xFF) 0 8 + place (min g.txDrop 0xFF) 8 8 + place (min g.slotLate 0xFF) 16 8 +
      place (min g.busDiff 0xFF) 24 8
  | 0x6002C => place g.refused 0 32
  | _ => 0

/-- LOCK_STAT. -/
def State.lockStat (s : State) : Nat :=
  let l := s.lock
  flag s.image.isSome 0 + flag l.pend.isSome 1 + flag s.safeStop 2 + flag l.ucm 3 + flag l.bridge 4 + flag l.disagree 5 +
    flag l.bypass 6 + flag l.imageBad 7 + flag s.chainCause 8 + flag s.lane.tkstop 9 + flag l.armed.isSome 10 +
    flag l.bridgeRun.isSome 11 + flag l.stoTest.isSome 12 + flag (s.machine && s.stoTestOk) 13 + flag l.stoA 14 + flag l.stoB 15

/-- LOCK_PERMIT. -/
def State.lockPermits (s : State) : Nat := (maskOf 15 s.permit).toNat + 32768

/-- LOCK_CRC: 0 for the all-false image. -/
def State.lockCrc (s : State) : Nat := if s.image.isSome then s.lock.crc.toNat else 0

/-- LOCK_TAPS. -/
def State.lockTaps (s : State) : Nat :=
  (maskOf 12 fun k => (s.lock.tap[fidx 11 k]).level).toNat +
    (match s.image with
     | some i => place (u16 i 0xA10) 16 12
     | none => 0)

/-- LOCK (R311-R348). -/
def State.liveLock (s : State) (a : Nat) : Nat :=
  let l := s.lock
  if 0x70010 ≤ a ∧ a < 0x70020 then (l.val.toNat >>> (8 * (a - 0x70010))) % 2 ^ 32
  else if 0x70020 ≤ a ∧ a < 0x70030 then (l.ok.toNat >>> (8 * (a - 0x70020))) % 2 ^ 32
  else if 0x70060 ≤ a ∧ a < 0x70090 then (l.tap[fidx 11 ((a - 0x70060) / 4)]).mv % 2 ^ 32
  else match a with
  | 0x70000 => s.lockStat
  | 0x70004 => s.lockPermits
  | 0x70008 => l.perm1.toNat + 65536 * l.perm2.toNat
  | 0x70040 => s.lockCrc
  | 0x70044 => (match l.pend with
    | some b => (crc32c b).toNat
    | none => 0)
  | 0x70050 => s.lockTaps
  | 0x70098 => min l.ucmD 0xFFFFFFFF
  | 0x700A0 => place l.landing 0 8 + place l.voids 8 4 + place (min l.passes 0xFFFF) 16 16
  | 0x700A4 => place l.stoResult 0 2 + place l.stoStep 2 3 +
      (match l.stoPass with
       | some p => place (min ((s.now - p) / 288000000000) 0xFFFF) 16 16
       | none => 0)
  | 0x700B0 => l.user.toNat
  | 0x700B4 => (maskOf 16 fun k => (l.delay[slotIdx k]).latched).toNat
  | 0x700B8 => min l.disag 0xFFFFFFFF
  | _ => 0

/-- The code of the stile's state (R351). -/
def Stile.code : Stile → Nat
  | .aActive => 0
  | .bActive => 1
  | .handoverAB => 2
  | .handoverBA => 3
  | .none => 4
  | .fault => 5

/-- What LANE_STAT.STANDBY shows of the other lane. -/
def LaneCond.code : LaneCond → Nat
  | .ready => 0
  | .resetting => 1
  | .unfit => 2
  | .active => 3
  | .held => 3

/-- The faults of a lane counted under R372: those since its latest successful lane reset. -/
def State.laneFaults (s : State) (b : Bool) : Nat :=
  let since (p : Postmark) : Bool := match (if b then s.lane.clearB else s.lane.clearA) with
    | some c => decide (c < p)
    | none => true
  min 3 ((s.lane.faults b).filter fun p => decide (s.now < p + dayCounts) && since p).length

/-- LANE_STAT: with no lane holding or receiving the role the spec states no ACTIVE and STANDBY (notes/assumptions/36.md). -/
def State.laneStat (s : State) : Nat :=
  let l := s.lane
  let act := match l.holder with
    | some b => some b
    | none => l.receiver
  (match act with
   | some b => flag b 0 + place (l.cond (!b)).code 4 2
   | none => Config.noHolder s.now % 2 + place (Config.noHolder s.now / 2) 4 2) +
    place l.stile.code 1 3 + flag l.stale 6 + flag l.watchDue.isSome 7 + flag l.tkstop 8 + place (s.laneFaults false) 16 2 +
    place (s.laneFaults true) 18 2

/-- LANE_LAST. -/
def State.laneLast (s : State) : Nat :=
  place (min s.lane.lastGap 0xFFFF) 0 16 + place s.lane.lastReason 16 3 + flag s.lane.lastLane 19 + flag s.lane.lastKind 20

/-- LANE (R383). -/
def State.liveLane (s : State) (a : Nat) : Nat :=
  let l := s.lane
  match a with
  | 0x80000 => s.laneStat
  | 0x80018 => l.jnext % 2 ^ 32
  | 0x80034 => s.laneLast
  | 0x80038 => place (min l.cntTakeover 0xFF) 0 8 + place (min l.cntWatch 0xFF) 8 8 + place (min l.cntLinkFault 0xFF) 16 8 +
      place (min l.cntSealMiss 0xFF) 24 8
  | 0x8003C => flag l.tkstop 0
  | _ => 0

/-- The registers of mill `m` at offset `o`. -/
def State.liveMill (s : State) (m : Fin 4) (o : Nat) : Nat :=
  let q := s.mill.mill[m]
  if 0x40 ≤ o ∧ o < 0x60 ∧ o % 4 = 0 then (q.out[fidx 7 ((o - 0x40) / 4)]).toNat
  else match o with
  | 0x00 => place q.state 0 3 + flag q.bank 3 + place q.loops.length 4 2 + flag (q.events ≠ 0) 6 + place q.pc 8 18
  | 0x04 => q.sticky.toNat + place q.cfreg 8 3
  | 0x14 => q.trapWord % 2 ^ 32
  | 0x18 => q.trapAdr % 2 ^ 32
  | 0x1C => place q.entry 0 18
  | 0x20 => place q.cycles 0 32
  | 0x24 => place q.maxCyc 0 32
  | 0x28 => place (min q.ovr 0xFFFF) 0 16
  | _ => 0

/-- The flag word of a bank in the register view. -/
def flagWord (f : MFlags) (l : List MLoop) : Nat := flag f.z 0 + flag f.n 1 + flag f.v 2 + flag f.c 3 + place l.length 4 2

/-- The register view of a mill (R424). -/
def MillSt.view (q : MillSt) (o : Nat) : Nat :=
  if o < 0x180 then
    let b := 0x100 ≤ o
    let k := o % 0x100
    let acc (i : Nat) : Nat := ucode 96 ((if b then q.acc1 else q.acc0)[fidx 3 i])
    if k < 0x40 then ((if b then q.d1 else q.d0)[slotIdx (k / 4)]).toNat
    else if k < 0x70 then (acc ((k - 0x40) / 12) >>> (8 * ((k - 0x40) % 12))) % 2 ^ 32
    else if k = 0x70 then (if b then flagWord q.flags1 q.loops1 else flagWord q.flags0 q.loops0)
    else 0
  else if o < 0x1C0 then
    let n := fidx 7 ((o - 0x180) / 8)
    if o % 8 = 0 then place q.ptr[n] 0 16 + place q.len[n] 16 16 else place q.base[n] 0 16
  else if o = 0x1C0 then q.epc
  else if o = 0x1C4 then q.pc
  else 0

/-- MILL (R424). -/
def State.liveMills (s : State) (a : Nat) : Nat :=
  if a < 0x90400 then s.liveMill (fidx 3 ((a - 0x90000) / 0x100)) (a % 0x100)
  else if a = 0x90400 then place s.mill.arr 0 3
  else if 0x91000 ≤ a ∧ a < 0x91800 then (s.mill.mill[fidx 3 ((a - 0x91000) / 0x200)]).view (a % 0x200)
  else 0

/-- FIO_INIMG, FIO_INVAL: 48 bits of the inputs as the control die has them. -/
def State.inputMask (p : Nat → Bool) (hi : Bool) : Nat :=
  if hi then (maskOf 16 fun k => p (k + 32)).toNat else (maskOf 32 p).toNat

/-- FIO (R450). -/
def State.liveFio (s : State) (a : Nat) : Nat :=
  let f := s.fio
  if 0xA0060 ≤ a ∧ a < 0xA0080 ∧ a % 4 = 0 then
    let c := f.ctr[fidx 7 ((a - 0xA0060) / 4)]
    if c.mode = 0 then 0 else place c.value 0 32
  else if 0xA0080 ≤ a ∧ a < 0xA00A0 ∧ a % 4 = 0 then
    let c := f.ctr[fidx 7 ((a - 0xA0080) / 4)]
    place c.mode 0 2 + place c.gate 8 20
  else if 0xA0140 ≤ a ∧ a < 0xA0180 ∧ a % 4 = 0 then
    let amp (k : Nat) : Nat := if f.on.getLsbD k then (f.amps[fidx 31 k]) else 0
    let m := (a - 0xA0140) / 4
    place (amp (2 * m)) 0 16 + place (amp (2 * m + 1)) 16 16
  else match a with
  | 0xA0000 => flag f.low.entered 0 + flag f.shedT.entered 1 + flag f.input.entered 2 + flag f.linkOff 3 + flag f.lightsOff 4 +
      flag f.ventOff 5 + place (maskOf 4 fun g => s.groupShed (g + 1)).toNat 8 4
  | 0xA0008 => place f.vfield 0 16 + place (ucode 16 f.hottest) 16 16
  | 0xA000C => place (min f.linkErr 0xFFFF) 0 16
  | 0xA0040 => State.inputMask s.inActive false
  | 0xA0044 => State.inputMask s.inActive true
  | 0xA0048 => State.inputMask s.inValid false
  | 0xA004C => State.inputMask s.inValid true
  | 0xA0100 => f.cmd.toNat
  | 0xA0104 => f.on.toNat
  | 0xA0108 => f.latched.toNat
  | 0xA010C => f.openLoad.toNat
  | 0xA0114 => (maskOf 32 s.outShed).toNat
  | 0xA0118 => s.permOff.toNat
  | 0xA011C => (maskOf 32 s.outStandby).toNat
  | 0xA0134 => place f.groupA 0 16 + place f.groupB 16 16
  | _ => 0

/-- CANx_ERR. -/
def State.canErr (s : State) (c : Fin 3) : Nat :=
  let q := s.can[c]
  place (min q.txc 255) 0 8 + place (min q.rxc 255) 8 8 + place q.loopDly 16 7

/-- CANx_STAT. -/
def State.canStat (s : State) (c : Fin 3) : Nat :=
  let q := s.can[c]
  place q.state 0 2 + flag q.integ 2 + place q.errst 3 2

/-- CANA_GTSTAT. -/
def State.gtStat (s : State) : Nat :=
  let g := s.group.gt
  place g.state 0 3 + flag g.busB 3 + place (min g.missed 0xFF) 16 8

/-- CANA, CANB, CANC (R487). -/
def State.liveCan (s : State) (c : Fin 3) (o : Nat) : Nat :=
  let q := s.can[c]
  if 0x20 ≤ o ∧ o < 0x40 ∧ o % 4 = 0 then (q.lock.toNat >>> (8 * (o - 0x20))) % 2 ^ 32
  else if 0x40 ≤ o ∧ o < 0x60 ∧ o % 4 = 0 then
    (maskOf 32 fun i => let b := 8 * (o - 0x40) + i
                        (q.buf b).fresh).toNat
  else if 0x60 ≤ o ∧ o < 0x80 ∧ o % 4 = 0 then
    (maskOf 32 fun i => let b := 8 * (o - 0x60) + i
                        q.pend.any fun p => p.buf.val = b).toNat
  else match o with
  | 0x00 => s.canStat c
  | 0x10 => s.canErr c
  | 0x14 => place (min q.rej 255) 0 8 + place (min q.overrun 255) 8 8 + place (min q.twin 255) 16 8 + place (min q.busOff 255) 24 8
  | 0x1C => q.errSeen.toNat
  | 0x80 => place q.fifo0.length 0 9 + place (s.members c 0).length 16 9
  | 0x84 => place q.fifo1.length 0 9 + place (s.members c 1).length 16 9
  | 0x200 => if c = 0 then s.gtStat else 0
  | 0x208 => if c = 0 then ucode 32 s.group.gt.e else 0
  | 0x20C => if c = 0 then ucode 32 (openDiv s.group.gt.c 65536) else 0
  | 0x210 => if c = 0 then ucode 32 (openDiv s.group.gt.f 65536) else 0
  | _ => 0

/-- LINK (R501). -/
def State.liveLink (s : State) (a : Nat) : Nat :=
  let k := s.link
  match a with
  | 0xE0000 => place k.state 0 3 + flag k.fibre 3 + flag k.phy 4 + flag k.locked 5 + place k.partner 6 2 + place k.blind 8 2 +
      place (min k.missed 3) 10 2
  | 0xE0008 => place k.seqTx 0 16 + place k.seqRx 16 16
  | 0xE000C => place (min k.discard 255) 0 8 + place (min k.gap 255) 8 8 + place (min k.downs 255) 16 8 + place (min k.letterDrop 255) 24 8
  | 0xE0010 => if s.machine then 0 else ucode 32 (satS 32 (openDiv k.theta 4))
  | 0xE0014 => ucode 32 (openDiv k.delay 4)
  | _ => 0

/-- PWR (R542). -/
def State.livePwr (s : State) (a : Nat) : Nat :=
  let p := s.pwr
  match a with
  | 0xF0000 => place p.lastMode 0 2 + flag p.mains 2 + flag p.onVkeep 3 + place p.rescueStat 4 2 + flag p.xtalOk 6 + flag p.encOn 7 +
      place p.wakeSrc 8 4
  | 0xF0020 => place (openDiv p.vlog 10).toNat 0 16 + place (openDiv p.vkeep 10).toNat 16 16
  | 0xF0024 => place (ucode 16 p.tempC) 0 16 + place (ucode 16 p.tempF) 16 16
  | 0xF0028 => place p.resetCause 0 7
  | 0xF002C => place p.bank.val 0 1 + place s.flash.activation.val 1 1 + flag s.flash.verified[0] 2 + flag s.flash.verified[1] 3 +
      flag p.fallback 4 + flag p.copy.isSome 5 + flag (p.phase = .recovery) 6 + flag s.flashBusy 7 + flag p.bootDone 8 +
      place p.bootTime 16 16
  | _ => 0

/-- The bits that no letter stores, of the register at an address. -/
def State.live (s : State) (a : Nat) : Nat :=
  match a / 0x10000 with
  | 0x0 => s.liveSys a
  | 0x1 => s.liveLetter a
  | 0x2 => s.liveRamp a
  | 0x3 => s.liveLoop a
  | 0x4 => s.liveSense a
  | 0x5 => s.liveDoor a
  | 0x6 => s.liveGroup a
  | 0x7 => s.liveLock a
  | 0x8 => s.liveLane a
  | 0x9 => s.liveMills a
  | 0xA => s.liveFio a
  | 0xB => s.liveCan 0 (a % 0x10000)
  | 0xC => s.liveCan 1 (a % 0x10000)
  | 0xD => s.liveCan 2 (a % 0x10000)
  | 0xE => s.liveLink a
  | 0xF => s.livePwr a
  | _ => 0

/-! ### One read -/

/-- The registers of the other role, which read 0: DOOR in the machine station (R262), GROUP and CARPOS in the car station
(R220, R310), LINK_BLIND and LINK_DOOR in the role that does not use them (R501). -/
def State.readsZero (s : State) (a : Nat) : Bool :=
  (a / 0x10000 = 5 && !s.carStation) || (a / 0x10000 = 6 && s.carStation) ||
    (decide (0x40700 ≤ a ∧ a < 0x40718) && s.carStation) || (a = 0xE001C && !s.machine) || (a = 0xE0020 && !s.carStation)

/-- The word that a read of a register shows, latched halves and pending halves apart. -/
def State.shown (s : State) (a : Nat) : Nat :=
  if s.readsZero a then 0
  else match s.livePair a with
  | some v => v % 2 ^ 32
  | none =>
    match s.livePair (a - 4) with
    | some v => v / 2 ^ 32 % 2 ^ 32
    | none => (s.reg a + s.live a) % 2 ^ 32

/-- The register view of a mill that runs cannot be read (R424). -/
def State.viewBusy (s : State) (a : Nat) : Bool :=
  decide (0x91000 ≤ a ∧ a < 0x91800) && (let q := s.mill.mill[fidx 3 ((a - 0x91000) / 0x200)]
                                         !(q.state = 0 || q.state = 4))

/-- One register read: a low half shows its pending value and latches its high half; a high half shows what was latched
(R91). -/
def State.readReg (a : Nat) (s : State) : Nat × State :=
  if s.pairLo a then
    let lo := match s.half.find? (·.1 = a) with
      | some x => x.2.toNat
      | none => s.shown a
    (lo, { s with latch := aput (a + 4) (word (s.shown (a + 4))) s.latch })
  else match s.latch.find? (·.1 = a) with
  | some x => (x.2.toNat, { s with latch := adel a s.latch })
  | none => (s.shown a, s)

/-- What a REG_READ answered DONE clears (R15, R18): the RC fields of the register. -/
def State.readClear (a : Nat) (s : State) : State :=
  if 0x10030 ≤ a ∧ a < 0x10048 ∧ a % 4 = 0 then
    { s with lb := { s.lb with deadCount := s.lb.deadCount.set (fidx 5 ((a - 0x10030) / 4)) 0 } }
  else if a = 0x6002C ∧ s.carStation ∨ a = 0x60028 ∧ s.carStation then s
  else if 0xB0000 ≤ a ∧ a < 0xE0000 then
    let c : Fin 3 := fidx 2 ((a - 0xB0000) / 0x10000)
    let q := s.can[c]
    if a % 0x10000 = 0x14 then s.setCan c { q with rej := 0, overrun := 0, twin := 0, busOff := 0 }
    else if a % 0x10000 = 0x1C then s.setCan c { q with errSeen := 0 }
    else s
  else if 0x90000 ≤ a ∧ a < 0x90400 then
    let m : Fin 4 := fidx 3 ((a - 0x90000) / 0x100)
    let q := s.mill.mill[m]
    if a % 0x100 = 0x24 then s.setMill m { q with maxCyc := 0 }
    else if a % 0x100 = 0x28 then s.setMill m { q with ovr := 0 }
    else s
  else match a with
  | 0x30 => { s with sys := { s.sys with eccCorrected := 0, eccUncorrected := 0 } }
  | 0x34 => { s with ev := { s.ev with lost := 0 } }
  | 0x40430 => { s with sense := { s.sense with ssiErr := 0 } }
  | 0x60028 => s.setGroup { s.group with discard := 0, txDrop := 0, slotLate := 0, busDiff := 0 }
  | 0x6002C => s.setGroup { s.group with refused := 0 }
  | 0x700B8 => s.setLock { s.lock with disag := 0 }
  | 0x80038 => s.setLane { s.lane with cntTakeover := 0, cntWatch := 0, cntLinkFault := 0, cntSealMiss := 0 }
  | 0xA000C => s.setFio { s.fio with linkErr := 0 }
  | 0xE000C => s.setLink { s.link with discard := 0, gap := 0, downs := 0, letterDrop := 0 }
  | _ => s

end Sys2Proof.Machine
end

