-- ==== Sys2Proof/Machine/Registers.lean ====
section
/-! DEFINITION. Writing registers: REG_READ, REG_WRITE, REG_MODIFY (R34, R570) and the rows of register writes that have an
effect of their own. All of them go through one write path: the address, the view, the role, the range of each field (R567),
the block's own refusals, then the effect. -/
namespace Sys2Proof.Machine

/-! ### Addresses and views -/

/-- An address is aligned and lies in the ranges of R33; CAN message RAM is not reached by a letter (R34, R36). -/
def regAddrOk (a : Nat) : Bool := decide (a % 4 = 0) && (decide (a < 0x100000) || (memRange a 4 && !touchesCan a 4))

/-- An address is one that letters may write (R34, R36). -/
def regWriteOk (a : Nat) : Bool := decide (a % 4 = 0) && (decide (a < 0x100000) || writable a 4)

/-- An address lies in the LOCK block, which only the privileged view reaches (R35). -/
def inLock (a : Nat) : Bool := a / 0x10000 = 7

/-- A write of the register needs the privileged view: LOCK, a register with a PRW field, the key registers (R16, R35,
R369, R534). -/
def privReg (a : Nat) : Bool :=
  inLock a || decide (0x60 ≤ a ∧ a ≤ 0x80) || a = 0x8003C || (regFields a).any (·.prw)

/-- The HOIST and BRAKE registers (R191). -/
def hoistReg (a : Nat) : Bool := decide (0x34000 ≤ a ∧ a < 0x34060)

/-- Writes that the role in force refuses (R191, R220, R262, R310, R501). -/
def State.foreign (s : State) (a : Nat) : Bool := s.readsZero a || (hoistReg a && s.carStation)

/-! ### The new value -/

/-- `old` with the bits of `m` taken from `v`. -/
def mixBits (old v m : Nat) : Nat := ((word old &&& ~~~ word m) ||| (word v &&& word m)).toNat

/-- The Q1.30 and Q3.28 registers, which the VG63 holds with bit 31 a copy of bit 30 (R13). -/
def q31Reg (a : Nat) : Bool :=
  (decide (0x30100 ≤ a ∧ a < 0x30500) && (a % 0x40 = 8 || a % 0x40 = 0xC)) ||
    a = 0x35020 || a = 0x36008 || a = 0x3600C

/-- The stored word after a write of `v` to the bits of `m`. -/
def newWord (a old v m : Nat) : Nat :=
  let x := mixBits old v m
  let n := (regFields a).foldl (fun n f => if f.ro then n else putBits n f.lo f.len (bitsAt x f.lo f.len)) old
  if q31Reg a then ucode 32 (sext 31 n) else n

/-- A field that the write sets would leave its range (R567). -/
def outOfRange (a new m : Nat) : Bool :=
  (regFields a).any fun f => !f.ro && bitsAt m f.lo f.len ≠ 0 &&
    (let x := if q31Reg a then bitsAt new 0 31 else bitsAt new f.lo f.len
     decide (x < f.mn ∨ f.mx < x))

/-- The modes of an encoder channel, and its angle origin outside ENC0 sin/cos mode (R195, R197). -/
def encCfgBad (k new : Nat) : Bool :=
  let m := bitsAt new 0 3
  (m = 2 && k ≠ 0) || ((m = 3 || m = 4) && k ≠ 2) || (bitsAt new 4 2 ≠ 0 && !(k = 0 && m = 2))

/-- The sum of the six SHARE values with the one at `a` replaced (R86). -/
def State.shareSum (s : State) (a new : Nat) : Nat :=
  (List.range 6).foldl (fun n p => n + bitsAt (if a = 0x10010 + 4 * p then new else s.reg (0x10010 + 4 * p)) 0 8) 0

/-- Values that a register refuses with BAD_ARG beyond the ranges of its fields. -/
def State.valueBad (s : State) (a new m : Nat) : Bool :=
  if a = 0x14 then bitsAt m 8 8 ≠ 0 && decide (Config.genMax < bitsAt new 8 8)
  else if 0x10010 ≤ a ∧ a < 0x10028 then decide (s.sys.budget < s.shareSum a new)
  else if 0x90 ≤ a ∧ a < 0xD0 ∧ a % 8 = 0 then decide (new % 8 ≠ 0) || !tableRange new 8
  else if a = 0x40100 ∨ a = 0x40200 ∨ a = 0x40300 then encCfgBad ((a - 0x40100) / 0x100) new
  else if 0x40600 ≤ a ∧ a < 0x40640 then bitAt new 2 && a ≠ 0x40608 && a ≠ 0x4060C
  else if a = 0x40800 then decide (4 ≤ bitsAt new 12 3 ∧ bitsAt new 12 3 ≤ 6)
  else false

/-! ### Refusals of RAMP and SENSE registers -/

/-- A write to a register of a ramp unit is refused (R90, R224). -/
def State.rampRefused (s : State) (a : Nat) : Option (Status × Nat × Nat) :=
  let u := unitOf ((a - 0x20000) / 0x100)
  let o := a % 0x100
  let trap := decide (0x30 ≤ o ∧ o < 0x40)
  if 0x20400 ≤ a || !(regFields a).any (fun f => !f.ro) then none
  else if s.doorOwns u && (trap || o = 4 || decide (0x60 ≤ o ∧ o < 0x70)) then some (.wrongState, 0x51, 0)
  else if s.moving u && !trap && o ≠ 0x90 then some (.wrongState, 2, 0)
  else none

/-- A source is in use: a moving unit follows it, or a slot that is not OFF reads it (R217). -/
def State.sourceUsed (s : State) (c : Nat) : Bool :=
  ((List.finRange 4).any fun u => s.moving u && (s.fld (rampBase u + 4) 0 4 = c || s.ramp[u].gear.source = c)) ||
    ((List.finRange 16).any fun i =>
      let q := s.loop.slots[i]
      !q.off && q.configured && [4, 5, 6, 20, 21].any fun o => (q.d o = 0x40 + c || q.d o = 0x50 + c))

/-- The source whose CFG, LINES, SCALE or OFS register an address is (R217). -/
def srcOfReg (a : Nat) : Option Nat :=
  if 0x40100 ≤ a ∧ a < 0x40400 ∧ a % 0x100 < 0x18 then some (3 + (a - 0x40100) / 0x100)
  else if 0x40400 ≤ a ∧ a < 0x40418 then some 1
  else if a = 0x40710 ∨ a = 0x40714 then some 2
  else none

/-- A write to a register of the SENSE block is refused (R204, R217). -/
def State.senseRefused (s : State) (a new : Nat) : Option (Status × Nat × Nat) :=
  let used : Bool := match srcOfReg a with
    | some c => s.sourceUsed c
    | none => false
  let land := a = 0x40824 && (List.finRange 4).any fun u => s.moving u && s.fld (rampBase u + 4) 0 4 = s.fld 0x40824 8 4
  let sd := (a = 0x40500 || a = 0x40510 || a = 0x40520 || a = 0x40530) && !s.curOff
  let cfg := if a = 0x40400 then new else s.reg 0x40400
  let tim := if a = 0x40404 then new else s.reg 0x40404
  if used || land || sd then some (.wrongState, 0x40, 0)
  else if (a = 0x40400 ∨ a = 0x40404) ∧ ¬ s.ssiTimingOk cfg tim then some (.wrongState, 0x41, ssiNeedNs cfg tim)
  else if a = 0x40840 ∧ bitsAt new 0 2 = 2 ∧ s.carStation then some (.wrongState, 1, 0)
  else none

/-- LOCK_USER may be written in the life-cycle states that R341 permits. -/
def State.lockRefused (s : State) (a w : Nat) : Option (Status × Nat × Nat) :=
  if a = 0x70000 then s.causeRefused w
  else if a = 0x700B0 ∧ (s.flash.lc = 0 ∨ s.flash.lc = 4) then some (.wrongState, 0x70, 0)
  else none

/-- A refusal without bytes 16-19. -/
def plainRefusal (x : Option (Status × Nat)) : Option (Status × Nat × Nat) := x.map fun y => (y.1, y.2, 0)

/-- The refusal of a write by its block: `new` the stored word after it, `m` the bits written, `w` those written 1. -/
def State.blockRefused (s : State) (a new m w : Nat) : Option (Status × Nat × Nat) :=
  match a / 0x10000 with
  | 0x0 => if 0x60 ≤ a ∧ a ≤ 0x80 ∧ s.flash.lc = 4 then some (.wrongState, 0xE0, 0) else none
  | 0x2 => s.rampRefused a
  | 0x3 => s.loopRefused a (s.reg a) new m
  | 0x4 => s.senseRefused a new
  | 0x5 => s.doorRefused a new
  | 0x6 => plainRefusal (s.groupRefused a new)
  | 0x7 => s.lockRefused a w
  | 0x8 => if a = 0x8003C ∧ bitAt m 0 then s.tkstopRefused w else none
  | 0x9 => if 0x90000 ≤ a ∧ a < 0x90400 ∧ a % 0x100 = 0xC then plainRefusal (s.evvecRefused (fidx 3 ((a - 0x90000) / 0x100)) new) else none
  | 0xA => s.fioRefused a w
  | 0xB => s.canRefused a new
  | 0xC => s.canRefused a new
  | 0xD => s.canRefused a new
  | 0xE => plainRefusal (s.linkRefused a new)
  | _ => none

/-! ### Effects -/

/-- What a write answers besides DONE, and the state after it. -/
abbrev WriteRes := Option (Status × Nat × Nat) × State

/-- A refusal after which the state is as it was. -/
def noWrite' (st : Status) (d f : Nat) (s : State) : WriteRes := (some (st, d, f), s)

/-- Low half of the pair in force or pending. -/
def State.halfLo (s : State) (a : Nat) : Nat :=
  match s.half.find? (·.1 = a) with
  | some x => x.2.toNat
  | none => s.reg a

/-- A write of a high half: both halves come into force together, unless the result breaks R14 or the door's travel range
(R91, R225); the pending half is gone in either case. -/
def State.writeHi (a v m : Nat) (s : State) : WriteRes :=
  let lo := a - 4
  let p := s.halfLo lo + 2 ^ 32 * mixBits (s.reg a) v m
  let drop : State := { s with half := adel lo s.half, latch := adel a s.latch }
  if !plainPairs.contains lo && !posOk p then noWrite' .badArg 4 0 drop
  else if (lo = 0x50020 ∨ lo = 0x50028) ∧ ¬ s.doorTravelOk lo (sext 64 p) then noWrite' .badArg 4 0 drop
  else (none, drop.setPair lo (sext 64 p))

/-- A write of SENSE_LAND_CFG: a write of COUNT copies and checks the table (R210). -/
def State.writeLand (new m : Nat) (s : State) : WriteRes :=
  let k := bitsAt new 0 8
  let t := s.reg 0x40820
  if bitsAt m 0 8 = 0 then (none, s.setReg 0x40824 new)
  else if k ≠ 0 ∧ (t % 8 ≠ 0 ∨ ¬ tableRange t (8 * k)) then noWrite' .badArg 4 0 s
  else
    let e := s.eccRead t (8 * k)
    match e.1 with
    | some w => noWrite' .failed 1 w e.2
    | none =>
      let s := e.2
      let ws := (List.range k).map fun i => s.cell32 (t + 8 * i) + 2 ^ 32 * s.cell32 (t + 8 * i + 4)
      let ls := ws.map (sext 64)
      let rising := (List.range (k - 1)).all fun i => decide (ls.getD i 0 < ls.getD (i + 1) 0)
      if ws.all posOk && rising then
        (none, { s.setReg 0x40824 new with sense := { s.sense with landNext := some ls } })
      else noWrite' .badArg 4 0 s

/-- What storing a register does besides (R9, R26, R158, R172, R195, R203, R505, R531). -/
def State.afterWrite (a old new m : Nat) (s : State) : State :=
  if a = 0x14 then if bitsAt m 8 8 ≠ 0 then s.setFlash { s.flash with genNext := some (bitsAt new 8 8) } else s
  else if a = 0x20 then if bitsAt m 8 8 ≠ 0 then s.setFlash { s.flash with periodNext := some (bitsAt new 8 8) } else s
  else if a = 0x10000 then if bitsAt m 8 8 ≠ 0 then s.setFlash { s.flash with budgetNext := some (bitsAt new 8 8) } else s
  else if a = 0x40100 ∨ a = 0x40200 ∨ a = 0x40300 then
    if bitsAt new 0 3 = 0 then s.encDisable (fidx 2 ((a - 0x40100) / 0x100))
    else if bitsAt old 0 3 = 0 then s.encEnable (fidx 2 ((a - 0x40100) / 0x100)) else s
  else if a = 0x40400 then
    if bitsAt new 15 1 = 0 then { s with sense := { s.sense with known := s.sense.known.set 1 false, ssiGood := 0 } }
    else if bitsAt old 15 1 = 0 then
      { s with sense := { s.sense with ssiBad := 0, ssiGood := 0, ssiNew := none, ssiOld := none, ssiFrom := s.now } }
    else s
  else if a = 0x40500 ∨ a = 0x40510 ∨ a = 0x40520 ∨ a = 0x40530 then
    ((s.sdSwitch 0).sdSwitch 1).sdSwitch 2
  else if a = 0xF0004 then s.encPower
  else if 0xA0020 ≤ a ∧ a < 0xA0038 then s.invAct
  else s.loopAfter a old new

/-- The registers that letters write without a stored field: W1C and WO fields, key staging, locks, TKSTOP. None: the address
is not one of them. -/
def State.writeSpecial (a v m : Nat) (s : State) : Option WriteRes :=
  let w := v &&& m
  if 0x60 ≤ a ∧ a < 0x80 then
    let k := a - 0x60
    let b := bytesLE 4 (mixBits (natLE (slice s.flash.stage k 4)) v m)
    some (none, s.setFlash { s.flash with stage := s.flash.stage.take k ++ b ++ s.flash.stage.drop (k + 4) })
  else if a = 0x80 then
    if m ≠ 0xFFFFFFFF ∧ w = 0 then some (none, s)
    else some (if (crc32c s.flash.stage).toNat = w then none else some (.badArg, 4, 0), s.keyctl w)
  else if 0x31000 ≤ a ∧ a < 0x33000 then
    (match coefReg a with
     | none => some (none, s)
     | some (i, b, k) =>
       match s.coefWrite i b k (sext 31 (mixBits (s.shown a) v m)) with
       | .error (d, f) => some (noWrite' .wrongState d f s)
       | .ok s => some (none, s))
  else if a = 0x34014 then
    some (if bitAt w 0 && s.loop.trip then
      (if s.curOff then (none, { s with loop := { s.loop with trip := false } }) else noWrite' .wrongState 0x39 0 s) else (none, s))
  else if a = 0x40128 ∨ a = 0x40228 ∨ a = 0x40328 then
    let k : Fin 3 := fidx 2 ((a - 0x40100) / 0x100)
    some (if bitAt w 0 && s.sense.fault[k] then
      (if s.encCauseAbsent k then (none, s.encFaultClear k) else noWrite' .wrongState 0x42 0 s) else (none, s))
  else if a = 0x50000 then
    some (if bitAt w 8 && s.door.fault then
      (if s.stageCauseAbsent then (none, s.setDoor { s.door with fault := false }) else noWrite' .wrongState 0x53 0 s) else (none, s))
  else if a = 0x70000 then some (none, s.causeClear w)
  else if a = 0x700B0 then
    some (none, s.setLock { s.lock with user := BitVec.ofNat 6 (mixBits s.lock.user.toNat v m) })
  else if a = 0x8003C then some (none, if bitAt m 0 then s.tkstopClear w else s)
  else if 0x90000 ≤ a ∧ a < 0x90400 ∧ a % 0x100 = 4 then some (none, s.millFlagsClear (fidx 3 ((a - 0x90000) / 0x100)) w)
  else if 0x90000 ≤ a ∧ a < 0x90400 ∧ a % 0x100 = 0x10 then some (none, s.millSig (fidx 3 ((a - 0x90000) / 0x100)) w)
  else if a = 0xA0000 then some (none, if bitAt w 3 then s.linkOffClear else s)
  else if 0xB0000 ≤ a ∧ a < 0xE0000 ∧ 0x20 ≤ a % 0x10000 ∧ a % 0x10000 < 0x40 then
    some (none, s.lockWrite (fidx 2 ((a - 0xB0000) / 0x10000)) ((a % 0x10000 - 0x20) / 4) (mixBits (s.shown a) v m))
  else if a = 0xF0028 then
    some (none, s.setPwr { s.pwr with resetCause := (BitVec.ofNat 7 s.pwr.resetCause &&& ~~~ BitVec.ofNat 7 w).toNat })
  else none

/-- The write itself, after every refusal. -/
def State.writeEffect (a new v m : Nat) (s : State) : WriteRes :=
  match s.writeSpecial a v m with
  | some r => r
  | none =>
    if pairAddrs.contains a then (none, { s with half := aput a (word (mixBits (s.halfLo a) v m)) s.half })
    else if 4 ≤ a ∧ pairAddrs.contains (a - 4) then s.writeHi a v m
    else if a = 0x40824 then s.writeLand new m
    else if (regFields a).isEmpty then (none, s)
    else (none, (s.setReg a new).afterWrite a (s.reg a) new m)

/-- The bits of `m` of a register written with `v` (R15, R567): what it answers besides DONE, and the state. -/
def State.writeReg (a v m : Nat) (s : State) : WriteRes :=
  let new := newWord a (s.reg a) v m
  if s.foreign a then noWrite' .wrongState 1 0 s
  else if outOfRange a new m || s.valueBad a new m then noWrite' .badArg 4 0 s
  else match s.blockRefused a new m (v &&& m) with
  | some (st, d, f) => noWrite' st d f s
  | none => if m = 0 then (none, s) else s.writeEffect a new v m

/-! ### Words of memory (R34, R36, R39) -/

/-- The first byte of the active capture that a range touches (R36, R187). -/
def State.captureAt (s : State) (a n : Nat) : Option Nat :=
  match s.loop.cap with
  | some c => if a < 0x10200000 + capSize c.mask * c.count ∧ 0x10200000 < a + n then some (max a 0x10200000) else none
  | none => none

/-- A 32-bit word of memory written: refused in an active capture (R36); a read, merge and write of the code word (R39). -/
def State.writeWord (a v : Nat) (s : State) : WriteRes :=
  match s.captureAt a 4 with
  | some b => noWrite' .wrongState 0x0A b s
  | none =>
    match s.eccPartial a 4 with
    | some w => noWrite' .failed 1 w (s.eccFound w)
    | none => (none, ((s.mem.soft.filter (touches a 4)).foldl (fun s w => s.eccCorrect w) s).storeBytes a (bytesLE 4 v))

/-- One write of the bits of `m`, to a register or to memory. -/
def State.writeAt (a v m : Nat) (s : State) : WriteRes := if a < 0x100000 then s.writeReg a v m else s.writeWord a v

/-! ### REG_READ, REG_WRITE, REG_MODIFY -/

/-- One read of an aligned word, without clearing: the refusal, or the value and the state (R34, R38, R424). -/
def State.readAt (a : Nat) (s : State) : Except (Status × Nat × Nat × State) (Nat × State) :=
  if a < 0x100000 then
    if s.viewBusy a then .error (.wrongState, 0x92, 0, s) else .ok (s.readReg a)
  else
    let e := s.eccRead a 4
    match e.1 with
    | some w => .error (.failed, 1, w, e.2.groupWordBad w)
    | none => .ok (natLE (e.2.bytesAt a 4), e.2)

/-- REG_READ (R18, R34, R35). -/
def regReadHandler : Handler :=
  { bad := fun _ l => if regAddrOk (u32 l.payload 0) then none else some 0
    needsPriv := fun _ l => decide (u32 l.payload 0 < 0x100000) && inLock (u32 l.payload 0)
    run := fun l s =>
      let a := u32 l.payload 0
      match s.readAt a with
      | .error (st, d, f, s) => refuseWith st d f s
      | .ok (v, s) => (.done (word v) [], if a < 0x100000 then s.readClear a else s) }

/-- A write's answer made into a reply. -/
def writeReply (old : Nat) (r : WriteRes) : Reply × State :=
  match r.1 with
  | some (st, d, f) => refuseWith st d f r.2
  | none => (.done (word old) [], r.2)

/-- A write needs the privileged view (R16, R35). -/
def writeNeedsPriv (l : Letter) : Bool := decide (u32 l.payload 0 < 0x100000) && privReg (u32 l.payload 0)

/-- REG_WRITE (R15-R17, R34). -/
def regWriteHandler : Handler :=
  { bad := fun _ l => if regWriteOk (u32 l.payload 0) then none else some 0
    needsPriv := fun _ l => writeNeedsPriv l
    run := fun l s => writeReply 0 (s.writeAt (u32 l.payload 0) (u32 l.payload 4) 0xFFFFFFFF) }

/-- REG_MODIFY (R570): the read of REG_READ, clearing nothing, then a write of the masked bits; in memory the whole word. -/
def regModifyHandler : Handler :=
  { bad := fun _ l => if regWriteOk (u32 l.payload 0) then none else some 0
    needsPriv := fun _ l => writeNeedsPriv l
    run := fun l s =>
      let a := u32 l.payload 0
      let m := u32 l.payload 4
      let v := u32 l.payload 8
      match s.readAt a with
      | .error (st, d, f, s) => refuseWith st d f s
      | .ok (old, s') =>
        let r := s'.writeAt a (if a < 0x100000 then v else mixBits old v m) m
        if r.1.isSome then writeReply old (s.writeAt a (if a < 0x100000 then v else mixBits old v m) m) else writeReply old r }

/-- REG_READ: an aligned 32-bit word; an RC field that it shows is cleared. -/
def execRegRead (l : Letter) (s : State) : Host.Outcome State Fault Refusal := .next (s.serve 0x002 regReadHandler l)

/-- REG_WRITE: an aligned 32-bit word written under the access types, the views and the role. -/
def execRegWrite (l : Letter) (s : State) : Host.Outcome State Fault Refusal := .next (s.serve 0x003 regWriteHandler l)

/-- REG_MODIFY: the masked bits of a word written; bytes 16-19 carry the old value. -/
def execRegModify (l : Letter) (s : State) : Host.Outcome State Fault Refusal := .next (s.serve 0x004 regModifyHandler l)

/-! ### The register writes with a row of their own -/

/-- The REG_WRITE letter of a row: its head, the register's address and the value. -/
def writeLetter (h : Head) (a v : Nat) : Letter := { toHead := h, payload := bytesLE 4 a ++ bytesLE 4 v }

/-- A REG_WRITE row served. -/
def State.writeRow (h : Head) (a : Nat) (v : Word) (s : State) : State := s.serve 0x003 regWriteHandler (writeLetter h a v.toNat)

/-- SYS_BGEN_WRITE: GEN_NEXT goes to the next-value record for the next module reset (R9, R10, R531). -/
def execSysBgenWrite (h : Head) (v : Word) (s : State) : Host.Outcome State Fault Refusal :=
  .next (s.writeRow h (0x14) v)

/-- SYS_TICK_WRITE: PERIOD_NEXT is checked and goes to the next-value record (R26, R531). -/
def execSysTickWrite (h : Head) (v : Word) (s : State) : Host.Outcome State Fault Refusal :=
  .next (s.writeRow h (0x20) v)

/-- LETTER_BUDGET_WRITE: BUDGET_NEXT goes to the next-value record; WINDOW takes effect (R73, R531). -/
def execLetterBudgetWrite (h : Head) (v : Word) (s : State) : Host.Outcome State Fault Refusal :=
  .next (s.writeRow h (0x10000) v)

/-- LETTER_SHARE_WRITE: refused if the sum of the shares would exceed the budget (R86). -/
def execLetterShareWrite (h : Head) (p : Fin 6) (v : Word) (s : State) : Host.Outcome State Fault Refusal :=
  .next (s.writeRow h (0x10010 + 4 * p.val) v)

/-- POSITION_HI_WRITE: both halves of a 64-bit pair come into force (R91); `lo` numbers the pairs that letters write. -/
def execPositionHiWrite (h : Head) (lo : Fin 18) (v : Word) (s : State) : Host.Outcome State Fault Refusal :=
  .next (s.writeRow h (pairAddrs.getD lo.val 0x20070 + 4) v)

/-- ENC_FAULT_CLEAR: a write of ENCk_STAT clears FAULT only if its cause is absent (R201). -/
def execEncFaultClear (h : Head) (k : Fin 3) (v : Word) (s : State) : Host.Outcome State Fault Refusal :=
  .next (s.writeRow h (0x40128 + 0x100 * k.val) v)

/-- SSI0_CONFIG_WRITE: SSI0_CFG or SSI0_TIMING, checked by R204 when it leaves EN set. -/
def execSsi0ConfigWrite (h : Head) (timing : Bool) (v : Word) (s : State) : Host.Outcome State Fault Refusal :=
  .next (s.writeRow h (0x40400 + 4 * b2n timing) v)

/-- SENSE_LAND_COUNT_WRITE: the landing-level table is copied and checked (R210). -/
def execSenseLandCountWrite (h : Head) (v : Word) (s : State) : Host.Outcome State Fault Refusal :=
  .next (s.writeRow h (0x40824) v)

/-- LOOP_BANK_WRITE: LOOPs_CTL.BANK switches the bank at the next sample (R158). -/
def execLoopBankWrite (h : Head) (i : Fin 16) (v : Word) (s : State) : Host.Outcome State Fault Refusal :=
  .next (s.writeRow h (slotBase i.val) v)

/-- COEF_WRITE: one coefficient, at once or through the queue, after the stability check (R164, R165). -/
def execCoefWrite (h : Head) (i : Fin 16) (b : Fin 2) (k : Fin 42) (v : Word) (s : State) : Host.Outcome State Fault Refusal :=
  .next (s.writeRow h (0x31000 + 0x200 * i.val + 0x100 * b.val + 4 * k.val) v)

/-- NOTCH_EN_WRITE: NOTCH_CFG, checked when EN changes (R167). -/
def execNotchEnWrite (h : Head) (v : Word) (s : State) : Host.Outcome State Fault Refusal :=
  .next (s.writeRow h (0x35000) v)

/-- HOIST_K_WRITE: the carrier factor is checked for validity and for OFF current slots (R172). -/
def execHoistKWrite (h : Head) (v : Word) (s : State) : Host.Outcome State Fault Refusal :=
  .next (s.writeRow h (0x34000) v)

/-- HOIST_TRIP_CLEAR: TRIP clears only while every current-rate slot is OFF (R180). -/
def execHoistTripClear (h : Head) (v : Word) (s : State) : Host.Outcome State Fault Refusal :=
  .next (s.writeRow h (0x34014) v)

/-- COG_ADDR_WRITE: a new cogging table, in effect at the next sample (R170). -/
def execCogAddrWrite (h : Head) (v : Word) (s : State) : Host.Outcome State Fault Refusal :=
  .next (s.writeRow h (0x36004) v)

/-- LOOP_MILL_WRITE: LOOPs_CTL.MILL assigns a mill injection unless an INJECT is active (R185). -/
def execLoopMillWrite (h : Head) (i : Fin 16) (v : Word) (s : State) : Host.Outcome State Fault Refusal :=
  .next (s.writeRow h (slotBase i.val) v)

/-- LOOP_CAPSEL_WRITE: a capture signal code is checked and selected, unless a capture runs (R188). -/
def execLoopCapselWrite (h : Head) (k : Fin 16) (v : Word) (s : State) : Host.Outcome State Fault Refusal :=
  .next (s.writeRow h (0x37000 + 4 * k.val) v)

/-- DOOR_FAULT_CLEAR: a write of DOOR_STAT clears FAULT only if its cause is absent (R257). -/
def execDoorFaultClear (h : Head) (v : Word) (s : State) : Host.Outcome State Fault Refusal :=
  .next (s.writeRow h (0x50000) v)

/-- DOOR_POSITION_WRITE: the high half of POS_CLOSED or POS_OPEN, checked for the travel range (R225). -/
def execDoorPositionWrite (h : Head) (opened : Bool) (v : Word) (s : State) : Host.Outcome State Fault Refusal :=
  .next (s.writeRow h (0x50024 + 8 * b2n opened) v)

/-- LOCK_CAUSE_CLEAR: a write of LOCK_STAT clears the latched causes named, if their conditions hold (R324). -/
def execLockCauseClear (h : Head) (v : Word) (s : State) : Host.Outcome State Fault Refusal :=
  .next (s.writeRow h (0x70000) v)

/-- LANE_TKSTOP_WRITE: a write of 0 clears cause TAKEOVER (R369). -/
def execLaneTkstopWrite (h : Head) (v : Word) (s : State) : Host.Outcome State Fault Refusal :=
  .next (s.writeRow h (0x8003C) v)

/-- MILL_FLAGS_CLEAR: a write of 1 clears sticky flags (R408). -/
def execMillFlagsClear (h : Head) (m : Fin 4) (v : Word) (s : State) : Host.Outcome State Fault Refusal :=
  .next (s.writeRow h (0x90004 + 0x100 * m.val) v)

/-- MILL_SIG_WRITE: a write of 1 raises SIG of a mill that executes (R413). -/
def execMillSigWrite (h : Head) (m : Fin 4) (v : Word) (s : State) : Host.Outcome State Fault Refusal :=
  .next (s.writeRow h (0x90010 + 0x100 * m.val) v)

/-- MILL_EVVEC_WRITE: the handler address of a mill that is not running (R424). -/
def execMillEvvecWrite (h : Head) (m : Fin 4) (v : Word) (s : State) : Host.Outcome State Fault Refusal :=
  .next (s.writeRow h (0x9000C + 0x100 * m.val) v)

/-- FIO_LINKOFF_CLEAR: a write of 1 clears LINKOFF once frames have resumed (R444). -/
def execFioLinkoffClear (h : Head) (v : Word) (s : State) : Host.Outcome State Fault Refusal :=
  .next (s.writeRow h (0xA0000) v)

/-- CAN_LOCK_WRITE: locks taken and released; a released lock takes in a full shadow (R463). -/
def execCanLockWrite (h : Head) (c : Fin 3) (w : Fin 8) (v : Word) (s : State) : Host.Outcome State Fault Refusal :=
  .next (s.writeRow h (canBase c.val + 0x20 + 4 * w.val) v)

/-- CAN_BIT_TIMING_WRITE: CANx_NBT or CANx_DBT, checked by R454. -/
def execCanBitTimingWrite (h : Head) (c : Fin 3) (data : Bool) (v : Word) (s : State) : Host.Outcome State Fault Refusal :=
  .next (s.writeRow h (canBase c.val + 8 + 4 * b2n data) v)

/-- GROUP_CFG_WRITE: GROUP_CFG or GROUP_TIMING, checked against R265 and the GROUP state (R266). -/
def execGroupCfgWrite (h : Head) (timing : Bool) (v : Word) (s : State) : Host.Outcome State Fault Refusal :=
  .next (s.writeRow h (0x60004 + 4 * b2n timing) v)

/-- SYS_KEYCTL_WRITE: the staged key is stored if its CRC matches; the staging is cleared (R534). -/
def execSysKeyctlWrite (h : Head) (v : Word) (s : State) : Host.Outcome State Fault Refusal :=
  .next (s.writeRow h (0x80) v)

/-- ENC_PWR_RESTORE: PWR_CFG with ENCPWR 0, then with ENCPWR 1, switches ENC_PWR on again after a fault (R505). -/
def execEncPwrRestore (h : Head) (v : Word) (s : State) : Host.Outcome State Fault Refusal :=
  .next (s.writeRow h (0xF0004) v)

end Sys2Proof.Machine
end

