-- ==== Sys2Proof/Machine/Letters.lean ====
section
/-! DEFINITION. The general and memory letters (R36, R71): NOP, IDENTIFY, TABLE_WRITE, TABLE_READ, TABLE_CHECK, TABLE_FILL, and
ABORT as it is served (R82, R83). -/
namespace Sys2Proof.Machine

/-! ### NOP and IDENTIFY -/

/-- NOP (R71). -/
def nopHandler : Handler := handler (fun _ _ => none) fun _ s => doneWith s

/-- NOP: does nothing and answers DONE. -/
def execNop (l : Letter) (s : State) : Host.Outcome State Fault Refusal := .next (s.serve 0x000 nopHandler l)

/-- The ordering code, 16 bytes (R71). -/
def orderingCode : List Byte := [0x4C, 0x56, 0x47, 0x36, 0x33, 0x2D, 0x46, 0x41, 0x31, 0, 0, 0, 0, 0, 0, 0]

/-- The firmware version of a bank as IDENTIFY gives it: 0 for a section without a header. -/
def State.bankVersion (s : State) (b : Fin 2) : Nat :=
  match s.flash.fw[b].header with
  | some i => i.version
  | none => 0

/-- The tail of IDENTIFY (R71). -/
def State.identity (s : State) : List Byte :=
  orderingCode ++ [BitVec.ofNat 8 s.sys.gen, s.sys.role.setWidth 8, BitVec.ofNat 8 s.flash.lc, BitVec.ofNat 8 s.pwr.bank.val] ++
    bytesLE 4 (s.bankVersion 0) ++ bytesLE 4 (s.bankVersion 1) ++ bytesLE 4 0

/-- IDENTIFY (R71). -/
def identifyHandler : Handler := handler (fun _ _ => none) fun _ s => (.done 0 s.identity, s)

/-- IDENTIFY: ordering code, generation, role, life-cycle state, bank and firmware versions as a tail. -/
def execIdentify (l : Letter) (s : State) : Host.Outcome State Fault Refusal := .next (s.serve 0x001 identifyHandler l)

/-! ### Memory (R33, R36, R38, R39) -/

/-- A range of memory read by a letter: the bytes, or the uncorrectable word (R37, R38). -/
def State.readMem (a n : Nat) (s : State) : Except (Nat × State) (List Byte × State) :=
  let e := s.eccRead a n
  match e.1 with
  | some w => .error (w, e.2.groupWordBad w)
  | none => .ok (e.2.bytesAt a n, e.2)

/-- A letter may read a range: all of shared SRAM but the CAN message RAM (R457), and mill memory. -/
def readableRange (a n : Nat) : Bool := memRange a n && !touchesCan a n

/-- The argument check of TABLE_READ and TABLE_CHECK, with the largest count (R71, R457). -/
def readBad (most : Nat) (p : List Byte) : Option Nat :=
  lowestBad p [] [(0, !readableRange (u32 p 0) (u32 p 4)), (4, decide (u32 p 4 = 0 ∨ most < u32 p 4))]

/-- TABLE_READ (R71). -/
def tableReadHandler : Handler :=
  handler (fun _ p => readBad 4072 p) fun l s =>
    match s.readMem (u32 l.payload 0) (u32 l.payload 4) with
    | .error (w, s) => refuseWith .failed 1 w s
    | .ok (b, s) => (.done 0 b, s)

/-- TABLE_READ: n bytes of memory as a tail. -/
def execTableRead (l : Letter) (s : State) : Host.Outcome State Fault Refusal := .next (s.serve 0x021 tableReadHandler l)

/-- TABLE_CHECK (R71). -/
def tableCheckHandler : Handler :=
  handler (fun _ p => readBad 65536 p) fun l s =>
    match s.readMem (u32 l.payload 0) (u32 l.payload 4) with
    | .error (w, s) => refuseWith .failed 1 w s
    | .ok (b, s) => (.done (crc32c b) [], s)

/-- TABLE_CHECK: the CRC-32C of n bytes of memory in bytes 16-19. -/
def execTableCheck (l : Letter) (s : State) : Host.Outcome State Fault Refusal := .next (s.serve 0x022 tableCheckHandler l)

/-- The words that a write of `a … a + n − 1` covers in part. -/
def partWord (a n w : Nat) : Bool := touches a n w && !decide (a ≤ w ∧ w + 8 ≤ a + n)

/-- Bytes written by a table letter: refused in use (R101, R170, R187, R385) or for an uncorrectable word written in part (R39). -/
def State.writeMem (a : Nat) (bs : List Byte) (s : State) : Reply × State :=
  let n := bs.length
  if n = 0 then doneWith s
  else match s.firstUsed a n with
    | some x => refuseWith .wrongState 0x0A x s
    | none =>
      if s.progInUse a n then refuse .wrongState 0x91 s
      else match s.eccPartial a n with
        | some w => refuseWith .failed 1 w (s.eccFound w)
        | none => doneWith (((s.mem.soft.filter (partWord a n)).foldl (fun s w => s.eccCorrect w) s).storeBytes a bs)

/-- A range that a table letter may write from `a` (R36); the address check of a count of 0 is that of one byte. -/
def tableTarget (a n : Nat) : Bool := writable a (max n 1)

/-- TABLE_WRITE (R36, R39, R71). -/
def tableWriteHandler : Handler :=
  handler (fun _ p => lowestBad p [] [(0, decide (u32 p 0 % 8 ≠ 0) || !tableTarget (u32 p 0) (u32 p 4))])
    fun l s => s.writeMem (u32 l.payload 0) (slice l.payload 8 (u32 l.payload 4))

/-- TABLE_WRITE: n bytes written to table space or mill memory. -/
def execTableWrite (l : Letter) (s : State) : Host.Outcome State Fault Refusal := .next (s.serve 0x020 tableWriteHandler l)

/-- `k` copies of a 32-bit pattern. -/
def fillBytes (v : Nat) : Nat → List Byte
  | 0 => []
  | k + 1 => bytesLE 4 v ++ fillBytes v k

/-- TABLE_FILL (R36, R39, R71). -/
def tableFillHandler : Handler :=
  handler (fun _ p => lowestBad p [] [(0, decide (u32 p 0 % 4 ≠ 0) || !tableTarget (u32 p 0) (u32 p 4)),
      (4, decide (u32 p 4 % 4 ≠ 0 ∨ 65536 < u32 p 4))])
    fun l s => s.writeMem (u32 l.payload 0) (fillBytes (u32 l.payload 8) (u32 l.payload 4 / 4))

/-- TABLE_FILL: n bytes filled with a 32-bit pattern. -/
def execTableFill (l : Letter) (s : State) : Host.Outcome State Fault Refusal := .next (s.serve 0x023 tableFillHandler l)

/-! ### ABORT (R82, R83) -/

/-- The outstanding action that an ABORT addresses. -/
def State.abortTarget (s : State) (port : Nat) (seq : BitVec 16) : Option Outst :=
  s.lb.outst.find? fun o => o.port.val = port && o.seq = seq

/-- The finished letter that an ABORT addresses: the latest with that sequence number (R82). -/
def State.abortFinished (s : State) (port : Nat) (seq : BitVec 16) : Option Finished :=
  s.lb.finished.reverse.find? fun f => f.port.val = port && f.seq = seq

/-- A decided final receipt that still waits for the lane addresses a letter that has ended. -/
def State.abortDeferred (s : State) (port : Nat) (seq : BitVec 16) : Option Deferred :=
  s.lb.deferred.reverse.find? fun d => d.out.port.val = port && d.out.seq = seq

/-- The refusal of an ABORT (R82). -/
def State.abortRefused (l : Letter) (s : State) : Option (Status × Nat) :=
  let t := u16 l.payload 0
  let q := BitVec.ofNat 16 (u16 l.payload 2)
  if 5 < t then some (.badArg, 0)
  else if l.cls.val ≠ 3 ∧ t ≠ l.port.val then some (.notPrivileged, 2)
  else if (s.abortTarget t q).isNone && (s.abortFinished t q).isNone && (s.abortDeferred t q).isNone then some (.badArg, 0)
  else none

/-- ABORT as it is served (R82, R83): whatever it will answer, it answers at the tick instant. -/
def abortHandler : Handler := handler (fun _ _ => none) fun l s => (.later (s.abortRefused l), s)

/-- ABORT: addresses an action by port and sequence number, to be halted at the end of the tick. -/
def execAbort (l : Letter) (s : State) : Host.Outcome State Fault Refusal := .next (s.serve 0x0F0 abortHandler l)

end Sys2Proof.Machine
end

