-- ==== Sys2Proof/Machine/Abort.lean ====
section
/-! DEFINITION. ABORT at its tick instant (R83-R85): what halting means for each two-stage action, completion at the same tick,
and the receipts. -/
namespace Sys2Proof.Machine

/-- A DOOR_OPEN or DOOR_CLOSE halted (R255): a ramp stop of the door unit, STOPPED, no automatic close. -/
def State.haltDoor (s : State) : State :=
  let u := s.doorUnit
  let s := if s.moving u then s.orderStop u false .door else s
  (s.setDoor { s.door with close := none, next := none, openAt := none, holdAt := none, hold := 0 }).doorTo 10

/-- The rescue is halted: a MOVE_TRAP still on port 5 is dropped, unit 0 makes a ramp stop, the limits return (R521). -/
def State.haltRescue (s : State) : State :=
  let keep (q : Queued) : Bool := !(q.letter.port.val = 5 && q.opc = 0x031)
  let s := { s with lb := { s.lb with queue := s.lb.queue.filter keep, held5 := s.lb.held5.filter keep } }
  let s := if s.moving 0 then s.orderStop 0 false .abort else s
  match s.pwr.rescue with
  | some r => (s.setPwr { s.pwr with rescue := none, rescueStat := 3 }).post5 0x034 1 (limitsPayload r.prev)
  | none => s

/-- A GROUP_LEAVE halted before its last slot: the station stays a member (notes/assumptions/37.md). -/
def GroupSt.unleave (g : GroupSt) : GroupSt :=
  if g.state = 6 ∧ g.lastSent = false then { g with state := if g.mute then 3 else 4, gt := { g.gt with state := 1 } } else g

/-- An action halted (R84, and each block's chapter): bytes 16-19 of its ABORTED receipt, and the state. -/
def State.haltAction (a : Action) (s : State) : Nat × State :=
  match a with
  | .move u => (0, ((s.setRamp u { s.ramp[u] with used := [] }).untail u).orderStop u false .abort)
  | .home u => (0, s.orderStop u false .abort)
  | .tail u => (0, s.setRamp u { s.ramp[u] with tail := none })
  | .stop _ => (0, s)
  | .doorOpen => (0, s.haltDoor)
  | .doorClose => (0, s.haltDoor)
  | .doorStop => (0, s)
  | .inject i => (0, s.setSlot i { s.loop.slots[i] with inj := none })
  | .capture => (s.loop.capRecs, { s with loop := { s.loop with cap := none } })
  | .groupJoin => (0, s.setGroup s.group.left)
  | .groupLeave => (0, s.setGroup s.group.unleave)
  | .lockCommit => (0, s.setLock { s.lock with commit := none })
  | .lockTest1 => (0, s)
  | .lockTest2 => (0, (s.setLock { s.lock with stoTest := none }).gateStep)
  | .watchChange => (0, s.setLane { s.lane with watchGo := false })
  | .canTx c b => s.abortTx c b
  | .linkStart => (0, s.linkOff)
  | .linkStop => (0, s.setLink { s.link with stopReq := false })
  | .rescue => (0, s.haltRescue)
  | .configSave => (0, { s with flash := { s.flash with saving := none } })
  | .imageVerify => (0, { s with flash := { s.flash with verifying := none } })
  | .lcTransition => (0, { s with flash := { s.flash with lcTarget := none } })

/-- What ends the action at this very tick in place of the ABORT: a completion (R83, R121, R259), a withdrawn permit (R120), the
stage switched off (R253). -/
def State.endsAtTick (s : State) (a : Action) : Option Status :=
  let lost (u : Fin 4) : Bool := !s.permit (s.fld (rampBase u + 4) 4 4)
  match a with
  | .move u => if lost u then some .failed else if s.endsNow u then some .done else none
  | .home u => if lost u then some .failed else if s.endsNow u then some .done else none
  | .tail u =>
    match s.ramp[u].motion, s.ramp[u].tail with
    | .run x, some t => if x.nextIdx = some t.f ∧ s.ramp[u].stopReq.isNone ∧ lost u = false then some .done else none
    | _, _ => none
  | .doorOpen =>
    if s.door.on && !s.stageOk then some .failed
    else if s.opensNow then some .done else none
  | .doorClose => if s.door.on && !s.stageOk then some .failed else if s.closesNow then some .done else none
  | _ => none

/-- The receipt of an ABORT, decided now and sent when the lane serves (R83, R361, R367). -/
def State.abortReceipt (q : AbortReq) (st : Status) (detail further : Nat) (pm : Postmark) (s : State) : State :=
  let s := if 2 ≤ st.code ∧ st.code ≤ 8 then s.deadLetter q.port st.code else s
  let d : Deferred := { out := { act := .capture, port := q.port, seq := q.seq, op16 := q.op16, quiet := false, hdr := q.hdr,
                                 src := q.src, gap := false },
                        status := st, detail := detail, further := word further, pm := pm }
  if s.serving && decide (s.lane.jtick < 256) then s.finalReceipt d
  else { s with lb := { s.lb with deferred := s.lb.deferred ++ [d] } }

/-- One ABORT takes effect (R82-R85). -/
def State.abortOne (q : AbortReq) (s : State) : State :=
  match q.refusal with
  | some (st, d) => s.abortReceipt q st d 0 q.pm
  | none =>
    match s.abortTarget q.tport q.tseq with
    | some o =>
      (match s.endsAtTick o.act with
       | some st => s.abortReceipt q .abortLate 0 st.code s.now
       | none =>
         let r := s.haltAction o.act
         (r.2.completeIf (fun x => if o.act = .lockTest1 then x = o else x.act = o.act) s.now .aborted 0
           r.1).abortReceipt q .aborted 0 0 s.now)
    | none =>
      match s.abortDeferred q.tport q.tseq with
      | some d => s.abortReceipt q .abortLate 0 d.status.code d.pm
      | none =>
        match s.abortFinished q.tport q.tseq with
        | some f => s.abortReceipt q .abortLate 0 f.status.code f.pm
        | none => s.abortReceipt q .badArg 0 0 q.pm

/-- ABORT_TAKES_EFFECT: at the tick instant that ends the tick of service, before anything else of that instant, every ABORT
served in the tick takes effect, in the order of service. -/
def execAbortTakesEffect (dt : Nat) (s : State) : Host.Outcome State Fault Refusal :=
  let s := s.advance dt
  if !s.tickDue then .next s
  else .next (s.lb.aborts.foldl (fun s q => s.abortOne q) { s with lb := { s.lb with aborts := [] } })

end Sys2Proof.Machine
end

