-- ==== Sys2Proof/Machine/DoorStage.lean ====
section
/-! DEFINITION. The door modulator on the control die (R226-R232, R244, R256) and the legacy step input (R233, R234). -/
namespace Sys2Proof.Machine

/-- V_DOOR in mV, taken as at least 18 V (R226). -/
def State.vDoor (s : State) : Nat := max 18000 s.door.vdoor

/-- Duties that leave every switch open. -/
def openDuty : Vector (Option Int) 4 := Vector.replicate 4 none

/-- A scaled duty as Q1.30, held between 0 and 1. -/
def dutyQ (d : Int) : Option Int := some (roundAway (clamp 0 fx d * 2 ^ 30) fx)

/-! ### The Hall sector and θ_e (R228) -/

/-- The lower bound of Hall sector `k` in 2^-64 revolutions: (k − 1) × 60° + HOFS. -/
def State.sectorLow (s : State) (k : Nat) : Int := ((k : Int) - 1) * 2 ^ 64 / 6 + (s.fld 0x50058 0 16 : Int) * 2 ^ 48

/-- The upper bound of Hall sector `k`. -/
def State.sectorHigh (s : State) (k : Nat) : Int := (k : Int) * 2 ^ 64 / 6 + (s.fld 0x50058 0 16 : Int) * 2 ^ 48

/-- The ENC2 position at a modulator update. -/
def State.doorEncPos (s : State) : Int := s.encPos 2 s.sense.cnt[2]

/-- The Hall transition that an update shows (R228): in MODE 4 the first one fixes the origin, in MODE 3 the last one counts. -/
def State.hallStep (s : State) : State :=
  let k := s.sense.hall
  let d := s.door
  if k = 0 ∨ k = 7 ∨ k = d.sector then s
  else
    let up := k = d.sector % 6 + 1
    let down := d.sector = k % 6 + 1
    let keep := s.encMode 2 = 4 && d.trans.isSome
    let t := if d.sector = 0 ∨ keep ∨ ¬(up ∨ down) then d.trans
      else some (if up then s.sectorLow k else s.sectorHigh k, s.doorEncPos, s.now)
    s.setDoor { d with sector := k, trans := t }

/-- θ_e in 2^-64 revolutions, not reduced. -/
def State.thetaE (s : State) : Int :=
  let p : Int := s.reg 0x50050
  match s.door.trans with
  | none => (s.sectorLow s.door.sector + s.sectorHigh s.door.sector) / 2
  | some (a, q, t) =>
    if p = 0 then a
    else if s.encMode 2 = 4 then a + (s.doorEncPos - q) * 2 ^ 64 / p
    else clamp (s.sectorLow s.door.sector) (s.sectorHigh s.door.sector)
      -- v × elapsed time / PITCH, the elapsed time in 12.5 ns
      (a + s.sense.spd[5] * (s.now - t : Nat) * 2 ^ 64 / (p * 80000000))

/-- i_q of the measured phase currents in mA, transformed with θ_e (R246, R174). -/
def torqueCurrent (cur : Vector Int 3) (theta : Int) : Int :=
  let al : Int := (2 * cur[0] - cur[1] - cur[2]) * fx / 3
  let be : Int := (cur[1] - cur[2]) * fx * fx / sqrt3Fx
  roundAway (mulFx be (cosFx (radFx theta (2 ^ 64))) - mulFx al (sinFx (radFx theta (2 ^ 64)))) fx

/-! ### The voltages (R227, R229, R230, R232) -/

/-- i* in mA with 30 fraction bits, after the clamps of R244, R247 and R250. -/
def State.doorDemand (s : State) : Int :=
  match s.destSlot 5 with
  | some i => (s.doorClamp (s.released i * s.reg 0x50054)).i
  | none => 0

/-- R · i + K_E · v in nV, scaled: `i` in mA with 30 fraction bits, `v` in µm/s. -/
def State.doorVolts (s : State) (i v : Int) : Int :=
  (s.reg 0x50044 : Int) * i * 1000 * fx / 2 ^ 30 + (s.reg 0x5004C : Int) * v * fx

/-- Mode 1: the torque demand made into the duties of H1-H3 (R227). -/
def State.brushless (x : DoorIn) (s : State) : State :=
  let s := s.hallStep
  let th := s.thetaE
  let v := s.sense.spd[5]
  let p : Int := s.reg 0x50050
  let i := s.doorDemand
  let iq := torqueCurrent x.cur th
  let uq := s.doorVolts i v
  let ud : Int := if p = 0 then 0 else -(2 * (piFx : Int) * v * s.reg 0x50048 * i / (p * 2 ^ 30))
  -- advanced by ω_e × 12 µs (R226)
  let ta := if p = 0 then th else th + v * 12 * 2 ^ 64 / (p * 1000000)
  let vd : Int := (s.vDoor : Int) * 1000000
  let m := limitVector (mulFx ud sqrt3Fx / vd) (mulFx uq sqrt3Fx / vd)
  let c := cosFx (radFx ta (2 ^ 64))
  let n := sinFx (radFx ta (2 ^ 64))
  let d := duties (mulFx m.1 c - mulFx m.2.1 n) (mulFx m.1 n + mulFx m.2.1 c)
  s.setDoor { s.door with duty := #v[dutyQ d[0], dutyQ d[1], dutyQ d[2], none], vlimit := m.2.2,
                          iqSum := s.door.iqSum + iq, iqCnt := s.door.iqCnt + 1 }

/-- The two duties of a phase at voltage `u` in nV, scaled (R229, R230). -/
def State.bridge (s : State) (u : Int) : Option Int × Option Int :=
  let r := u / (2 * (s.vDoor : Int) * 1000000)
  (dutyQ ((fx / 2 : Nat) + r), dutyQ ((fx / 2 : Nat) - r))

/-- Mode 3: the duties of H1 and H2 (R229). -/
def State.brushed (s : State) : State :=
  let u := s.doorVolts s.doorDemand s.sense.spd[5]
  let lim : Int := (s.vDoor : Int) * 1000000 * fx
  let b := s.bridge (clamp (-lim) lim u)
  s.setDoor { s.door with duty := #v[b.1, b.2, none, none], vlimit := decide (lim < u.natAbs) }

/-- The current amplitude of modes 2 and 4 in mA (R230, R254): I_RUN while the commanded speed is not 0, for HOLD_DELAY
after it, and after DOOR_STOP. -/
def State.stepAmps (s : State) : Nat :=
  let delay := bitsAt (if s.door.mode = 4 then s.reg 0x50038 else s.door.use.seq) 8 8
  let after := match s.door.zeroAt with
    | none => false
    | some t => decide (s.now < t + delay * 800000)
  if s.door.moves || after || s.door.freezeAt.isSome then s.fld 0x5005C 0 16 else s.fld 0x5005C 16 16

/-- Modes 2 and 4: the duties of both phases at microstep count `n` and commanded speed `v` in µm/s (R230, R232). -/
def State.stepperDuty (v : Int) (s : State) : State :=
  let p : Int := s.reg 0x50050
  let i : Int := s.stepAmps
  let th := radFx s.door.n 1024
  let c := cosFx th
  let n := sinFx th
  let ri : Int := (s.reg 0x50044 : Int) * i * 1000 * fx
  -- ω · L · I + K_E · v in nV
  let wl : Int := (if p = 0 then 0 else (piFx : Int) * v * 128 * s.reg 0x50048 * i / p) + (s.reg 0x5004C : Int) * v * fx
  let ua := mulFx ri c - mulFx wl n
  let ub := mulFx ri n + mulFx wl c
  let big : Int := max ua.natAbs ub.natAbs
  let lim : Int := (s.vDoor : Int) * 1000000 * fx
  let overBy := decide (lim < big)
  let f (u : Int) : Int := if overBy then u * lim / big else u
  let a := s.bridge (f ua)
  let b := s.bridge (f ub)
  s.setDoor { s.door with duty := #v[a.1, a.2, b.1, b.2], vlimit := overBy }

/-- Mode 2: the microstep count between two ticks (R231); it does not advance in the opening direction while the open permit
is withdrawn (R244). -/
def State.stepperCount (s : State) : State :=
  let d := s.door
  let tau := min (s.now - s.sys.tickAt) s.tickLen
  let n := d.nk1 + roundAway ((d.nk - d.nk1) * tau) s.tickLen
  s.setDoor { d with n := if !s.openPermit && decide (d.n < n) then d.n else n }

/-- Δ of the legacy input: 256 >> DIV (R233). -/
def State.legacyDelta (s : State) : Nat := 256 >>> s.fld 0x50008 8 4

/-- Mode 4: the count follows the target (R234); n is carried with 32 fraction bits. -/
def State.legacyCount (s : State) : State :=
  let d := s.door
  let t := d.target * 2 ^ 32
  let nFx : Int :=
    if s.fld 0x50008 12 1 = 0 then t
    else match d.stepTs with
    | none => t
    | some ts =>
      let delta : Int := s.legacyDelta
      let adv : Int := if ts = 0 then 2 ^ 80 else delta * 640 * 2 ^ 32 / (ts : Int)
      let n := d.nFx + clamp (-adv) adv (t - d.nFx)
      if 2 * delta * 2 ^ 32 < (t - n).natAbs then t - delta * 2 ^ 32 * (if t < n then -1 else 1) else n
  s.setDoor { d with nFx := nFx, n := nFx / 2 ^ 32 }

/-- The commanded speed of mode 4 in µm/s (R234). -/
def State.legacySpeed (s : State) : Int :=
  let d := s.door
  match d.stepTs with
  | none => 0
  | some ts =>
    if ts ≠ 0 ∧ s.legacyMoving then
      let v : Int := (s.legacyDelta * s.reg 0x50050 * 80000000 : Nat) / (256 * ts : Nat)
      if d.stepUp then v else -v
    else 0

/-- Whether the commanded speed is not zero, and the instant at which it became zero. -/
def State.legacyZero (v : Int) (s : State) : State :=
  s.setDoor { s.door with moves := decide (v ≠ 0), zeroAt := if s.door.moves ∧ v = 0 then some s.now else s.door.zeroAt }

/-- The I²t sum over a millisecond of 125 updates: B + max phase I_rms² − 36 A², not below 0, in mA²·ms (R256). -/
def State.doorHeat (x : DoorIn) (s : State) : State :=
  let d := s.door
  let sq := Vector.ofFn fun k : Fin 3 => d.sq[k] + x.cur[k].natAbs ^ 2
  if d.sqCnt + 1 < 125 then s.setDoor { d with sq := sq, sqCnt := d.sqCnt + 1 }
  else
    let top := max sq[0] (max sq[1] sq[2]) / 125
    s.setDoor { d with sq := Vector.replicate 3 0, sqCnt := 0, i2t := d.i2t + top - 36000000 }

/-- The modulation of a stage that is on. -/
def State.doorModulate (x : DoorIn) (s : State) : State :=
  match s.door.mode with
  | 1 => s.brushless x
  | 2 =>
    let s := s.stepperCount
    s.stepperDuty s.ramp[s.doorUnit].spVel
  | 3 => s.brushed
  | 4 =>
    let v := s.legacySpeed
    (s.legacyZero v).stepperDuty v
  | _ => s

/-- DOOR_MODULATOR_UPDATE: every 8 µs the duties of H1-H4 are computed for a field-link frame (R226); the legacy count
advances whether or not the stage is on (R234), and the Hall sector is followed, so that the first transition after the stage
is switched on is one that is seen (R228). -/
def execDoorModulatorUpdate (dt : Nat) (x : DoorIn) (s : State) : Host.Outcome State Fault Refusal :=
  let s := s.advance dt
  if s.inReset then .next s else
  if !s.carStation then .next s else
  let s := s.encRun 2 x.enc
  let s := s.setDoor { s.door with vdoor := x.vdoor, temp := x.temp }
  let s := s.doorHeat x
  let s := if s.door.mode = 4 then s.legacyCount else s
  .next (if s.door.on then s.doorModulate x
    else s.setDoor { s.door with duty := openDuty, vlimit := false,
                                 sector := if 1 ≤ s.sense.hall ∧ s.sense.hall ≤ 6 then s.sense.hall else s.door.sector })

/-- LEGACY_STEP: an edge of STEPIN, with DIRIN in the same sample. One of the
polarity of DOOR_LEGACY.EDGE is a step of mode 4 and moves the target by Δ, opening when DIRIN is as DIRPOL names it (R233); its
interval since the previous step is its rate unless it exceeds 50 ms or the direction reverses (R234). Ignored after DOOR_STOP
(R254). -/
def execLegacyStep (dt : Nat) (x : LegacyIn) (s : State) : Host.Outcome State Fault Refusal :=
  let s := s.advance dt
  if s.inReset then .next s else
  if !s.carStation || s.door.mode ≠ 4 || s.door.stepIgnore || x.stepActive != decide (s.fld 0x50008 13 1 = 0) then .next s else
  let d := s.door
  let up := x.dirActive != decide (s.fld 0x50008 14 1 = 1)
  let delta : Int := s.legacyDelta
  let ts := match d.stepAt with
    | some t => if s.now ≤ t + 4000000 ∧ up = d.stepUp then some (s.now - t) else none
    | none => none
  .next (s.setDoor { d with target := if up then d.target + delta else d.target - delta, stepAt := some s.now, stepUp := up,
                            stepTs := ts })

end Sys2Proof.Machine
end

