-- ==== Sys2Proof/Machine/MillIsa.lean ====
section
/-! DEFINITION. The mill instructions (R405-R420), one meaning for each: what the instruction at the program counter does when
it issues. -/
namespace Sys2Proof.Machine

/-! ### Shared effects -/

/-- The meaning of a mill row. -/
def State.mill1 (m : Fin 4) (stall : Nat) (pick : MillOp → Option (State → MillOut)) (s : State) : Host.Outcome State Fault Refusal :=
  .next (s.millRow m stall pick)

/-- A data register is written. -/
def regOut (d : Fin 16) (w : Word) (s : State) : MillOut := .seq ⟨some (d, w), none, none⟩ s

/-- A data result with the flags of R405: Z and N from the written value, V from the true result, which sets DOVF. -/
def aluOut (m : Fin 4) (d : Option (Fin 16)) (sat : Bool) (x : Int) (c : Bool) (s : State) : MillOut :=
  let r := dataResult sat x
  let f : MFlags := { z := r.1 = 0, n := r.1.msb, v := r.2, c := c }
  .seq ⟨d.map (·, r.1), some f, none⟩ (s.millStickyIf r.2 m 3 0)

/-- A result that sets C and V, and of whose Z and N the spec says nothing: free values (notes/assumptions/34.md). -/
def logicOut (d : Fin 16) (w : Word) (c : Bool) (s : State) : MillOut :=
  let z := s.freeBool
  let n := z.2.freeBool
  .seq ⟨some (d, w), some { z := z.1, n := n.1, v := false, c := c }, none⟩ n.2

/-- The carry out of bit 31 of a sum. -/
def carryOf (a b : Word) : Bool := decide (2 ^ 32 ≤ a.toNat + b.toNat)

/-- The pointer of an address register after an access, and CFOLD (R401, R402). -/
def State.millPointer (m : Fin 4) (n : Fin 8) (p : Nat) (fold : Bool) (s : State) : State :=
  (s.setMill m { s.mill.mill[m] with ptr := (s.mill.mill[m]).ptr.set n p }).millStickyIf fold m 2 n.val

/-- A load. -/
def loadOut (m : Fin 4) (d : Fin 16) (y : Bool) (w : Nat) (s : State) : MillOut :=
  match s.millLoad m y w with
  | .error (c, a, t) => .trap c a t
  | .ok (v, t) => regOut d v t

/-- A store of a data register as stage E reads it. -/
def storeOut (m : Fin 4) (d : Fin 16) (y : Bool) (w : Nat) (s : State) : MillOut :=
  match s.millStore m y w ((s.mill.mill[m]).data[d]) with
  | .error (c, a, t) => .trap c a t
  | .ok (old, t) => .seq ⟨none, none, some (y, w, old)⟩ t

/-- An access through an address register: the access at the effective address, then the pointer. -/
def eaOut (m : Fin 4) (y : Bool) (e : MillEa) (f : Nat → State → MillOut) (s : State) : MillOut :=
  match (s.mill.mill[m]).genEa y e with
  | .error (c, a) => .trap c a s
  | .ok (w, p, fold) =>
    match f w s with
    | .seq x t => .seq x (t.millPointer m e.n p fold)
    | o => o

/-- An accumulator result (R406): ACCV, GUARD. -/
def accOut (m : Fin 4) (ac : Fin 4) (sat : Bool) (x : Int) (s : State) : MillOut :=
  let r := accResult sat x
  let s := s.setMill m ((s.mill.mill[m]).putAcc ac r.1)
  .seq noWrite ((s.millStickyIf r.2 m 0 0).millStickyIf (guardUsed r.1) m 1 0)

/-- The X operand is generated and read, then the Y operand (R404); the accumulator changes by their product. -/
def dualOut (m : Fin 4) (ac : Fin 4) (sat : Bool) (neg : Bool) (x y : MillEa) (s : State) : MillOut :=
  let q := s.mill.mill[m]
  match q.genEa false x with
  | .error (c, a) => .trap c a s
  | .ok (wx, px, fx) =>
    match ({ q with ptr := q.ptr.set x.n px }).genEa true y with
    | .error (c, a) => .trap c a s
    | .ok (wy, py, fy) =>
      match s.millLoad m false wx with
      | .error (c, a, t) => .trap c a t
      | .ok (vx, t) =>
        match t.millLoad m true wy with
        | .error (c, a, t) => .trap c a t
        | .ok (vy, t) =>
          let p := vx.toInt * vy.toInt
          let acc := q.accs[ac]
          let t := (t.millPointer m x.n px fx).millPointer m y.n py fy
          accOut m ac sat (if neg then acc - p else acc + p) t

/-- A condition holds for the flags (R419). -/
def condHolds (c : Nat) (f : MFlags) : Bool :=
  match c with
  | 0 => true
  | 1 => f.z
  | 2 => !f.z
  | 3 => f.n != f.v
  | 4 => f.n == f.v
  | 5 => !f.z && f.n == f.v
  | 6 => f.z || f.n != f.v
  | 7 => f.v
  | 8 => !f.v
  | 9 => f.c
  | _ => !f.c

/-! ### Control and moves -/

/-- MILL_NOP: does nothing. -/
def execMillNop (m : Fin 4) (stall : Nat) (s : State) : Host.Outcome State Fault Refusal :=
  s.mill1 m stall fun o => match o with | .nop => some (.seq noWrite) | _ => none

/-- MILL_HALT: ends the run (R397). -/
def execMillHalt (m : Fin 4) (stall : Nat) (s : State) : Host.Outcome State Fault Refusal :=
  s.mill1 m stall fun o => match o with | .halt => some .halt | _ => none

/-- MILL_MOV: d := a. -/
def execMillMov (m : Fin 4) (stall : Nat) (s : State) : Host.Outcome State Fault Refusal :=
  s.mill1 m stall fun o => match o with | .mov d a => some (fun t => regOut d (t.mill.mill[m]).data[a] t) | _ => none

/-- MILL_MOVI: d := imm16, sign-extended. -/
def execMillMovi (m : Fin 4) (stall : Nat) (s : State) : Host.Outcome State Fault Refusal :=
  s.mill1 m stall fun o => match o with | .movi d i => some (regOut d (i.signExtend 32)) | _ => none

/-- MILL_MOVU: d := imm16, zero-extended. -/
def execMillMovu (m : Fin 4) (stall : Nat) (s : State) : Host.Outcome State Fault Refusal :=
  s.mill1 m stall fun o => match o with | .movu d i => some (regOut d (i.setWidth 32)) | _ => none

/-- MILL_MOVL: d := imm32. -/
def execMillMovl (m : Fin 4) (stall : Nat) (s : State) : Host.Outcome State Fault Refusal :=
  s.mill1 m stall fun o => match o with | .movl d i => some (regOut d i) | _ => none

/-- MILL_MOVAD: d := the pointer of An, zero-extended. -/
def execMillMovad (m : Fin 4) (stall : Nat) (s : State) : Host.Outcome State Fault Refusal :=
  s.mill1 m stall fun o => match o with | .movad d n => some (fun t => regOut d (word (t.mill.mill[m]).ptr[n]) t) | _ => none

/-- MILL_MOVDA: the pointer of An := a[15:0], as stage A reads it. -/
def execMillMovda (m : Fin 4) (stall : Nat) (s : State) : Host.Outcome State Fault Refusal :=
  s.mill1 m stall fun o => match o with
    | .movda n a => some (fun t =>
        let q := t.mill.mill[m]
        .seq noWrite (t.setMill m { q with ptr := q.ptr.set n (q.dA[a].toNat % 65536) }))
    | _ => none

/-- MILL_MOVAI: the pointer of An := imm16. -/
def execMillMovai (m : Fin 4) (stall : Nat) (s : State) : Host.Outcome State Fault Refusal :=
  s.mill1 m stall fun o => match o with
    | .movai n i => some (fun t => .seq noWrite (t.setMill m { t.mill.mill[m] with ptr := (t.mill.mill[m]).ptr.set n i.toNat }))
    | _ => none

/-- MILL_SETB: BASEn := imm16. -/
def execMillSetb (m : Fin 4) (stall : Nat) (s : State) : Host.Outcome State Fault Refusal :=
  s.mill1 m stall fun o => match o with
    | .setb n i => some (fun t => .seq noWrite (t.setMill m { t.mill.mill[m] with base := (t.mill.mill[m]).base.set n i.toNat }))
    | _ => none

/-- MILL_SETL: LENn := imm16. -/
def execMillSetl (m : Fin 4) (stall : Nat) (s : State) : Host.Outcome State Fault Refusal :=
  s.mill1 m stall fun o => match o with
    | .setl n i => some (fun t => .seq noWrite (t.setMill m { t.mill.mill[m] with len := (t.mill.mill[m]).len.set n i.toNat }))
    | _ => none

/-! ### Data arithmetic (R405) -/

/-- MILL_ADD: d := a + b. -/
def execMillAdd (m : Fin 4) (stall : Nat) (s : State) : Host.Outcome State Fault Refusal :=
  s.mill1 m stall fun o => match o with
    | .add sat d a b => some (fun t =>
        let q := t.mill.mill[m]
        aluOut m (some d) sat (q.int a + q.int b) (carryOf q.data[a] q.data[b]) t)
    | _ => none

/-- MILL_SUB: d := a − b. -/
def execMillSub (m : Fin 4) (stall : Nat) (s : State) : Host.Outcome State Fault Refusal :=
  s.mill1 m stall fun o => match o with
    | .sub sat d a b => some (fun t =>
        let q := t.mill.mill[m]
        aluOut m (some d) sat (q.int a - q.int b) (decide (q.data[b].toNat ≤ q.data[a].toNat)) t)
    | _ => none

/-- MILL_NEG: d := −a. -/
def execMillNeg (m : Fin 4) (stall : Nat) (s : State) : Host.Outcome State Fault Refusal :=
  s.mill1 m stall fun o => match o with
    | .neg sat d a => some (fun t => aluOut m (some d) sat (-(t.mill.mill[m]).int a) false t)
    | _ => none

/-- MILL_ABS: d := |a|. -/
def execMillAbs (m : Fin 4) (stall : Nat) (s : State) : Host.Outcome State Fault Refusal :=
  s.mill1 m stall fun o => match o with
    | .abs sat d a => some (fun t => aluOut m (some d) sat ((t.mill.mill[m]).int a).natAbs false t)
    | _ => none

/-- MILL_CMP: the flags from a − b. -/
def execMillCmp (m : Fin 4) (stall : Nat) (s : State) : Host.Outcome State Fault Refusal :=
  s.mill1 m stall fun o => match o with
    | .cmp a b => some (fun t =>
        let q := t.mill.mill[m]
        aluOut m none false (q.int a - q.int b) (decide (q.data[b].toNat ≤ q.data[a].toNat)) t)
    | _ => none

/-- MILL_ADDL: d := a + imm32. -/
def execMillAddl (m : Fin 4) (stall : Nat) (s : State) : Host.Outcome State Fault Refusal :=
  s.mill1 m stall fun o => match o with
    | .addl sat d a i => some (fun t =>
        let q := t.mill.mill[m]
        aluOut m (some d) sat (q.int a + i.toInt) (carryOf q.data[a] i) t)
    | _ => none

/-- MILL_CMPL: the flags from a − imm32. -/
def execMillCmpl (m : Fin 4) (stall : Nat) (s : State) : Host.Outcome State Fault Refusal :=
  s.mill1 m stall fun o => match o with
    | .cmpl a i => some (fun t =>
        let q := t.mill.mill[m]
        aluOut m none false (q.int a - i.toInt) (decide (i.toNat ≤ q.data[a].toNat)) t)
    | _ => none

/-- MILL_SHL: d := a × 2^sh. -/
def execMillShl (m : Fin 4) (stall : Nat) (s : State) : Host.Outcome State Fault Refusal :=
  s.mill1 m stall fun o => match o with
    | .shl sat d a sh => some (fun t =>
        let q := t.mill.mill[m]
        aluOut m (some d) sat (q.int a * (2 ^ sh : Nat)) (sh ≠ 0 && q.data[a].getLsbD (32 - sh)) t)
    | _ => none

/-- MILL_ASR: arithmetic shift right. -/
def execMillAsr (m : Fin 4) (stall : Nat) (s : State) : Host.Outcome State Fault Refusal :=
  s.mill1 m stall fun o => match o with
    | .asr d a sh => some (fun t =>
        let w := (t.mill.mill[m]).data[a]
        logicOut d (w.sshiftRight sh) (sh ≠ 0 && w.getLsbD (sh - 1)) t)
    | _ => none

/-- MILL_LSR: logical shift right. -/
def execMillLsr (m : Fin 4) (stall : Nat) (s : State) : Host.Outcome State Fault Refusal :=
  s.mill1 m stall fun o => match o with
    | .lsr d a sh => some (fun t =>
        let w := (t.mill.mill[m]).data[a]
        logicOut d (w >>> sh) (sh ≠ 0 && w.getLsbD (sh - 1)) t)
    | _ => none

/-- MILL_MIN: d := the smaller of a and b, signed. -/
def execMillMin (m : Fin 4) (stall : Nat) (s : State) : Host.Outcome State Fault Refusal :=
  s.mill1 m stall fun o => match o with
    | .min d a b => some (fun t =>
        let q := t.mill.mill[m]
        logicOut d (if q.int b < q.int a then q.data[b] else q.data[a]) false t)
    | _ => none

/-- MILL_MAX: d := the larger of a and b, signed. -/
def execMillMax (m : Fin 4) (stall : Nat) (s : State) : Host.Outcome State Fault Refusal :=
  s.mill1 m stall fun o => match o with
    | .max d a b => some (fun t =>
        let q := t.mill.mill[m]
        logicOut d (if q.int a < q.int b then q.data[b] else q.data[a]) false t)
    | _ => none

/-- MILL_AND: bitwise and. -/
def execMillAnd (m : Fin 4) (stall : Nat) (s : State) : Host.Outcome State Fault Refusal :=
  s.mill1 m stall fun o => match o with
    | .and d a b => some (fun t => logicOut d ((t.mill.mill[m]).data[a] &&& (t.mill.mill[m]).data[b]) false t)
    | _ => none

/-- MILL_OR: bitwise or. -/
def execMillOr (m : Fin 4) (stall : Nat) (s : State) : Host.Outcome State Fault Refusal :=
  s.mill1 m stall fun o => match o with
    | .or d a b => some (fun t => logicOut d ((t.mill.mill[m]).data[a] ||| (t.mill.mill[m]).data[b]) false t)
    | _ => none

/-- MILL_XOR: bitwise exclusive or. -/
def execMillXor (m : Fin 4) (stall : Nat) (s : State) : Host.Outcome State Fault Refusal :=
  s.mill1 m stall fun o => match o with
    | .xor d a b => some (fun t => logicOut d ((t.mill.mill[m]).data[a] ^^^ (t.mill.mill[m]).data[b]) false t)
    | _ => none

/-- MILL_NOT: bitwise complement. -/
def execMillNot (m : Fin 4) (stall : Nat) (s : State) : Host.Outcome State Fault Refusal :=
  s.mill1 m stall fun o => match o with
    | .not d a => some (fun t => logicOut d (~~~ (t.mill.mill[m]).data[a]) false t)
    | _ => none

/-- MILL_ANDL: d := a and imm32. -/
def execMillAndl (m : Fin 4) (stall : Nat) (s : State) : Host.Outcome State Fault Refusal :=
  s.mill1 m stall fun o => match o with
    | .andl d a i => some (fun t => logicOut d ((t.mill.mill[m]).data[a] &&& i) false t)
    | _ => none

/-! ### Loads and stores (R390, R401-R403) -/

/-- MILL_LDX: d := X[EA]. -/
def execMillLdx (m : Fin 4) (stall : Nat) (s : State) : Host.Outcome State Fault Refusal :=
  s.mill1 m stall fun o => match o with | .ldx d e => some (eaOut m false e (loadOut m d false)) | _ => none

/-- MILL_LDY: d := Y[EA]. -/
def execMillLdy (m : Fin 4) (stall : Nat) (s : State) : Host.Outcome State Fault Refusal :=
  s.mill1 m stall fun o => match o with | .ldy d e => some (eaOut m true e (loadOut m d true)) | _ => none

/-- MILL_STX: X[EA] := d. -/
def execMillStx (m : Fin 4) (stall : Nat) (s : State) : Host.Outcome State Fault Refusal :=
  s.mill1 m stall fun o => match o with | .stx d e => some (eaOut m false e (storeOut m d false)) | _ => none

/-- MILL_STY: Y[EA] := d. -/
def execMillSty (m : Fin 4) (stall : Nat) (s : State) : Host.Outcome State Fault Refusal :=
  s.mill1 m stall fun o => match o with | .sty d e => some (eaOut m true e (storeOut m d true)) | _ => none

/-- An access at an absolute address. -/
def absOut (y : Bool) (w : Nat) (f : Nat → State → MillOut) (s : State) : MillOut :=
  match absEa y w with
  | .error (c, a) => .trap c a s
  | .ok w => f w s

/-- MILL_LDXA: d := X[w]. -/
def execMillLdxa (m : Fin 4) (stall : Nat) (s : State) : Host.Outcome State Fault Refusal :=
  s.mill1 m stall fun o => match o with | .ldxa d w => some (absOut false w (loadOut m d false)) | _ => none

/-- MILL_LDYA: d := Y[w]. -/
def execMillLdya (m : Fin 4) (stall : Nat) (s : State) : Host.Outcome State Fault Refusal :=
  s.mill1 m stall fun o => match o with | .ldya d w => some (absOut true w (loadOut m d true)) | _ => none

/-- MILL_STXA: X[w] := d, injection and OUT words included. -/
def execMillStxa (m : Fin 4) (stall : Nat) (s : State) : Host.Outcome State Fault Refusal :=
  s.mill1 m stall fun o => match o with | .stxa d w => some (absOut false w (storeOut m d false)) | _ => none

/-- MILL_STYA: Y[w] := d. -/
def execMillStya (m : Fin 4) (stall : Nat) (s : State) : Host.Outcome State Fault Refusal :=
  s.mill1 m stall fun o => match o with | .stya d w => some (absOut true w (storeOut m d true)) | _ => none

/-! ### Accumulators (R404, R406, R407) -/

/-- MILL_MPY: ac := a × b. -/
def execMillMpy (m : Fin 4) (stall : Nat) (s : State) : Host.Outcome State Fault Refusal :=
  s.mill1 m stall fun o => match o with
    | .mpy sat ac a b => some (fun t => accOut m ac sat ((t.mill.mill[m]).int a * (t.mill.mill[m]).int b) t)
    | _ => none

/-- MILL_MAC: ac := ac + a × b. -/
def execMillMac (m : Fin 4) (stall : Nat) (s : State) : Host.Outcome State Fault Refusal :=
  s.mill1 m stall fun o => match o with
    | .mac sat ac a b => some (fun t =>
        let q := t.mill.mill[m]
        accOut m ac sat (q.accs[ac] + q.int a * q.int b) t)
    | _ => none

/-- MILL_MSU: ac := ac − a × b. -/
def execMillMsu (m : Fin 4) (stall : Nat) (s : State) : Host.Outcome State Fault Refusal :=
  s.mill1 m stall fun o => match o with
    | .msu sat ac a b => some (fun t =>
        let q := t.mill.mill[m]
        accOut m ac sat (q.accs[ac] - q.int a * q.int b) t)
    | _ => none

/-- MILL_MACXY: ac := ac + X[EA_X] × Y[EA_Y]. -/
def execMillMacxy (m : Fin 4) (stall : Nat) (s : State) : Host.Outcome State Fault Refusal :=
  s.mill1 m stall fun o => match o with | .macxy sat ac x y => some (dualOut m ac sat false x y) | _ => none

/-- MILL_MSUXY: ac := ac − X[EA_X] × Y[EA_Y]. -/
def execMillMsuxy (m : Fin 4) (stall : Nat) (s : State) : Host.Outcome State Fault Refusal :=
  s.mill1 m stall fun o => match o with | .msuxy sat ac x y => some (dualOut m ac sat true x y) | _ => none

/-- MILL_CLRA: ac := 0. -/
def execMillClra (m : Fin 4) (stall : Nat) (s : State) : Host.Outcome State Fault Refusal :=
  s.mill1 m stall fun o => match o with | .clra ac => some (accOut m ac false 0) | _ => none

/-- MILL_ACCLD: ac := a × 2^sh. -/
def execMillAccld (m : Fin 4) (stall : Nat) (s : State) : Host.Outcome State Fault Refusal :=
  s.mill1 m stall fun o => match o with
    | .accld ac a sh => some (fun t => accOut m ac false ((t.mill.mill[m]).int a * (2 ^ sh : Nat)) t)
    | _ => none

/-- MILL_ACCADD: ac := ac + a × 2^sh. -/
def execMillAccadd (m : Fin 4) (stall : Nat) (s : State) : Host.Outcome State Fault Refusal :=
  s.mill1 m stall fun o => match o with
    | .accadd sat ac a sh => some (fun t =>
        let q := t.mill.mill[m]
        accOut m ac sat (q.accs[ac] + q.int a * (2 ^ sh : Nat)) t)
    | _ => none

/-- MILL_EXT: d := ac / 2^sh, rounded and optionally saturated. -/
def execMillExt (m : Fin 4) (stall : Nat) (s : State) : Host.Outcome State Fault Refusal :=
  s.mill1 m stall fun o => match o with
    | .ext sat d ac rnd sh => some (fun t =>
        let r := dataResult sat (extQuot (t.mill.mill[m]).accs[ac] rnd sh)
        regOut d r.1 (t.millStickyIf r.2 m 3 0))
    | _ => none

/-! ### Transfers and loops (R411, R412, R415) -/

/-- MILL_B: branch if the condition holds. -/
def execMillB (m : Fin 4) (stall : Nat) (s : State) : Host.Outcome State Fault Refusal :=
  s.mill1 m stall fun o => match o with
    | .b c off => some (fun t =>
        let q := t.mill.mill[m]
        .jump noWrite (if condHolds c q.flags then some (pcOf (q.pc + 4 * off)) else none) false t)
    | _ => none

/-- MILL_CALL: call if the condition holds, with the link in D15. -/
def execMillCall (m : Fin 4) (stall : Nat) (s : State) : Host.Outcome State Fault Refusal :=
  s.mill1 m stall fun o => match o with
    | .call c off => some (fun t =>
        let q := t.mill.mill[m]
        if condHolds c q.flags then .jump ⟨some (15, word (q.pc + 12)), none, none⟩ (some (pcOf (q.pc + 4 * off))) false t
        else .jump noWrite none false t)
    | _ => none

/-- MILL_RET: return to D15 if the condition holds. -/
def execMillRet (m : Fin 4) (stall : Nat) (s : State) : Host.Outcome State Fault Refusal :=
  s.mill1 m stall fun o => match o with
    | .ret c => some (fun t =>
        let q := t.mill.mill[m]
        .jump noWrite (if condHolds c q.flags then some q.data[15].toNat else none) false t)
    | _ => none

/-- MILL_LOOP: a hardware loop over the following len words. -/
def execMillLoop (m : Fin 4) (stall : Nat) (s : State) : Host.Outcome State Fault Refusal :=
  s.mill1 m stall fun o => match o with
    | .loop d len count => some (fun t =>
        let q := t.mill.mill[m]
        let n := if count = 0 then q.dA[d].toNat % 65536 else count
        let l : MLoop := { start := q.pc + 4, last := q.pc + 4 * len, count := n }
        let inside := match q.loops with | o :: _ => decide (o.start ≤ l.start ∧ l.last < o.last) | [] => true
        if 2 ≤ q.loops.length then .trap 7 0 t
        else if !inside then .trap 4 0 t
        else if n = 0 then .skip (l.last + 4) t
        else .skip l.start (t.setMill m (q.enterLoop l)))
    | _ => none

/-- MILL_ENDL: removes the innermost loop. -/
def execMillEndl (m : Fin 4) (stall : Nat) (s : State) : Host.Outcome State Fault Refusal :=
  s.mill1 m stall fun o => match o with
    | .endl => some (fun t => .seq noWrite (t.setMill m ((t.mill.mill[m]).endLoop ((t.mill.mill[m]).loops.drop 1))))
    | _ => none

/-- MILL_RTE: return from an event handler to EPC in bank 0. -/
def execMillRte (m : Fin 4) (stall : Nat) (s : State) : Host.Outcome State Fault Refusal :=
  s.mill1 m stall fun o => match o with
    | .rte => some (fun t =>
        let q := t.mill.mill[m]
        if q.bank then .jump noWrite (some q.epc) true t else .trap 8 0 t)
    | _ => none

/-- MILL_CLRF: clears the sticky flags in the mask. -/
def execMillClrf (m : Fin 4) (stall : Nat) (s : State) : Host.Outcome State Fault Refusal :=
  s.mill1 m stall fun o => match o with
    | .clrf k => some (fun t =>
        let q := t.mill.mill[m]
        .seq noWrite (t.setMill m { q with sticky := q.sticky &&& ~~~ k }))
    | _ => none

end Sys2Proof.Machine
end

