-- ==== Sys2Proof/Machine/Tick.lean ====
section
/-! DEFINITION. SERVO_TICK (R22), and the event rows of the encoders' faults (R200), the scrubber (R40, R568) and the event
ring (R45). -/
namespace Sys2Proof.Machine

/-! ### The window and the notice board at a tick instant -/

/-- A window entry of 32 bits. -/
def winWord (w v : Nat) : Nat × Word := (w, word v)

/-- A 64-bit window entry, low word first (R388). -/
def winPair (w : Nat) (v : Int) : List (Nat × Word) := [winWord w (ucode 64 v), winWord (w + 1) (ucode 64 v / 2 ^ 32)]

/-- A 32-bit signed window entry. -/
def winInt (w : Nat) (v : Int) : Nat × Word := winWord w (ucode 32 v)

/-- The window words that change at a tick instant (R388, R389). -/
def State.windowAt (s : State) : List (Nat × Word) :=
  let cur (k : Fin 7) : Int := if s.machine then s.loop.cur[k] else 0
  let ph (k : Fin 3) : Int := if s.machine then s.sense.sdVal[k] else 0
  winPair 0x6000 s.now ++ [winWord 0x6002 s.sys.tickNo] ++
    (List.range 5).flatMap (fun i => winPair (0x6010 + 2 * i) (s.srcPos (i + 1))) ++
    (List.range 5).map (fun i => winInt (0x6020 + i) (s.srcSpd (i + 1))) ++
    [winWord 0x6028 s.senseStat, winInt 0x6030 (ph 0), winInt 0x6031 (ph 1), winInt 0x6032 (ph 2), winInt 0x6033 (cur 5),
     winInt 0x6034 (cur 6)] ++
    (List.finRange 16).map (fun k => winInt (0x6040 + k.val) s.sense.adc[k]) ++ [winInt 0x6050 s.sense.load] ++
    [winWord 0x6058 (State.inputMask s.inActive false), winWord 0x6059 (State.inputMask s.inActive true),
     winWord 0x605A (State.inputMask s.inValid false), winWord 0x605B (State.inputMask s.inValid true)] ++
    (List.finRange 8).map (fun k => let c := s.fio.ctr[k]
                                    winWord (0x6060 + k.val) (if c.mode = 0 then 0 else c.value)) ++
    (List.finRange 4).flatMap (fun u =>
      let r := s.ramp[u]
      winPair (0x6080 + 4 * u.val) r.sp ++ [winInt (0x6082 + 4 * u.val) r.spVel, winInt (0x6083 + 4 * u.val) r.spAcc]) ++
    [winWord 0x6090 s.lockPermits] ++
    (if s.carStation then winWord 0x60A0 (s.liveDoor 0x50000) :: winPair 0x60A1 s.doorPos else [])

/-- The mirrors of R348, R383 and R487. -/
def State.boardAt (s : State) : List Word :=
  [word s.lockStat, word s.lockPermits] ++ (List.range 4).map (fun k => word (s.liveLock (0x70010 + 4 * k))) ++
    [word s.lockCrc, word s.lockTaps, word s.laneStat, word s.lane.sealEpoch, word (s.lane.sealEpoch / 2 ^ 32), word s.laneLast,
     word s.gtStat] ++ (List.finRange 3).flatMap fun c => [word (s.canStat c), word (s.canErr c)]

/-! ### SERVO_TICK -/

/-- The blocks at a tick instant, in the order of R22: sensing, ramp units, loop engine, and the rest. -/
def State.tickBlocks (x : TickIn) (s : State) : State :=
  let s := s.senseLatch x
  let s := if s.engineRuns then (s.doorPre.rampTicks.loopTick).doorPost else s.doorSwitch
  let s := s.fioTick.lockTick.millTick
  let s := { s with mill := { s.mill with window := s.windowAt } }
  let s := s.laneTick x.heartbeat x.service
  let s := if s.engineRuns then s.linkTick else s
  let s := s.idleTick
  { s with board := s.boardAt }

/-- SERVO_TICK: a tick instant (R22). -/
def execServoTick (dt : Nat) (x : TickIn) (s : State) : Host.Outcome State Fault Refusal :=
  let s := s.advance dt
  if !s.tickDue then .next s
  else .next (State.tickBlocks x { s with sys := { s.sys with tickAt := s.now, tickNo := s.sys.tickNo + 1 } })

/-! ### ENC_FAULT (R200) -/

/-- ENC_FAULT: the samples of an encoder channel and its receivers' state up to the instant at which an amplitude, count, line or
Hall fault is found, which sets FAULT and makes the source invalid (R196, R198-R200). -/
def execEncFault (dt : Nat) (k : Fin 3) (samples : List EncSample) (lineOk : Bool) (s : State) :
    Host.Outcome State Fault Refusal :=
  let s := s.advance dt
  if s.inReset then .next s
  else if s.encMode k.val = 0 then .next s
  else .next ((s.encRun k samples).encLine k lineOk)

/-! ### SCRUBBER_PASS (R40, R568) -/

/-- An uncorrectable word of a CAN message RAM (R568): `o` its offset. -/
def State.canWordBad (c : Fin 3) (o : Nat) (s : State) : State :=
  let q := s.can[c]
  if 0x1000 ≤ o ∧ o < 0x6000 then
    let b : Fin 256 := fidx 255 ((o - 0x1000) / 80)
    match q.pend.find? (·.buf = b) with
    | some p => (s.setCan c { q with pend := q.pend.filter (·.buf ≠ b) }).endTx c p .failed 1 0
    | none =>
      let inFifo := q.fifo0.contains b.val || q.fifo1.contains b.val
      if (s.bufUse c b.val = 2 && (q.buf b.val).fresh) || inFifo then
        let r := { q.buf b.val with fresh := false }
        s.setCan c { q.putBuf b.val r with fifo0 := q.fifo0.filter (· ≠ b.val), fifo1 := q.fifo1.filter (· ≠ b.val),
                                           overrun := satAdd 0xFF q.overrun 1 }
      else s
  else if 0x6000 ≤ o ∧ o < 0xB000 then
    let n := (o - 0x6000) / 80
    match q.shadow n with
    | some _ => s.setCan c { q with shadows := adel n q.shadows, overrun := satAdd 0xFF q.overrun 1 }
    | none => s
  else s

/-- What an uncorrectable word found by the scrubber does, by region (R568). -/
def State.scrubAct (w : Nat) (s : State) : State :=
  if hostMemory w = false then
    (match s.lane.holder with
     | some b => (s.post 0x0801 (b2n b)).laneFails b
     | none => s)
  else if inMill w then s.millTrap (fidx 3 ((w - 0x11000000) / 0x40000)) 6 (w - 0x11000000)
  else if 0x10080000 ≤ w ∧ w < 0x100B0000 then s.canWordBad (fidx 2 ((w - 0x10080000) / 0x10000)) ((w - 0x10080000) % 0x10000)
  else if inTable w then s.memUncorr w
  else s.groupWordBad w

/-- SCRUBBER_PASS: the scrubber reads the 64-bit word at `addr`, in RUN, DOZE and PARK. `error`: 0 none new, 1 an error confined to
one symbol, 2 an uncorrectable one; an error that the word already holds is found as well. -/
def execScrubberPass (dt : Nat) (addr : Nat) (error : Fin 3) (s : State) : Host.Outcome State Fault Refusal :=
  let s := s.advance dt
  if s.inReset || s.pwr.mode = .sleep then .next s
  else
    let w := addr / 8 * 8
    if error.val = 2 ∨ s.mem.hard.contains w then .next (((s.putHard w).eccFound w).scrubAct w)
    else if error.val = 1 ∨ s.mem.soft.contains w then .next (s.eccCorrect w)
    else .next s

/-! ### EVT_LOST (R45) -/

/-- EVT_LOST: the ring has room again after overwrites: the count of the records overwritten unread is posted. -/
def execEvtLost (dt : Nat) (s : State) : Host.Outcome State Fault Refusal :=
  let s := s.advance dt
  if s.inReset then .next s else
  if s.ev.unread < 256 ∧ 0 < s.ev.lostSince then
    let s := s.post 0x0004 s.ev.lostSince
    .next { s with ev := { s.ev with lostSince := 0 } }
  else .next s

end Sys2Proof.Machine
end

