-- ==== Sys2Proof/Machine/Dispatch.lean ====
section
/-! DEFINITION. The dispatch: one arm per command, each one direct call of that command's meaning. -/
namespace Sys2Proof.Machine

/-- The effect of a command on everything but the queue. -/
def exec (i : Instr) (s : State) : Host.Outcome State Fault Refusal :=
  match i with
  | .powerOnReset dt => Sys2Proof.Machine.execPowerOnReset dt s
  | .brownOut dt vlog vkeep => Sys2Proof.Machine.execBrownOut dt vlog vkeep s
  | .resetPin dt => Sys2Proof.Machine.execResetPin dt s
  | .supplyStable dt x => Sys2Proof.Machine.execSupplyStable dt x s
  | .moduleResetSequence dt straps => Sys2Proof.Machine.execModuleResetSequence dt straps s
  | .boot dt imageBad aFails => Sys2Proof.Machine.execBoot dt imageBad aFails s
  | .bootDone dt => Sys2Proof.Machine.execBootDone dt s
  | .servoTick dt x => Sys2Proof.Machine.execServoTick dt x s
  | .parcelSeal dt units => Sys2Proof.Machine.execParcelSeal dt units s
  | .currentSample dt x => Sys2Proof.Machine.execCurrentSample dt x s
  | .overcurrent dt k bits => Sys2Proof.Machine.execOvercurrent dt k bits s
  | .loopSat dt l => Sys2Proof.Machine.execLoopSat dt l s
  | .brakePickEnd dt b => Sys2Proof.Machine.execBrakePickEnd dt b s
  | .letterArrival dt port bytes => Sys2Proof.Machine.execLetterArrival dt port bytes s
  | .hpPost dt length => Sys2Proof.Machine.execHpPost dt length s
  | .hpTake dt take => Sys2Proof.Machine.execHpTake dt take s
  | .hpEvidxWrite dt rd => Sys2Proof.Machine.execHpEvidxWrite dt rd s
  | .canLetterSegment dt ctrl sender dest data => Sys2Proof.Machine.execCanLetterSegment dt ctrl sender dest data s
  | .canReassemblyTimeout dt ctrl sender => Sys2Proof.Machine.execCanReassemblyTimeout dt ctrl sender s
  | .uartLetter dt bytes => Sys2Proof.Machine.execUartLetter dt bytes s
  | .uartGapTimeout dt => Sys2Proof.Machine.execUartGapTimeout dt s
  | .nop l => Sys2Proof.Machine.execNop l s
  | .identify l => Sys2Proof.Machine.execIdentify l s
  | .regRead l => Sys2Proof.Machine.execRegRead l s
  | .regWrite l => Sys2Proof.Machine.execRegWrite l s
  | .regModify l => Sys2Proof.Machine.execRegModify l s
  | .moduleReset l => Sys2Proof.Machine.execModuleReset l s
  | .moduleResetLane l => Sys2Proof.Machine.execModuleResetLane l s
  | .configSave l => Sys2Proof.Machine.execConfigSave l s
  | .tableWrite l => Sys2Proof.Machine.execTableWrite l s
  | .tableRead l => Sys2Proof.Machine.execTableRead l s
  | .tableCheck l => Sys2Proof.Machine.execTableCheck l s
  | .tableFill l => Sys2Proof.Machine.execTableFill l s
  | .moveRun l => Sys2Proof.Machine.execMoveRun l s
  | .moveTrap l => Sys2Proof.Machine.execMoveTrap l s
  | .moveTail l => Sys2Proof.Machine.execMoveTail l s
  | .moveStop l => Sys2Proof.Machine.execMoveStop l s
  | .setLimits l => Sys2Proof.Machine.execSetLimits l s
  | .home l => Sys2Proof.Machine.execHome l s
  | .gearSet l => Sys2Proof.Machine.execGearSet l s
  | .doorMode l => Sys2Proof.Machine.execDoorMode l s
  | .doorOpen l => Sys2Proof.Machine.execDoorOpen l s
  | .doorClose l => Sys2Proof.Machine.execDoorClose l s
  | .doorStop l => Sys2Proof.Machine.execDoorStop l s
  | .doorLimits l => Sys2Proof.Machine.execDoorLimits l s
  | .loopConfig l => Sys2Proof.Machine.execLoopConfig l s
  | .loopMode l => Sys2Proof.Machine.execLoopMode l s
  | .coefBank l => Sys2Proof.Machine.execCoefBank l s
  | .schedSet l => Sys2Proof.Machine.execSchedSet l s
  | .inject l => Sys2Proof.Machine.execInject l s
  | .capture l => Sys2Proof.Machine.execCapture l s
  | .groupJoin l => Sys2Proof.Machine.execGroupJoin l s
  | .groupLeave l => Sys2Proof.Machine.execGroupLeave l s
  | .policySet l => Sys2Proof.Machine.execPolicySet l s
  | .flightSet l => Sys2Proof.Machine.execFlightSet l s
  | .callEnter l => Sys2Proof.Machine.execCallEnter l s
  | .callCancel l => Sys2Proof.Machine.execCallCancel l s
  | .lockLoad l => Sys2Proof.Machine.execLockLoad l s
  | .lockCommit l => Sys2Proof.Machine.execLockCommit l s
  | .lockTestBridge l => Sys2Proof.Machine.execLockTestBridge l s
  | .lockTestSto l => Sys2Proof.Machine.execLockTestSto l s
  | .watchChange l => Sys2Proof.Machine.execWatchChange l s
  | .watchSet l => Sys2Proof.Machine.execWatchSet l s
  | .millStartTick l => Sys2Proof.Machine.execMillStartTick l s
  | .millStartOnce l => Sys2Proof.Machine.execMillStartOnce l s
  | .millStop l => Sys2Proof.Machine.execMillStop l s
  | .millFetch l => Sys2Proof.Machine.execMillFetch l s
  | .outSet l => Sys2Proof.Machine.execOutSet l s
  | .inRead l => Sys2Proof.Machine.execInRead l s
  | .outRestoreGroup l => Sys2Proof.Machine.execOutRestoreGroup l s
  | .outRestoreChannel l => Sys2Proof.Machine.execOutRestoreChannel l s
  | .counterConfig l => Sys2Proof.Machine.execCounterConfig l s
  | .canMode l => Sys2Proof.Machine.execCanMode l s
  | .canFilter l => Sys2Proof.Machine.execCanFilter l s
  | .canTx l => Sys2Proof.Machine.execCanTx l s
  | .canCancel l => Sys2Proof.Machine.execCanCancel l s
  | .canRead l => Sys2Proof.Machine.execCanRead l s
  | .linkModeStart l => Sys2Proof.Machine.execLinkModeStart l s
  | .linkModeStop l => Sys2Proof.Machine.execLinkModeStop l s
  | .powerMode l => Sys2Proof.Machine.execPowerMode l s
  | .rescueStart l => Sys2Proof.Machine.execRescueStart l s
  | .imageWrite l => Sys2Proof.Machine.execImageWrite l s
  | .imageVerify l => Sys2Proof.Machine.execImageVerify l s
  | .imageActivate l => Sys2Proof.Machine.execImageActivate l s
  | .lcTransition l => Sys2Proof.Machine.execLcTransition l s
  | .abort l => Sys2Proof.Machine.execAbort l s
  | .abortTakesEffect dt => Sys2Proof.Machine.execAbortTakesEffect dt s
  | .sessionOpenChallenge l => Sys2Proof.Machine.execSessionOpenChallenge l s
  | .sessionOpenProve l => Sys2Proof.Machine.execSessionOpenProve l s
  | .sessionOpenClose l => Sys2Proof.Machine.execSessionOpenClose l s
  | .sessionTimeout dt => Sys2Proof.Machine.execSessionTimeout dt s
  | .sessionLockoutEnd dt => Sys2Proof.Machine.execSessionLockoutEnd dt s
  | .sysBgenWrite h v => Sys2Proof.Machine.execSysBgenWrite h v s
  | .sysTickWrite h v => Sys2Proof.Machine.execSysTickWrite h v s
  | .letterBudgetWrite h v => Sys2Proof.Machine.execLetterBudgetWrite h v s
  | .letterShareWrite h p v => Sys2Proof.Machine.execLetterShareWrite h p v s
  | .positionHiWrite h lo v => Sys2Proof.Machine.execPositionHiWrite h lo v s
  | .encFaultClear h k v => Sys2Proof.Machine.execEncFaultClear h k v s
  | .ssi0ConfigWrite h timing v => Sys2Proof.Machine.execSsi0ConfigWrite h timing v s
  | .senseLandCountWrite h v => Sys2Proof.Machine.execSenseLandCountWrite h v s
  | .loopBankWrite h n v => Sys2Proof.Machine.execLoopBankWrite h n v s
  | .coefWrite h n b k v => Sys2Proof.Machine.execCoefWrite h n b k v s
  | .notchEnWrite h v => Sys2Proof.Machine.execNotchEnWrite h v s
  | .hoistKWrite h v => Sys2Proof.Machine.execHoistKWrite h v s
  | .hoistTripClear h v => Sys2Proof.Machine.execHoistTripClear h v s
  | .cogAddrWrite h v => Sys2Proof.Machine.execCogAddrWrite h v s
  | .loopMillWrite h n v => Sys2Proof.Machine.execLoopMillWrite h n v s
  | .loopCapselWrite h k v => Sys2Proof.Machine.execLoopCapselWrite h k v s
  | .doorFaultClear h v => Sys2Proof.Machine.execDoorFaultClear h v s
  | .doorPositionWrite h opened v => Sys2Proof.Machine.execDoorPositionWrite h opened v s
  | .lockCauseClear h v => Sys2Proof.Machine.execLockCauseClear h v s
  | .laneTkstopWrite h v => Sys2Proof.Machine.execLaneTkstopWrite h v s
  | .millFlagsClear h m v => Sys2Proof.Machine.execMillFlagsClear h m v s
  | .millSigWrite h m v => Sys2Proof.Machine.execMillSigWrite h m v s
  | .millEvvecWrite h m v => Sys2Proof.Machine.execMillEvvecWrite h m v s
  | .fioLinkoffClear h v => Sys2Proof.Machine.execFioLinkoffClear h v s
  | .canLockWrite h c w v => Sys2Proof.Machine.execCanLockWrite h c w v s
  | .canBitTimingWrite h c data v => Sys2Proof.Machine.execCanBitTimingWrite h c data v s
  | .groupCfgWrite h timing v => Sys2Proof.Machine.execGroupCfgWrite h timing v s
  | .sysKeyctlWrite h v => Sys2Proof.Machine.execSysKeyctlWrite h v s
  | .encPwrRestore h v => Sys2Proof.Machine.execEncPwrRestore h v s
  | .limitStop dt u k => Sys2Proof.Machine.execLimitStop dt u k s
  | .homeRearmEnd dt u => Sys2Proof.Machine.execHomeRearmEnd dt u s
  | .homeCapture dt u cap => Sys2Proof.Machine.execHomeCapture dt u cap s
  | .homeAdjust dt u => Sys2Proof.Machine.execHomeAdjust dt u s
  | .homeSearchExhausted dt u => Sys2Proof.Machine.execHomeSearchExhausted dt u s
  | .homeLimit dt u input => Sys2Proof.Machine.execHomeLimit dt u input s
  | .encFault dt k samples lineOk => Sys2Proof.Machine.execEncFault dt k samples lineOk s
  | .encAbsAngleSet dt c d => Sys2Proof.Machine.execEncAbsAngleSet dt c d s
  | .encZSync dt k enc => Sys2Proof.Machine.execEncZSync dt k enc s
  | .ssiRead dt x => Sys2Proof.Machine.execSsiRead dt x s
  | .sdFault dt x => Sys2Proof.Machine.execSdFault dt x s
  | .positionMismatch dt => Sys2Proof.Machine.execPositionMismatch dt s
  | .doorModulatorUpdate dt x => Sys2Proof.Machine.execDoorModulatorUpdate dt x s
  | .legacyStep dt x => Sys2Proof.Machine.execLegacyStep dt x s
  | .doorObstructed dt k => Sys2Proof.Machine.execDoorObstructed dt k s
  | .doorStall dt => Sys2Proof.Machine.execDoorStall dt s
  | .doorOpenTimeout dt => Sys2Proof.Machine.execDoorOpenTimeout dt s
  | .doorCloseTimeout dt => Sys2Proof.Machine.execDoorCloseTimeout dt s
  | .doorReopen dt => Sys2Proof.Machine.execDoorReopen dt s
  | .doorHoldExpiry dt => Sys2Proof.Machine.execDoorHoldExpiry dt s
  | .doorNudge dt => Sys2Proof.Machine.execDoorNudge dt s
  | .stageFault dt kind value => Sys2Proof.Machine.execStageFault dt kind value s
  | .interlockEvaluation dt x => Sys2Proof.Machine.execInterlockEvaluation dt x s
  | .bridgeFail dt => Sys2Proof.Machine.execBridgeFail dt s
  | .lockDiscrepancy dt k => Sys2Proof.Machine.execLockDiscrepancy dt k s
  | .delayElementExpiry dt k => Sys2Proof.Machine.execDelayElementExpiry dt k s
  | .lockDisagree dt => Sys2Proof.Machine.execLockDisagree dt s
  | .safetyChainOpen dt k => Sys2Proof.Machine.execSafetyChainOpen dt k s
  | .lockImageCheck dt bad1 bad2 => Sys2Proof.Machine.execLockImageCheck dt bad1 bad2 s
  | .lockCommitted dt bad => Sys2Proof.Machine.execLockCommitted dt bad s
  | .stoTestStep dt => Sys2Proof.Machine.execStoTestStep dt s
  | .stoTestDue dt => Sys2Proof.Machine.execStoTestDue dt s
  | .laneFault dt x => Sys2Proof.Machine.execLaneFault dt x s
  | .wdogExpired dt => Sys2Proof.Machine.execWdogExpired dt s
  | .takeover dt bad0 bad1 replay => Sys2Proof.Machine.execTakeover dt bad0 bad1 replay s
  | .parcelStale dt => Sys2Proof.Machine.execParcelStale dt s
  | .standbyReady dt laneB failed => Sys2Proof.Machine.execStandbyReady dt laneB failed s
  | .stileFault dt => Sys2Proof.Machine.execStileFault dt s
  | .watchDue dt => Sys2Proof.Machine.execWatchDue dt s
  | .watchChangeStart dt => Sys2Proof.Machine.execWatchChangeStart dt s
  | .watchChanged dt => Sys2Proof.Machine.execWatchChanged dt s
  | .watchSkipped dt => Sys2Proof.Machine.execWatchSkipped dt s
  | .millTickStart dt => Sys2Proof.Machine.execMillTickStart dt s
  | .millEventEntry m => Sys2Proof.Machine.execMillEventEntry m s
  | .millNop m stall => Sys2Proof.Machine.execMillNop m stall s
  | .millHalt m stall => Sys2Proof.Machine.execMillHalt m stall s
  | .millMov m stall => Sys2Proof.Machine.execMillMov m stall s
  | .millAdd m stall => Sys2Proof.Machine.execMillAdd m stall s
  | .millSub m stall => Sys2Proof.Machine.execMillSub m stall s
  | .millNeg m stall => Sys2Proof.Machine.execMillNeg m stall s
  | .millAbs m stall => Sys2Proof.Machine.execMillAbs m stall s
  | .millMin m stall => Sys2Proof.Machine.execMillMin m stall s
  | .millMax m stall => Sys2Proof.Machine.execMillMax m stall s
  | .millAnd m stall => Sys2Proof.Machine.execMillAnd m stall s
  | .millOr m stall => Sys2Proof.Machine.execMillOr m stall s
  | .millXor m stall => Sys2Proof.Machine.execMillXor m stall s
  | .millNot m stall => Sys2Proof.Machine.execMillNot m stall s
  | .millShl m stall => Sys2Proof.Machine.execMillShl m stall s
  | .millAsr m stall => Sys2Proof.Machine.execMillAsr m stall s
  | .millLsr m stall => Sys2Proof.Machine.execMillLsr m stall s
  | .millCmp m stall => Sys2Proof.Machine.execMillCmp m stall s
  | .millMovi m stall => Sys2Proof.Machine.execMillMovi m stall s
  | .millMovu m stall => Sys2Proof.Machine.execMillMovu m stall s
  | .millLdx m stall => Sys2Proof.Machine.execMillLdx m stall s
  | .millLdy m stall => Sys2Proof.Machine.execMillLdy m stall s
  | .millStx m stall => Sys2Proof.Machine.execMillStx m stall s
  | .millSty m stall => Sys2Proof.Machine.execMillSty m stall s
  | .millMovai m stall => Sys2Proof.Machine.execMillMovai m stall s
  | .millSetb m stall => Sys2Proof.Machine.execMillSetb m stall s
  | .millSetl m stall => Sys2Proof.Machine.execMillSetl m stall s
  | .millMovda m stall => Sys2Proof.Machine.execMillMovda m stall s
  | .millMovad m stall => Sys2Proof.Machine.execMillMovad m stall s
  | .millMpy m stall => Sys2Proof.Machine.execMillMpy m stall s
  | .millMac m stall => Sys2Proof.Machine.execMillMac m stall s
  | .millMsu m stall => Sys2Proof.Machine.execMillMsu m stall s
  | .millMacxy m stall => Sys2Proof.Machine.execMillMacxy m stall s
  | .millMsuxy m stall => Sys2Proof.Machine.execMillMsuxy m stall s
  | .millClra m stall => Sys2Proof.Machine.execMillClra m stall s
  | .millAccld m stall => Sys2Proof.Machine.execMillAccld m stall s
  | .millAccadd m stall => Sys2Proof.Machine.execMillAccadd m stall s
  | .millExt m stall => Sys2Proof.Machine.execMillExt m stall s
  | .millB m stall => Sys2Proof.Machine.execMillB m stall s
  | .millCall m stall => Sys2Proof.Machine.execMillCall m stall s
  | .millRet m stall => Sys2Proof.Machine.execMillRet m stall s
  | .millLoop m stall => Sys2Proof.Machine.execMillLoop m stall s
  | .millEndl m stall => Sys2Proof.Machine.execMillEndl m stall s
  | .millRte m stall => Sys2Proof.Machine.execMillRte m stall s
  | .millClrf m stall => Sys2Proof.Machine.execMillClrf m stall s
  | .millMovl m stall => Sys2Proof.Machine.execMillMovl m stall s
  | .millAddl m stall => Sys2Proof.Machine.execMillAddl m stall s
  | .millAndl m stall => Sys2Proof.Machine.execMillAndl m stall s
  | .millCmpl m stall => Sys2Proof.Machine.execMillCmpl m stall s
  | .millLdxa m stall => Sys2Proof.Machine.execMillLdxa m stall s
  | .millLdya m stall => Sys2Proof.Machine.execMillLdya m stall s
  | .millStxa m stall => Sys2Proof.Machine.execMillStxa m stall s
  | .millStya m stall => Sys2Proof.Machine.execMillStya m stall s
  | .bellStrokeTx dt => Sys2Proof.Machine.execBellStrokeTx dt s
  | .bellStroke dt x => Sys2Proof.Machine.execBellStroke dt x s
  | .statusSlotTx dt x => Sys2Proof.Machine.execStatusSlotTx dt x s
  | .slotLateCancel dt => Sys2Proof.Machine.execSlotLateCancel dt s
  | .statusSlotRx dt busB sender qual data => Sys2Proof.Machine.execStatusSlotRx dt busB sender qual data s
  | .carNumberTwin dt x => Sys2Proof.Machine.execCarNumberTwin dt x s
  | .referenceDigest dt => Sys2Proof.Machine.execReferenceDigest dt s
  | .requestFrame dt busB panel sender data => Sys2Proof.Machine.execRequestFrame dt busB panel sender data s
  | .cancelFrame dt busB panel sender data => Sys2Proof.Machine.execCancelFrame dt busB panel sender data s
  | .callFrameTxDrop dt => Sys2Proof.Machine.execCallFrameTxDrop dt s
  | .joinListenTimeout dt => Sys2Proof.Machine.execJoinListenTimeout dt s
  | .joinClaim dt => Sys2Proof.Machine.execJoinClaim dt s
  | .bellMissing dt => Sys2Proof.Machine.execBellMissing dt s
  | .bellYielded dt x => Sys2Proof.Machine.execBellYielded dt x s
  | .groupBusLost dt bus => Sys2Proof.Machine.execGroupBusLost dt bus s
  | .resyncRequest dt car => Sys2Proof.Machine.execResyncRequest dt car s
  | .resyncData dt sender car data => Sys2Proof.Machine.execResyncData dt sender car data s
  | .resyncReplay dt => Sys2Proof.Machine.execResyncReplay dt s
  | .canFrameRx dt c f ok age x => Sys2Proof.Machine.execCanFrameRx dt c f ok age x s
  | .canTxChoice dt c => Sys2Proof.Machine.execCanTxChoice dt c s
  | .canTxEnd dt c r x => Sys2Proof.Machine.execCanTxEnd dt c r x s
  | .twin dt c b => Sys2Proof.Machine.execTwin dt c b s
  | .busOff dt c x => Sys2Proof.Machine.execBusOff dt c x s
  | .busOffRecoveryStart dt c => Sys2Proof.Machine.execBusOffRecoveryStart dt c s
  | .busRecovered dt c seqs => Sys2Proof.Machine.execBusRecovered dt c seqs s
  | .canIntegrationDone dt c => Sys2Proof.Machine.execCanIntegrationDone dt c s
  | .carLinkCycle x => Sys2Proof.Machine.execCarLinkCycle x s
  | .carLinkFrameRx dt x => Sys2Proof.Machine.execCarLinkFrameRx dt x s
  | .carLinkDown dt => Sys2Proof.Machine.execCarLinkDown dt s
  | .phyStatusPoll dt up => Sys2Proof.Machine.execPhyStatusPoll dt up s
  | .linkPhyTimeout dt => Sys2Proof.Machine.execLinkPhyTimeout dt s
  | .linkSyncTimeout dt => Sys2Proof.Machine.execLinkSyncTimeout dt s
  | .blindLevelling dt f addr segs => Sys2Proof.Machine.execBlindLevelling dt f addr segs s
  | .linkOpenOnLoss dt => Sys2Proof.Machine.execLinkOpenOnLoss dt s
  | .linkDoorHoldExpiry dt => Sys2Proof.Machine.execLinkDoorHoldExpiry dt s
  | .fieldLinkFrame dt toField ok x => Sys2Proof.Machine.execFieldLinkFrame dt toField ok x s
  | .fieldLinkFault dt => Sys2Proof.Machine.execFieldLinkFault dt s
  | .inputSample dt bank mv => Sys2Proof.Machine.execInputSample dt bank mv s
  | .counterEdge dt n high => Sys2Proof.Machine.execCounterEdge dt n high s
  | .counterGateEnd dt n => Sys2Proof.Machine.execCounterGateEnd dt n s
  | .outputDiagCheck dt k mv temp => Sys2Proof.Machine.execOutputDiagCheck dt k mv temp s
  | .overload dt x => Sys2Proof.Machine.execOverload dt x s
  | .driverOvertemp dt k temp => Sys2Proof.Machine.execDriverOvertemp dt k temp s
  | .groupOvercurrent dt x => Sys2Proof.Machine.execGroupOvercurrent dt x s
  | .vfieldSample dt mv => Sys2Proof.Machine.execVfieldSample dt mv s
  | .fieldShed dt => Sys2Proof.Machine.execFieldShed dt s
  | .fieldRestored dt => Sys2Proof.Machine.execFieldRestored dt s
  | .standbyIdleExpiry dt => Sys2Proof.Machine.execStandbyIdleExpiry dt s
  | .scrubberPass dt addr error => Sys2Proof.Machine.execScrubberPass dt addr error s
  | .evtLost dt => Sys2Proof.Machine.execEvtLost dt s
  | .mainsLoss dt vlog vkeep low => Sys2Proof.Machine.execMainsLoss dt vlog vkeep low s
  | .mainsRestored dt vlog x => Sys2Proof.Machine.execMainsRestored dt vlog x s
  | .vkeepLow dt mv => Sys2Proof.Machine.execVkeepLow dt mv s
  | .rescueAutoStart dt => Sys2Proof.Machine.execRescueAutoStart dt s
  | .rescueLevelCheck dt => Sys2Proof.Machine.execRescueLevelCheck dt s
  | .powerModeEntry dt => Sys2Proof.Machine.execPowerModeEntry dt s
  | .wake dt src => Sys2Proof.Machine.execWake dt src s
  | .idleTimeout dt => Sys2Proof.Machine.execIdleTimeout dt s
  | .clockFault dt source => Sys2Proof.Machine.execClockFault dt source s
  | .encPwrFault dt ma => Sys2Proof.Machine.execEncPwrFault dt ma s
  | .overtemp dt fieldDie temp => Sys2Proof.Machine.execOvertemp dt fieldDie temp s
  | .flashProgramDone dt => Sys2Proof.Machine.execFlashProgramDone dt s
  | .sdValid dt x => Sys2Proof.Machine.execSdValid dt x s
  | .vkeepRecovered dt mv => Sys2Proof.Machine.execVkeepRecovered dt mv s
  | .inboxWrite dt offset bytes => Sys2Proof.Machine.execInboxWrite dt offset bytes s
  | .configSaveDone dt ok => Sys2Proof.Machine.execConfigSaveDone dt ok s
  | .imageVerifyDone dt => Sys2Proof.Machine.execImageVerifyDone dt s
  | .lcRecordWritten dt => Sys2Proof.Machine.execLcRecordWritten dt s

end Sys2Proof.Machine
end

