-- ==== Sys2Proof/Safety.lean ====
section
/-! DEFINITION. What a sound state is, and the terms in which statements about the commands are made. -/
namespace Sys2Proof.Machine

/-! ### Sound states -/

/-- A list of numbers that rises strictly. -/
def rising : List Nat → Bool
  | [] => true
  | [_] => true
  | a :: b :: l => decide (a < b) && rising (b :: l)

/-- Memory in its canonical form: addresses strictly rising, no listed byte 0, and the three lists of faulty words rising. -/
def MemSt.wf (m : MemSt) : Bool := awf memDefault m.cells && rising m.soft && rising m.hard && rising m.uncorr

/-- The event ring as R44 and R54 have it: 256 records, indices below 512, at most 256 records unread. -/
def EvSt.wf (e : EvSt) : Bool :=
  decide (e.recs.length = 256) && decide (e.rd < 512) && decide (e.wr < 512) && decide (e.unread ≤ 256)

/-- A sound state: memory is canonical and the event ring has its shape. -/
def State.sound (s : State) : Bool := s.mem.wf && s.ev.wf

/-! ### Completion of letters -/

/-- A letter row completes with its effect: whenever the lane takes the letter and it passes the checks of R74 that come before
the opcode's own state checks (`State.admitted`), and `ok` holds of the letter and of the state in which its effect is tried, the
row answers a next state: the effect `eff`, the letter kept for CONFIG_SAVE where R529 stores it, and the receipt `r`. -/
def Serves (row : Letter → Instr) (opc : Nat) (h : Handler) (ok : Letter → State → Prop) (r : Letter → State → Reply)
    (eff : Letter → State → State) : Prop :=
  ∀ l s i q gap t, State.admitted opc h l s = some (i, q, gap, t) → ok q t →
    exec (row l) s = .next (((eff q t).keepLetter opc q.payload).reply opc i.ctl q gap (r q t))

/-- DONE with nothing in bytes 16-19. -/
def doneReply : Letter → State → Reply := fun _ _ => .done 0 []

/-- The effect of a letter that changes nothing but the letterbox. -/
def noEffect : Letter → State → State := fun _ t => t

/-- A REG_WRITE row completes with its effect: as `Serves`, for the letter that writes `v` to the register at `a`. -/
def ServesWrite (row : Head → Word → Instr) (a : Nat) (ok : Word → State → Prop) (eff : Word → State → State) : Prop :=
  ∀ h v s i q gap t, State.admitted 0x003 regWriteHandler (writeLetter h a v.toNat) s = some (i, q, gap, t) →
    q.payload = bytesLE 4 a ++ bytesLE 4 v.toNat → ok v t →
      exec (row h v) s = .next ((eff v t).reply 0x003 i.ctl q gap (.done 0 []))

/-- The stored word of the register at `a` after a write of `v`: the writable fields from `v`, the others kept (R15). -/
def written (a : Nat) (v : Word) (t : State) : Nat := newWord a (t.reg a) v.toNat 0xFFFFFFFF

/-- No rule refuses a REG_WRITE of `v` to the register at `a`: the role serves it, every field and value is in range (R567), and
the register's block has no objection. -/
def Allowed (a : Nat) (v : Word) (t : State) : Prop :=
  t.foreign a = false ∧ outOfRange a (written a v t) 0xFFFFFFFF = false ∧ t.valueBad a (written a v t) 0xFFFFFFFF = false ∧
    t.blockRefused a (written a v t) 0xFFFFFFFF (v.toNat &&& 0xFFFFFFFF) = none

/-- A transmit buffer made pending by CAN_TX, its attempts and twins at 0 (R466, R471). -/
def txRequest (b : Fin 256) (twinStop single : Bool) : CanPend :=
  { buf := b, twinStop := twinStop, single := single, attempts := 0, twinCnt := 0, twinSeen := false, late := false, ended := false }

/-! ### Arrival of letters -/

/-- The checks of R72, that of the deadline apart, that a letter of `b` bytes passes on a port other than 5, `len` the length that
its framing states, for the opcode table row `i`; `src` its sender's address, `q` the letter as queued. -/
def Fits (port : Fin 6) (src : Addr) (len : Nat) (b : List Byte) (i : OpInfo) (q : Queued) (s : State) : Prop :=
  let n := u16 b 2
  let cls := u16 b 0 / 4096
  let total := 16 + n + (if cls = 3 then 8 else 0)
  port ≠ 5 ∧ b.length = total ∧ len = total ∧ n ≤ 4080 ∧ total ≤ 4096 ∧
    opInfo (u16 b 0 % 4096) = some i ∧ crc32c (slice b 0 12 ++ slice b 16 (min i.ctl n)) = word (u32 b 12) ∧
    q = { letter := letterOf port src b, opc := u16 b 0 % 4096, arrival := s.now, gap := false } ∧
    i.classes.contains cls = true ∧ u8 b 6 = port.val ∧ u8 b 7 < 4 ∧ i.len.ok q.letter.payload = true ∧
    (s.portQueue port).length < 64 ∧ s.shareOk q = true ∧ s.reserved port + i.stages ≤ 128

/-- The value that a letter's deadline is compared with: N of R78, or N + 1 for ABORT (R80). -/
def lateBy (q : Queued) (s : State) : Nat := s.windows q + (if q.opc = 0x0F0 then 1 else 0)

/-- All the checks of R72 passed. -/
def Arrives (port : Fin 6) (src : Addr) (len : Nat) (b : List Byte) (i : OpInfo) (q : Queued) (s : State) : Prop :=
  Fits port src len b i q s ∧ (q.letter.deadline = 0 ∨ lateBy q s ≤ q.letter.deadline.toNat)

/-! ### The life-cycle -/

/-- A transition that is being written runs along an edge of R535. -/
def State.edgeOk (s : State) : Prop := ∀ t, s.flash.lcTarget = some t → transitionOk s.flash.lc t = true

/-! ### Mill instructions -/

/-- Mill `m` issues the instruction `o` of `n` bytes next: it executes, the fetch finds `o`, no event is due, and a control
instruction stands neither in a delay slot nor at the end of a loop (R409-R414). `t` is the state after the fetch, in which the
mill's own sources raised so far are pending. -/
def Issues (m : Fin 4) (o : MillOp) (n : Nat) (s t : State) : Prop :=
  (s.mill.mill[m]).executes = true ∧ s.engineRuns = true ∧
    (∃ t0, s.millFetch m = .ok (o, n, t0) ∧ t = t0.setMill m { t0.mill.mill[m] with raised := 0 }) ∧ (s.mill.mill[m]).eventDue = false ∧
    (o.control = true → (s.mill.mill[m]).delay = 0 ∧ (s.mill.mill[m]).nearEnd = false)

/-- The cycles that mill `m` waits for an instruction of `n` bytes, of those that its row offers (R386, R392). -/
def waited (m : Fin 4) (stall n : Nat) (s : State) : Nat := min stall ((s.mill.mill[m]).stallMax s.mill.arr n)

/-- Mill `m` after an instruction of `n` bytes that is no transfer: the instruction before completes, `w` waits to be written, the
program counter moves on (R409-R412). `q` is the mill before it, `u` the state with what the instruction does at once, `stall` the
cycles it waited. -/
def issued (m : Fin 4) (stall n : Nat) (q : MillSt) (w : MWrite) (u : State) : State :=
  u.setMill m (((MillSt.retire q w stall n u.mill.mill[m]).advance n).jump
    (q.delay = 1 && q.target.isSome) q.pc n)

/-- Mill `m` after a transfer of `n` bytes: two delay slots follow, then the target if it has one (R411). -/
def jumped (m : Fin 4) (stall n : Nat) (q : MillSt) (w : MWrite) (target : Option Nat) (rte : Bool) (u : State) : State :=
  u.setMill m { (MillSt.retire q w stall n u.mill.mill[m]).follow n with delay := 2, target := target, rte := rte }

/-- A data result with its flags (R405): `x` the exact result, `sat` whether it saturates, `c` the carry. -/
def aluWrite (d : Option (Fin 16)) (sat : Bool) (x : Int) (c : Bool) : MWrite :=
  let r : Word := BitVec.ofInt 32 (if sat then satS 32 x else x)
  ⟨d.map (·, r), some { z := decide (r = 0), n := r.msb, v := decide (x < -(2 ^ 31) ∨ 2 ^ 31 ≤ x), c := c }, none⟩

/-- The state with DOVF set where the exact result lies outside 32 bits (R405, R408). -/
def dovf (m : Fin 4) (x : Int) (u : State) : State := u.millStickyIf (decide (x < -(2 ^ 31) ∨ 2 ^ 31 ≤ x)) m 3 0

/-- An accumulator result written, with ACCV and GUARD (R406, R408). -/
def accWritten (m : Fin 4) (ac : Fin 4) (sat : Bool) (x : Int) (u : State) : State :=
  let v : Int := if sat then clamp (-(2 ^ 71)) (2 ^ 71 - 1) x else sext 72 (ucode 72 x)
  ((u.setMill m ((u.mill.mill[m]).putAcc ac v)).millStickyIf (decide (x < -(2 ^ 71) ∨ 2 ^ 71 ≤ x)) m 0 0).millStickyIf
    (decide (v < -(2 ^ 63) ∨ 2 ^ 63 ≤ v)) m 1 0

end Sys2Proof.Machine
end

