-- ==== Sys2Proof/Certificates/Slice0/Obligations.lean ====
section
/-! DEFINITION. The statements about the model that the provers prove, one `def Obligations.<Name> : Prop` each. -/
open Sys2Proof Sys2Proof.Machine

/-- For every command c and state s, a step of s with c at the front of its queue is exec of c on s with the rest of the queue; on
an empty queue the block idles and the state stays as it is (log 2). -/
def Obligations.StepIsExecOfTheFrontCommand : Prop :=
  (∀ (c : Instr) (rest : List Instr) (s : State), step { s with pending := c :: rest } = exec c { s with pending := rest }) ∧
  (∀ s : State, s.pending = [] → step s = .next s)

/-- Whenever the lane takes the letter and it passes the checks made before the opcode (State.admitted): NOP answers DONE and
changes nothing else; IDENTIFY answers DONE with the ordering code, generation, role, life-cycle state, bank and both firmware
versions as tail; TABLE_READ and TABLE_CHECK, where no uncorrectable word is met, answer the bytes as tail or their CRC-32C in
bytes 16-19, soft errors corrected; TABLE_WRITE and TABLE_FILL of n > 0 bytes that no block uses and that write no
uncorrectable word in part store the bytes; with n = 0 they change nothing; ABORT is kept for the tick instant. -/
def Obligations.GeneralLettersComplete : Prop :=
  Serves .nop 0x000 nopHandler (fun _ _ => True) doneReply noEffect ∧
  Serves .identify 0x001 identifyHandler (fun _ _ => True)
    (fun _ t => .done 0 (orderingCode ++ [BitVec.ofNat 8 t.sys.gen, t.sys.role.setWidth 8, BitVec.ofNat 8 t.flash.lc,
      BitVec.ofNat 8 t.pwr.bank.val] ++ bytesLE 4 (t.bankVersion 0) ++ bytesLE 4 (t.bankVersion 1) ++ bytesLE 4 0)) noEffect ∧
  Serves .tableRead 0x021 tableReadHandler (fun q t => (t.eccRead (u32 q.payload 0) (u32 q.payload 4)).1 = none)
    (fun q t => .done 0 ((t.eccRead (u32 q.payload 0) (u32 q.payload 4)).2.bytesAt (u32 q.payload 0) (u32 q.payload 4)))
    (fun q t => (t.eccRead (u32 q.payload 0) (u32 q.payload 4)).2) ∧
  Serves .tableCheck 0x022 tableCheckHandler (fun q t => (t.eccRead (u32 q.payload 0) (u32 q.payload 4)).1 = none)
    (fun q t => .done (crc32c ((t.eccRead (u32 q.payload 0) (u32 q.payload 4)).2.bytesAt (u32 q.payload 0) (u32 q.payload 4))) [])
    (fun q t => (t.eccRead (u32 q.payload 0) (u32 q.payload 4)).2) ∧
  (∀ a bs, bs ≠ [] → Serves .tableWrite 0x020 tableWriteHandler
    (fun q t => u32 q.payload 0 = a ∧ slice q.payload 8 (u32 q.payload 4) = bs ∧ t.firstUsed a bs.length = none ∧
      t.progInUse a bs.length = false ∧ t.eccPartial a bs.length = none)
    doneReply (fun _ t => ((t.mem.soft.filter (partWord a bs.length)).foldl (fun s w => s.eccCorrect w) t).storeBytes a bs)) ∧
  (∀ a bs, bs ≠ [] → Serves .tableFill 0x023 tableFillHandler
    (fun q t => u32 q.payload 0 = a ∧ fillBytes (u32 q.payload 8) (u32 q.payload 4 / 4) = bs ∧ t.firstUsed a bs.length = none ∧
      t.progInUse a bs.length = false ∧ t.eccPartial a bs.length = none)
    doneReply (fun _ t => ((t.mem.soft.filter (partWord a bs.length)).foldl (fun s w => s.eccCorrect w) t).storeBytes a bs)) ∧
  Serves .tableWrite 0x020 tableWriteHandler (fun q _ => slice q.payload 8 (u32 q.payload 4) = []) doneReply noEffect ∧
  Serves .tableFill 0x023 tableFillHandler (fun q _ => u32 q.payload 4 = 0) doneReply noEffect ∧
  Serves .abort 0x0F0 abortHandler (fun _ _ => True) (fun q t => .later (t.abortRefused q)) noEffect

/-- Whenever the letter is admitted: REG_READ of a register that no view conflict bars answers its word in bytes 16-19 and clears
what an RC field shows; of memory, the little-endian word, soft errors corrected. REG_WRITE of a plain stored register, with
every field in range and no refusal by its block, stores the writable bits and has the register's further effect; REG_MODIFY
does the same with the masked bits and answers the old word. A write to memory outside an active capture stores the four
bytes. -/
def Obligations.RegisterLettersComplete : Prop :=
  Serves .regRead 0x002 regReadHandler (fun q t => u32 q.payload 0 < 0x100000 ∧ t.viewBusy (u32 q.payload 0) = false)
    (fun q t => .done (word (t.readReg (u32 q.payload 0)).1) [])
    (fun q t => (t.readReg (u32 q.payload 0)).2.readClear (u32 q.payload 0)) ∧
  Serves .regRead 0x002 regReadHandler (fun q t => 0x100000 ≤ u32 q.payload 0 ∧ (t.eccRead (u32 q.payload 0) 4).1 = none)
    (fun q t => .done (word (natLE ((t.eccRead (u32 q.payload 0) 4).2.bytesAt (u32 q.payload 0) 4))) [])
    (fun q t => (t.eccRead (u32 q.payload 0) 4).2) ∧
  (∀ a, a < 0x100000 → pairAddrs.contains a = false → pairAddrs.contains (a - 4) = false → a ≠ 0x40824 →
      (regFields a).isEmpty = false →
    Serves .regWrite 0x003 regWriteHandler
      (fun q t => u32 q.payload 0 = a ∧ t.foreign a = false ∧
        outOfRange a (newWord a (t.reg a) (u32 q.payload 4) 0xFFFFFFFF) 0xFFFFFFFF = false ∧
        t.valueBad a (newWord a (t.reg a) (u32 q.payload 4) 0xFFFFFFFF) 0xFFFFFFFF = false ∧
        t.blockRefused a (newWord a (t.reg a) (u32 q.payload 4) 0xFFFFFFFF) 0xFFFFFFFF (u32 q.payload 4 &&& 0xFFFFFFFF) = none ∧
        t.writeSpecial a (u32 q.payload 4) 0xFFFFFFFF = none)
      doneReply
      (fun q t => (t.setReg a (newWord a (t.reg a) (u32 q.payload 4) 0xFFFFFFFF)).afterWrite a (t.reg a)
        (newWord a (t.reg a) (u32 q.payload 4) 0xFFFFFFFF) 0xFFFFFFFF) ∧
    ∀ m v, m ≠ 0 → Serves .regModify 0x004 regModifyHandler
      (fun q t => u32 q.payload 0 = a ∧ u32 q.payload 4 = m ∧ u32 q.payload 8 = v ∧ t.viewBusy a = false ∧
        (t.readReg a).2.foreign a = false ∧ outOfRange a (newWord a ((t.readReg a).2.reg a) v m) m = false ∧
        (t.readReg a).2.valueBad a (newWord a ((t.readReg a).2.reg a) v m) m = false ∧
        (t.readReg a).2.blockRefused a (newWord a ((t.readReg a).2.reg a) v m) m (v &&& m) = none ∧
        (t.readReg a).2.writeSpecial a v m = none)
      (fun _ t => .done (word (t.readReg a).1) [])
      (fun _ t => ((t.readReg a).2.setReg a (newWord a ((t.readReg a).2.reg a) v m)).afterWrite a ((t.readReg a).2.reg a)
        (newWord a ((t.readReg a).2.reg a) v m) m)) ∧
  (∀ a, 0x100000 ≤ a → Serves .regWrite 0x003 regWriteHandler
    (fun q t => u32 q.payload 0 = a ∧ t.captureAt a 4 = none ∧ t.eccPartial a 4 = none) doneReply
    (fun q t => ((t.mem.soft.filter (touches a 4)).foldl (fun s w => s.eccCorrect w) t).storeBytes a
      (bytesLE 4 (u32 q.payload 4))))

/-- Whenever the letter is admitted. Step 1, without a lockout or a session on another port, keeps a fresh challenge for the port
and answers it in bytes 16-19. Step 2, with a valid tag over a challenge of at most 10 s, opens the session on the port with
that challenge and sequence number and uses the challenge up. Step 3, admitted as a class 3 letter of the session, ends the
session. -/
def Obligations.SessionLettersComplete : Prop :=
  Serves .sessionOpenChallenge 0x0F1 sessionHandler
    (fun q t => u32 q.payload 0 = 1 ∧ t.lockedOut = false ∧ t.otherSession q.port = none)
    (fun _ t => .done (Config.freeWord t.free) [])
    (fun q t => { t with free := t.free + 1, lb := { t.lb with
      challenges := t.lb.challenges.set q.port (some ⟨Config.freeWord t.free, t.now⟩) } }) ∧
  (∀ c : Challenge, Serves .sessionOpenProve 0x0F1 sessionHandler
    (fun q t => u32 q.payload 0 = 2 ∧ t.lockedOut = false ∧ t.otherSession q.port = none ∧ t.lb.challenges[q.port] = some c ∧
      t.now ≤ c.pm + 800000000 ∧ t.tagFor c.value 0x0F1 4 q = q.tag.toNat)
    doneReply
    (fun q t => { t with lb := { t.lb with
      challenges := t.lb.challenges.set q.port none,
      session := some { port := q.port, challenge := c.value, lastSeq := q.seq.toNat, lastDone := t.now } } })) ∧
  (∀ x : Session, Serves .sessionOpenClose 0x0F1 sessionHandler
    (fun q t => u32 q.payload 0 = 3 ∧ t.lb.session = some x ∧ x.port = q.port)
    doneReply (fun _ t => { t with lb := { t.lb with session := none } }))

/-- With the letterbox up. A letter that passes the checks of R72 joins its source queue, from any port, an inbox post, the last
CAN segment, or the service UART behind its start mark. An inbox write is stored while INBOX_READY is 1 and sets POST_ERR
while it is 0; a host write of 1 to POST_ERR clears it; a post makes the inbox busy for a free time. HP_TAKE drops the outbox
receipt. RD of the event ring is taken where at most 256 records are then unread. A first CAN segment opens a reassembly and
the next in order extends it; more than 10 ms without one discards it, counted as a dead letter. A gap above 1 ms within a
UART letter discards it, a dead letter of port 3. TIMEOUT ends a session; 60 s end the lockout. -/
def Obligations.LetterboxEventsComplete : Prop :=
  (∀ dt port b i q s, (s.advance dt).boxUp = true → Arrives port ⟨0, 0⟩ b.length b i q (s.advance dt) →
    exec (.letterArrival dt port b) s = .next ((s.advance dt).enqueue q)) ∧
  (∀ dt b i q s t, (s.advance dt).boxUp = true → s.lb.uart = [] →
    t = { s.advance dt with lb := { (s.advance dt).lb with uartAt := (s.advance dt).now } } →
    Arrives 3 ⟨0, 0⟩ b.length b i q t →
    exec (.uartLetter dt (0xA5#8 :: 0x5A#8 :: b)) s = .next { t.enqueue q with lb := { (t.enqueue q).lb with uart := [] } }) ∧
  (∀ dt (n : Fin 8192) i q s t, (s.advance dt).boxUp = true → (s.advance dt).inboxReady = true →
    t = { s.advance dt with free := s.free + 1, lb := { (s.advance dt).lb with
      inboxBusy := (s.advance dt).now + Config.freeNat s.free % (80 + n.val / 5 + 1) } } →
    Arrives 0 ⟨0, 0⟩ n.val ((List.range (min n.val 4096)).map fun k => aget inboxDefault k s.lb.inbox) i q t →
    exec (.hpPost dt n) s = .next (t.enqueue q)) ∧
  (∀ dt (o : Fin 65536) b s, (s.advance dt).boxUp = true → 0x1000 ≤ o.val → o.val < 0x2000 →
    exec (.inboxWrite dt o b) s = .next (if (s.advance dt).inboxReady then
    { s.advance dt with lb := { (s.advance dt).lb with inbox := putInbox (o.val - 0x1000) b s.lb.inbox } }
    else { s.advance dt with lb := { (s.advance dt).lb with postErr := true } })) ∧
  (∀ dt x b s, (s.advance dt).portUp = true → bitAt x.toNat 1 = true → exec (.inboxWrite dt 0 (x :: b)) s =
    .next { s.advance dt with lb := { (s.advance dt).lb with postErr := false } }) ∧
  (∀ dt s, (s.advance dt).portUp = true → exec (.hpTake dt true) s =
    .next { s.advance dt with lb := { (s.advance dt).lb with rcpt0 := s.lb.rcpt0.drop 1 } }) ∧
  (∀ dt (rd : Fin 512) s, (s.advance dt).portUp = true → (s.ev.wr + 512 - rd.val) % 512 ≤ 256 →
    exec (.hpEvidxWrite dt rd) s = .next { s.advance dt with ev := { s.ev with rd := rd.val } }) ∧
  (∀ dt (c : Fin 3) (sender : Fin 64) (dest : Fin 4096) data s, (s.advance dt).boxUp = true →
    (s.advance dt).canActive c = true → (s.advance dt).canCfg c 9 1 = 1 → dest.val = (s.advance dt).ownNumber c →
    sender.val ≠ 0 → data ≠ [] → data.length ≤ 64 →
    (bitAt (u8 data 0) 7 = true → bitAt (u8 data 0) 6 = false → u8 data 0 % 64 = 0 → s.reasmOf c sender.val = none →
      (s.lb.reasm.filter (·.ctrl = c)).length < 4 → s.lb.reasm.all (fun r => !(r.ctrl = c && r.sender = sender.val)) = true →
      exec (.canLetterSegment dt c sender dest data) s = .next { s.advance dt with lb := { (s.advance dt).lb with
        reasm := s.lb.reasm ++ [⟨c, sender.val, 1, data.drop 1, (s.advance dt).now⟩] } }) ∧
    (∀ r, s.reasmOf c sender.val = some r → (s.advance dt).now ≤ r.last + 800000 → bitAt (u8 data 0) 7 = false →
      u8 data 0 % 64 = r.next →
      (bitAt (u8 data 0) 6 = false → exec (.canLetterSegment dt c sender dest data) s =
        .next { s.advance dt with lb := { (s.advance dt).lb with
          reasm := s.lb.reasm.filter (fun x => !(x.ctrl = c && x.sender = sender.val)) ++
            [{ r with next := (r.next + 1) % 64, bytes := r.bytes ++ data.drop 1, last := (s.advance dt).now }] } }) ∧
      (∀ i q, bitAt (u8 data 0) 6 = true →
        Arrives (canPort c) ⟨c, sender⟩ (trimPad (r.bytes ++ data.drop 1)).length (trimPad (r.bytes ++ data.drop 1)) i q
          ((s.advance dt).reasmDrop c sender.val) →
        exec (.canLetterSegment dt c sender dest data) s = .next (((s.advance dt).reasmDrop c sender.val).enqueue q)))) ∧
  (∀ dt (c : Fin 3) (sender : Fin 64) r s, (s.advance dt).inReset = false → s.reasmOf c sender.val = some r →
    r.last + 800000 < (s.advance dt).now → exec (.canReassemblyTimeout dt c sender) s =
      .next (((s.advance dt).reasmDrop c sender.val).deadLetter (canPort c) 4)) ∧
  (∀ dt s, (s.advance dt).boxUp = true → 2 ≤ s.lb.uart.length → s.lb.uartAt + 80000 < (s.advance dt).now →
    exec (.uartGapTimeout dt) s =
      .next (({ s.advance dt with lb := { (s.advance dt).lb with uart := [] } } : State).deadLetter 3 4)) ∧
  (∀ dt x s, (s.advance dt).inReset = false → s.lb.session = some x →
    x.lastDone + s.fld 0x10050 16 16 * 80000000 ≤ (s.advance dt).now → exec (.sessionTimeout dt) s =
      .next { s.advance dt with lb := { (s.advance dt).lb with session := none } }) ∧
  (∀ dt e s, (s.advance dt).inReset = false → s.lb.lockEnd = some e → e ≤ (s.advance dt).now →
    exec (.sessionLockoutEnd dt) s = .next { s.advance dt with lb := { (s.advance dt).lb with
      lockEnd := none, fails := s.lb.fails.filter ((s.advance dt).now < · + 4800000000) } })

/-- Whenever the REG_WRITE is admitted and no rule refuses it (Allowed). SYS_BGEN, SYS_TICK and LETTER_BUDGET store their fields
and put GEN_NEXT, PERIOD_NEXT, BUDGET_NEXT into the next-value record; LETTER_SHARE stores its field; SYS_KEYCTL with the
CRC-32C of the staged bytes makes them the stored key and clears the staging; LANE_TKSTOP written 0 clears cause TAKEOVER and
posts CAUSE_CLEARED; PWR_CFG stores its fields and switches ENC_PWR: off with ENCPWR 0, on with ENCPWR 1 unless a fault has
not been acknowledged by a 0. Nothing else changes but receipt, journal and counts. -/
def Obligations.SystemRegisterWritesComplete : Prop :=
  ServesWrite .sysBgenWrite 0x14 (Allowed 0x14)
    (fun v t => (t.setReg 0x14 (written 0x14 v t)).setFlash { t.flash with genNext := some (bitsAt (written 0x14 v t) 8 8) }) ∧
  ServesWrite .sysTickWrite 0x20 (Allowed 0x20)
    (fun v t => (t.setReg 0x20 (written 0x20 v t)).setFlash { t.flash with periodNext := some (bitsAt (written 0x20 v t) 8 8) }) ∧
  ServesWrite .letterBudgetWrite 0x10000 (Allowed 0x10000)
    (fun v t => (t.setReg 0x10000 (written 0x10000 v t)).setFlash
      { t.flash with budgetNext := some (bitsAt (written 0x10000 v t) 8 8) }) ∧
  (∀ p : Fin 6, ServesWrite (fun h v => .letterShareWrite h p v) (0x10010 + 4 * p.val) (Allowed (0x10010 + 4 * p.val))
    (fun v t => t.setReg (0x10010 + 4 * p.val) (written (0x10010 + 4 * p.val) v t))) ∧
  ServesWrite .sysKeyctlWrite 0x80 (fun v t => Allowed 0x80 v t ∧ crc32c t.flash.stage = v)
    (fun _ t => t.setFlash { t.flash with key := some t.flash.stage, stage := List.replicate 32 0#8 }) ∧
  ServesWrite .laneTkstopWrite 0x8003C (fun v t => Allowed 0x8003C v t ∧ v.toNat % 2 = 0 ∧ t.lane.tkstop = true)
    (fun _ t => (t.setLane { t.lane with tkstop := false }).post 0x070B 0x200) ∧
  ServesWrite .encPwrRestore 0xF0004 (Allowed 0xF0004)
    (fun v t =>
      let u := t.setReg 0xF0004 (written 0xF0004 v t)
      if u.fld 0xF0004 2 1 = 0 then u.setPwr { t.pwr with encOn := false, encFault := t.pwr.encFault.map fun _ => true }
      else if t.pwr.encFault = some false then u
      else u.setPwr { t.pwr with encOn := decide (t.pwr.mode ≠ .sleep), encFault := none })

/-- Whenever the REG_WRITE is admitted and no rule refuses it. A high half brings both halves of its pair into force; a FAULT flag
of an encoder or of the door stage, or TRIP, whose cause is absent is cleared; SSI0_CFG with EN rising restarts the reading; a
COUNT of SENSE_LAND_CFG copies a valid rising table; a BANK bit that changes under a running slot, and MILL, are stored; a
stable coefficient goes to its bank at once, or behind the writes that wait for it, or to the queue of a slot in RUN or
BLOCKED whose bank it is; NOTCH_CFG, HOIST_K, COG_ADDR and LOOP_CAPSEL are stored, the cogging range in force staying in use
until the next sample. -/
def Obligations.MotionRegisterWritesComplete : Prop :=
  (∀ n : Fin 18, ServesWrite (fun h v => .positionHiWrite h n v) (pairAddrs.getD n.val 0 + 4)
    (fun v t => Allowed (pairAddrs.getD n.val 0 + 4) v t ∧
      (plainPairs.contains (pairAddrs.getD n.val 0) = true ∨
        posOk (t.halfLo (pairAddrs.getD n.val 0) + 2 ^ 32 * v.toNat) = true) ∧
      ((n = 14 ∨ n = 15) → t.doorTravelOk (pairAddrs.getD n.val 0)
        (sext 64 (t.halfLo (pairAddrs.getD n.val 0) + 2 ^ 32 * v.toNat)) = true))
    (fun v t => { t with half := adel (pairAddrs.getD n.val 0) t.half, latch := adel (pairAddrs.getD n.val 0 + 4) t.latch }.setPair
      (pairAddrs.getD n.val 0) (sext 64 (t.halfLo (pairAddrs.getD n.val 0) + 2 ^ 32 * v.toNat)))) ∧
  (∀ k : Fin 3, ServesWrite (fun h v => .encFaultClear h k v) (0x40128 + 0x100 * k.val)
    (fun v t => Allowed (0x40128 + 0x100 * k.val) v t ∧ bitAt v.toNat 0 = true ∧ t.sense.fault[k] = true ∧
      t.encCauseAbsent k = true)
    (fun _ t =>
      let u : State := { t with sense := { t.sense with fault := t.sense.fault.set k false } }
      if u.encGood k then
        ({ u with sense := { u.sense with known := u.sense.known.set (srcIdx (3 + k.val)) true } }).post 0x0405 (3 + k.val)
      else u)) ∧
  ServesWrite (fun h v => .ssi0ConfigWrite h true v) 0x40404 (Allowed 0x40404)
    (fun v t => t.setReg 0x40404 (written 0x40404 v t)) ∧
  ServesWrite (fun h v => .ssi0ConfigWrite h false v) 0x40400 (Allowed 0x40400)
    (fun v t =>
      let u := t.setReg 0x40400 (written 0x40400 v t)
      if bitsAt (written 0x40400 v t) 15 1 = 0 then
        { u with sense := { t.sense with known := t.sense.known.set 1 false, ssiGood := 0 } }
      else if t.fld 0x40400 15 1 = 0 then
        { u with sense := { t.sense with
          ssiBad := 0, ssiGood := 0, ssiNew := none, ssiOld := none, ssiFrom := t.now } }
      else u) ∧
  ServesWrite .senseLandCountWrite 0x40824 (fun v t => Allowed 0x40824 v t ∧ bitsAt (written 0x40824 v t) 0 8 = 0)
    (fun v t => { t.setReg 0x40824 (written 0x40824 v t) with sense := { t.sense with landNext := some [] } }) ∧
  (∀ k : Nat, 0 < k → ServesWrite .senseLandCountWrite 0x40824
    (fun v t => Allowed 0x40824 v t ∧ bitsAt (written 0x40824 v t) 0 8 = k ∧ t.reg 0x40820 % 8 = 0 ∧
      tableRange (t.reg 0x40820) (8 * k) = true ∧ (t.eccRead (t.reg 0x40820) (8 * k)).1 = none ∧
      ∀ n < k, posOk ((t.eccRead (t.reg 0x40820) (8 * k)).2.cell32 (t.reg 0x40820 + 8 * n) +
          2 ^ 32 * (t.eccRead (t.reg 0x40820) (8 * k)).2.cell32 (t.reg 0x40820 + 8 * n + 4)) = true ∧
        (n + 1 < k → sext 64 ((t.eccRead (t.reg 0x40820) (8 * k)).2.cell32 (t.reg 0x40820 + 8 * n) +
            2 ^ 32 * (t.eccRead (t.reg 0x40820) (8 * k)).2.cell32 (t.reg 0x40820 + 8 * n + 4)) <
          sext 64 ((t.eccRead (t.reg 0x40820) (8 * k)).2.cell32 (t.reg 0x40820 + 8 * (n + 1)) +
            2 ^ 32 * (t.eccRead (t.reg 0x40820) (8 * k)).2.cell32 (t.reg 0x40820 + 8 * (n + 1) + 4))))
    (fun v t =>
      let u := (t.eccRead (t.reg 0x40820) (8 * k)).2
      { u.setReg 0x40824 (written 0x40824 v t) with sense := { u.sense with
        landNext := some ((List.range k).map fun n => sext 64 (u.cell32 (t.reg 0x40820 + 8 * n) +
          2 ^ 32 * u.cell32 (t.reg 0x40820 + 8 * n + 4))) } })) ∧
  (∀ n : Fin 16, ServesWrite (fun h v => .loopBankWrite h n v) (slotBase n.val) (Allowed (slotBase n.val))
      (fun v t =>
        let u := t.setReg (slotBase n.val) (written (slotBase n.val) v t)
        let q := t.loop.slots[n]
        if bitAt (t.reg (slotBase n.val)) 3 ≠ bitAt (written (slotBase n.val) v t) 3 ∧ (q.mode = 1 ∨ q.mode = 2) then
          u.setSlot n (q.bankSwitched (bitAt (t.reg (slotBase n.val)) 3)) else u) ∧
    ServesWrite (fun h v => .loopMillWrite h n v) (slotBase n.val)
      (fun v t => Allowed (slotBase n.val) v t ∧
        bitAt (t.reg (slotBase n.val)) 3 = bitAt (written (slotBase n.val) v t) 3)
      (fun v t => t.setReg (slotBase n.val) (written (slotBase n.val) v t))) ∧
  (∀ (n : Fin 16) (b : Fin 2) (k : Fin 42), ServesWrite (fun h v => .coefWrite h n b k v)
    (0x31000 + 0x200 * n.val + 0x100 * b.val + 4 * k.val)
    (fun v t => Allowed (0x31000 + 0x200 * n.val + 0x100 * b.val + 4 * k.val) v t ∧ t.scheduled n.val = false ∧
      t.loop.slots[n].queue.length < 16 ∧
      (k.val < 40 → sectionStable (t.loop.slots[n].integ (k.val / 5))
        (coefAt ((t.bankAhead n (decide (b = 1))).set k.val (sext 31 v.toNat)) (5 * (k.val / 5) + 3))
        (coefAt ((t.bankAhead n (decide (b = 1))).set k.val (sext 31 v.toNat)) (5 * (k.val / 5) + 4)) = true))
    (fun v t =>
      let q := t.loop.slots[n]
      if (decide (b = 1) : Bool) = t.bankSel n.val ∧ (q.mode = 1 ∨ q.mode = 2) ∨ q.queue.any (·.1 = decide (b = 1)) = true then
        t.setSlot n { q with queue := q.queue ++ [(decide (b = 1), k.val, sext 31 v.toNat)] }
      else t.setSlot n (q.putBank (decide (b = 1)) ((if b = 1 then q.bank1 else q.bank0).set k.val (sext 31 v.toNat))))) ∧
  ServesWrite .notchEnWrite 0x35000 (Allowed 0x35000) (fun v t => t.setReg 0x35000 (written 0x35000 v t)) ∧
  ServesWrite .hoistKWrite 0x34000 (Allowed 0x34000)
    (fun v t => { t.setReg 0x34000 (written 0x34000 v t) with loop := { t.loop with
      kbad := !carrierOk (bitsAt (written 0x34000 v t) 0 5) t.sys.period } }) ∧
  ServesWrite .hoistTripClear 0x34014
    (fun v t => Allowed 0x34014 v t ∧ bitAt v.toNat 0 = true ∧ t.loop.trip = true ∧ t.curOff = true)
    (fun _ t => { t with loop := { t.loop with trip := false } }) ∧
  ServesWrite .cogAddrWrite 0x36004 (Allowed 0x36004)
    (fun v t =>
      let u := t.setReg 0x36004 (written 0x36004 v t)
      if u.fld 0x36000 0 1 = 1 then { u with loop := { u.loop with cogOld := some (t.loop.cogOld.getD (t.reg 0x36004)) } } else u) ∧
  (∀ k : Fin 16, ServesWrite (fun h v => .loopCapselWrite h k v) (0x37000 + 4 * k.val) (Allowed (0x37000 + 4 * k.val))
    (fun v t => t.setReg (0x37000 + 4 * k.val) (written (0x37000 + 4 * k.val) v t))) ∧
  ServesWrite .doorFaultClear 0x50000
    (fun v t => Allowed 0x50000 v t ∧ bitAt v.toNat 8 = true ∧ t.door.fault = true ∧ t.stageCauseAbsent = true)
    (fun _ t => t.setDoor { t.door with fault := false }) ∧
  (∀ o : Bool, ServesWrite (fun h v => .doorPositionWrite h o v) (0x50024 + 8 * b2n o)
    (fun v t => Allowed (0x50024 + 8 * b2n o) v t ∧ posOk (t.halfLo (0x50020 + 8 * b2n o) + 2 ^ 32 * v.toNat) = true ∧
      t.doorTravelOk (0x50020 + 8 * b2n o) (sext 64 (t.halfLo (0x50020 + 8 * b2n o) + 2 ^ 32 * v.toNat)) = true)
    (fun v t => { t with half := adel (0x50020 + 8 * b2n o) t.half, latch := adel (0x50024 + 8 * b2n o) t.latch }.setPair
      (0x50020 + 8 * b2n o) (sext 64 (t.halfLo (0x50020 + 8 * b2n o) + 2 ^ 32 * v.toNat))))

/-- Whenever the REG_WRITE is admitted and no rule refuses it. LOCK_STAT clears the latched causes written 1 and posts
CAUSE_CLEARED with them; MILLk_FLAGS clears the sticky flags written 1; MILLk_SIG written 1 raises SIG of a mill that
executes; MILLk_EVVEC is stored; FIO_STAT.LINKOFF is cleared; CANx_LOCKw sets the locks of dedicated receive buffers, and each
lock released takes in a full shadow; CANx_NBT, CANx_DBT, GROUP_CFG and GROUP_TIMING are stored. -/
def Obligations.UnitRegisterWritesComplete : Prop :=
  ServesWrite .lockCauseClear 0x70000 (fun v t => Allowed 0x70000 v t ∧ t.causeBits v.toNat ≠ 0)
    (fun v t => (t.setLock { t.lock with
      ucm := t.lock.ucm && !bitAt (t.causeBits v.toNat) 3,
      bridge := t.lock.bridge && !bitAt (t.causeBits v.toNat) 4,
      disagree := t.lock.disagree && !bitAt (t.causeBits v.toNat) 5,
      bypass := t.lock.bypass && !bitAt (t.causeBits v.toNat) 6 }).post 0x070B (t.causeBits v.toNat)) ∧
  (∀ m : Fin 4, ServesWrite (fun h v => .millFlagsClear h m v) (0x90004 + 0x100 * m.val) (Allowed (0x90004 + 0x100 * m.val))
      (fun v t => t.setMill m { t.mill.mill[m] with
        sticky := t.mill.mill[m].sticky &&& ~~~ BitVec.ofNat 4 v.toNat,
        stickyE := t.mill.mill[m].stickyE &&& ~~~ BitVec.ofNat 4 v.toNat }) ∧
    ServesWrite (fun h v => .millSigWrite h m v) (0x90010 + 0x100 * m.val)
      (fun v t => Allowed (0x90010 + 0x100 * m.val) v t ∧ bitAt v.toNat 0 = true ∧ (t.mill.mill[m]).executes = true)
      (fun _ t => t.millRaise m 5) ∧
    ServesWrite (fun h v => .millEvvecWrite h m v) (0x9000C + 0x100 * m.val) (Allowed (0x9000C + 0x100 * m.val))
      (fun v t => t.setReg (0x9000C + 0x100 * m.val) (written (0x9000C + 0x100 * m.val) v t))) ∧
  ServesWrite .fioLinkoffClear 0xA0000 (fun v t => Allowed 0xA0000 v t ∧ bitAt v.toNat 3 = true)
    (fun _ t => t.setFio { t.fio with linkOff := false }) ∧
  (∀ (c : Fin 3) (w : Fin 8), ServesWrite (fun h v => .canLockWrite h c w v) (canBase c.val + 0x20 + 4 * w.val)
    (Allowed (canBase c.val + 0x20 + 4 * w.val))
    (fun v t =>
      let q := t.can[c]
      let new : BitVec 256 := maskOf 256 fun b =>
        if b / 32 = w.val then bitAt v.toNat (b % 32) && decide (t.bufUse c b = 2) else q.lock.getLsbD b
      t.setCan c (((List.range 256).filter fun b => q.lock.getLsbD b && !new.getLsbD b).foldl (fun q b => q.release b)
        { q with lock := new }))) ∧
  (∀ (c : Fin 3) (d : Bool), ServesWrite (fun h v => .canBitTimingWrite h c d v) (canBase c.val + 8 + 4 * b2n d)
    (Allowed (canBase c.val + 8 + 4 * b2n d))
    (fun v t => t.setReg (canBase c.val + 8 + 4 * b2n d) (written (canBase c.val + 8 + 4 * b2n d) v t))) ∧
  (∀ d : Bool, ServesWrite (fun h v => .groupCfgWrite h d v) (0x60004 + 4 * b2n d) (Allowed (0x60004 + 4 * b2n d))
    (fun v t => t.setReg (0x60004 + 4 * b2n d) (written (0x60004 + 4 * b2n d) v t)))

/-- Whenever the letter is admitted. MOVE_RUN on a still unit with permit and limits, whose table has no uncorrectable word, no
bad record and starts at the state of the unit, and whose direction no limit guards, is QUEUED and starts the run at record 0.
MOVE_TRAP with speeds within the limits and enough distance is QUEUED and starts the profile; to the present position it ends
DONE at once. MOVE_TAIL before its record is reached keeps the tail. MOVE_STOP orders the stop of a moving unit; for a still
one it ends DONE at once. The letters change nothing else but letterbox, journal and what reading memory corrects. -/
def Obligations.MoveLettersComplete : Prop :=
  (∀ (u : Fin 4) (a n : Nat), Serves .moveRun 0x030 moveRunHandler
    (fun q t => unitOf (u32 q.payload 0) = u ∧ u32 q.payload 4 = a ∧ u32 q.payload 8 = n ∧ t.moveRefused u = none ∧
      (t.eccRead a (32 * n)).1 = none ∧
      tableBad (fun g => decide ((g.p0 * 65536 - (t.eccRead a (32 * n)).2.ramp[u].pos).natAbs ≤ 65536) && g.v0 = 0 && g.a0 = 0)
        ((t.eccRead a (32 * n)).2.limitsLane u) (t.eccRead a (32 * n)).2.sys.period ((t.eccRead a (32 * n)).2.segBytes a n) = none ∧
      ∃ g, (((t.eccRead a (32 * n)).2.segBytes a n).map segOf).getLast? = some g ∧
        let dx := (g.fin (t.eccRead a (32 * n)).2.sys.period).1 * 65536 - (t.eccRead a (32 * n)).2.ramp[u].pos
        (0 < dx → (t.eccRead a (32 * n)).2.limitGuards u true = false) ∧
        (dx < 0 → (t.eccRead a (32 * n)).2.limitGuards u false = false))
    (fun _ _ => .queued (.move u))
    (fun _ t => (t.eccRead a (32 * n)).2.setRamp u { (t.eccRead a (32 * n)).2.ramp[u] with
      motion := .run { pieces := [⟨0, a, n⟩], idx := 0, n := 0, seg := none }, why := [], used := [(a, 32 * n)] })) ∧
  (∀ (u : Fin 4) (target : Int), Serves .moveTrap 0x031 moveTrapHandler
    (fun q t => unitOf (u8 q.payload 0) = u ∧ t.moveRefused u = none ∧
      t.reg (rampBase u + 0x30) ≤ (t.limitsLane u).speed ∧ t.reg (rampBase u + 0x34) ≤ (t.limitsLane u).speed ∧
      t.reg (rampBase u + 0x38) ≤ (t.limitsLane u).speed ∧
      (t.reg (rampBase u + 0x30) < t.reg (rampBase u + 0x38) → t.reg (rampBase u + 0x3C) ≠ 0) ∧
      target = sext 64 (u64 q.payload 8) * 65536 + (if u8 q.payload 1 = 0 then 0 else t.ramp[u].pos) ∧
      target ≠ t.ramp[u].pos ∧ t.limitGuards u (decide (t.ramp[u].pos < target)) = false ∧
      trapTooShort (target - t.ramp[u].pos).natAbs (t.reg (rampBase u + 0x30)) (t.reg (rampBase u + 0x34)) (t.limitsLane u).dec
        t.sys.period = false)
    (fun _ _ => .queued (.move u))
    (fun _ t => t.setRamp u { t.ramp[u] with motion := .trap (trapNew target none), why := [] })) ∧
  (∀ u : Fin 4, Serves .moveTrap 0x031 moveTrapHandler
    (fun q t => unitOf (u8 q.payload 0) = u ∧ t.moveRefused u = none ∧
      t.reg (rampBase u + 0x30) ≤ (t.limitsLane u).speed ∧ t.reg (rampBase u + 0x34) ≤ (t.limitsLane u).speed ∧
      t.reg (rampBase u + 0x38) ≤ (t.limitsLane u).speed ∧
      (t.reg (rampBase u + 0x30) < t.reg (rampBase u + 0x38) → t.reg (rampBase u + 0x3C) ≠ 0) ∧
      sext 64 (u64 q.payload 8) * 65536 + (if u8 q.payload 1 = 0 then 0 else t.ramp[u].pos) = t.ramp[u].pos)
    (fun _ _ => .ended (.move u) .done 0 0)
    (fun _ t => t.setRamp u { t.ramp[u] with ended := some (.done, 0, 0, t.now) })) ∧
  (∀ (u : Fin 4) (f a m : Nat) (x : SegRun) (start : Int × Int × Int), Serves .moveTail 0x032 moveTailHandler
    (fun q t => unitOf (u16 q.payload 0) = u ∧ u16 q.payload 2 = f ∧ u32 q.payload 4 = a ∧ u32 q.payload 8 = m ∧
      t.doorOwns u = false ∧ t.ramp[u].motion = .run x ∧ t.ramp[u].tail = none ∧
      t.permit (t.fld (rampBase u + 4) 4 4) = true ∧ (t.limitsLane u).unset = false ∧
      x.idx ≤ f ∧ (x.seg.isSome = true → x.idx < f) ∧ 2 ≤ t.ticksTo x f ∧ (t.eccRead a (32 * m)).1 = none ∧
      start = (if f = 0 then match pieceOf 0 x.pieces with
          | some (b, _) => (segOf ((t.eccRead a (32 * m)).2.cellsFrom b 32)).start
          | none => (roundAway (t.eccRead a (32 * m)).2.ramp[u].pos 65536, 0, 0)
        else match pieceOf (f - 1) x.pieces with
          | some (b, _) => (segOf ((t.eccRead a (32 * m)).2.cellsFrom b 32)).fin (t.eccRead a (32 * m)).2.sys.period
          | none => (roundAway (t.eccRead a (32 * m)).2.ramp[u].pos 65536, 0, 0)) ∧
      tableBad (fun g => statesNear start g.start) ((t.eccRead a (32 * m)).2.limitsLane u) (t.eccRead a (32 * m)).2.sys.period
        ((t.eccRead a (32 * m)).2.segBytes a m) = none)
    (fun _ _ => .queued (.tail u))
    (fun _ t => (t.eccRead a (32 * m)).2.setRamp u { (t.eccRead a (32 * m)).2.ramp[u] with tail := some ⟨f, a, m⟩ })) ∧
  (∀ u : Fin 4, Serves .moveStop 0x033 moveStopHandler
      (fun q t => unitOf (u8 q.payload 0) = u ∧ t.doorOwns u = false ∧ t.moving u = true) (fun _ _ => .queued (.stop u))
      (fun q t => t.orderStop u (decide (u8 q.payload 1 = 1)) .moveStop) ∧
    Serves .moveStop 0x033 moveStopHandler
      (fun q t => unitOf (u8 q.payload 0) = u ∧ t.doorOwns u = false ∧ t.moving u = false)
      (fun _ _ => .ended (.stop u) .done 0 0) noEffect)

/-- Whenever the letter is admitted, or the event's condition holds out of reset. SET_LIMITS keeps the limits for the next tick
instant; HOME starts the search, or the back-off where the reference is already active; GEAR_SET loads a gear table, or with n
= 0 takes the gear away. LIMIT_STOP on an accepted edge of an enabled limit input that guards the direction of travel orders
the stop and posts 0x0205. HOME_REARM_END starts the search again, HOME_CAPTURE, on an edge that falls in the search and with
no accepted limit edge in its sample, latches the captured position, HOME_ADJUST shifts the position by HOME minus the capture
and creeps home, HOME_SEARCH_EXHAUSTED and HOME_LIMIT order the stop. -/
def Obligations.LimitsHomingAndGearComplete : Prop :=
  (∀ u : Fin 4, Serves .setLimits 0x034 setLimitsHandler
    (fun q t => unitOf (u32 q.payload 0) = u ∧ t.doorOwns u = false) doneReply
    (fun q t => t.setRamp u { t.ramp[u] with
      next := some ⟨u32 q.payload 4, u32 q.payload 8, u32 q.payload 12, u32 q.payload 16, u32 q.payload 20⟩ })) ∧
  (∀ u : Fin 4, Serves .home 0x035 homeHandler
    (fun q t => unitOf (u8 q.payload 0) = u ∧ t.moveRefused u = none ∧ t.fld (rampBase u + 4) 0 4 ≠ 0 ∧
      t.reg (rampBase u + 0x78) ≠ 0)
    (fun _ _ => .queued (.home u))
    (fun q t =>
      let active := t.inActive (u8 q.payload 2)
      let neg := decide (u8 q.payload 1 = 1)
      t.setRamp u { t.ramp[u] with
        homing := some { neg := neg, ref := u8 q.payload 2, rearm := if u8 q.payload 3 = 0 then 20 else u8 q.payload 3,
                         search := u32 q.payload 4, creep := u32 q.payload 8, opp := u32 q.payload 12,
                         step := if active then .backOff else .search, start := t.ramp[u].pos, capture := 0, oppLast := none,
                         began := t.now, since := t.now }
        homed := false
        motion := .trap (if active then trapNew (farTarget neg) (some (u32 q.payload 8))
          else trapNew (farTarget (!neg)) (some (u32 q.payload 4)))
        why := [] })) ∧
  (∀ u : Fin 4, Serves .gearSet 0x036 gearSetHandler
      (fun q t => unitOf (u8 q.payload 0) = u ∧ t.moving u = false ∧ u32 q.payload 8 = 0) doneReply
      (fun _ t => t.setRamp u { t.ramp[u] with gear := { t.ramp[u].gear with
        source := 0, frozen := false, pts := [], g0 := 0,
        fresh := decide (t.ramp[u].gear.source ≠ 0) || t.ramp[u].gear.fresh } }) ∧
    ∀ a n : Nat, n ≠ 0 → Serves .gearSet 0x036 gearSetHandler
      (fun q t => unitOf (u8 q.payload 0) = u ∧ u32 q.payload 4 = a ∧ u32 q.payload 8 = n ∧ t.moving u = false ∧
        (u8 q.payload 1 = 2 → t.carStation = false) ∧ (t.eccRead a (16 * n)).1 = none) doneReply
      (fun q t => (t.eccRead a (16 * n)).2.setRamp u { (t.eccRead a (16 * n)).2.ramp[u] with gear := { t.ramp[u].gear with
        source := u8 q.payload 1, frozen := false, g0 := sext 32 ((t.eccRead a (16 * n)).2.cell32 (a + 12)),
        pts := (t.eccRead a (16 * n)).2.gearPoints a n, fresh := true } })) ∧
  (∀ dt (u k : Fin 4) s t w e, t = s.advance dt → t.inReset = false → w = t.reg (rampBase u + 0x60 + 4 * k.val) →
    (t.view (bitsAt w 0 6)).edgeOn = some e → bitAt w 6 = true →
    edgeAccepted t.ramp[u].limLast[k] e (rearmCounts (bitsAt w 16 8)) = true → t.ramp[u].homing = none →
    t.ramp[u].moving = true → (if bitAt w 7 then t.ramp[u].vel < 0 else 0 < t.ramp[u].vel) →
    exec (.limitStop dt u k) s = .next (((t.setRamp u { t.ramp[u] with limLast := t.ramp[u].limLast.set k (some e) }).orderStop u
      (bitAt w 8) (.limit (bitsAt w 0 6))).post 0x0205 (bitsAt w 0 6))) ∧
  (∀ dt (u : Fin 4) s t h pm, t = s.advance dt → t.inReset = false → t.ramp[u].homing = some h → h.step = .backStop pm →
    t.ramp[u].motion = .still → pm + h.rearm * 80000 ≤ t.now →
    exec (.homeRearmEnd dt u) s = .next (t.setRamp u { t.ramp[u] with
      homing := some { h with step := .search, start := t.ramp[u].pos, since := t.now },
      motion := .trap (trapNew (farTarget (!h.neg)) (some h.search)) })) ∧
  (∀ dt (u : Fin 4) cap s t h e, t = s.advance dt → t.inReset = false → t.ramp[u].homing = some h → h.step = .search →
    (t.view h.ref).edgeOn = some e → t.inActive h.ref = true → h.since ≤ e → (∀ n < 48, t.homeEdge u h n ≠ some e) →
    exec (.homeCapture dt u cap) s = .next (t.setRamp u { t.ramp[u] with
      cap := cap, capPm := e, homing := some { h with step := .captured, capture := cap },
      stopReq := some (decide (t.ramp[u].stopReq = some true)) })) ∧
  (∀ dt (u : Fin 4) s t h d, t = s.advance dt → t.inReset = false → t.ramp[u].homing = some h → h.step = .captured →
    t.ramp[u].motion = .still → d = t.pairInt (rampBase u + 0x70) - h.capture →
    exec (.homeAdjust dt u) s = .next ((t.moveSource (t.fld (rampBase u + 4) 0 4) d).setRamp u { t.ramp[u] with
      pos := t.ramp[u].pos + d * 65536, homing := some { h with step := .creep },
      motion := .trap (trapNew (t.pairInt (rampBase u + 0x70) * 65536) (some h.creep)) })) ∧
  (∀ dt (u : Fin 4) s t h x, t = s.advance dt → t.inReset = false → t.ramp[u].homing = some h → h.step = .search →
    t.ramp[u].motion = .trap x → t.searchOver u h t.ramp[u].pos x.v x.up = true →
    exec (.homeSearchExhausted dt u) s = .next (t.setRamp u { t.ramp[u] with
      homing := some { h with step := .exhausted }, stopReq := some (decide (t.ramp[u].stopReq = some true)) })) ∧
  (∀ dt (u : Fin 4) (n : Fin 48) s t h e, t = s.advance dt → t.inReset = false → t.ramp[u].homing = some h →
    t.homeEdge u h n.val = some e → h.step.ended = false →
    exec (.homeLimit dt u n) s = .next ((t.setRamp u { t.ramp[u] with
      limLast := Vector.ofFn fun k : Fin 4 =>
        if bitAt (t.reg (rampBase u + 0x60 + 4 * k.val)) 6 &&
            decide (bitsAt (t.reg (rampBase u + 0x60 + 4 * k.val)) 0 6 = n.val) then some e else t.ramp[u].limLast[k]
      homing := some { h with step := .limited n.val, oppLast := some e }
      stopReq := some true }).post 0x0203 n.val))

/-- Whenever the letter is admitted. LOOP_CONFIG of an OFF slot loads a valid descriptor with cleared banks, or with address 0
takes the slot back to unconfigured; LOOP_MODE records the mode for the switch sample; COEF_BANK of a stable set loads the
bank, or keeps it as the new set of a slot that runs on that bank, and drops the single writes waiting for it; SCHED_SET loads
a valid region table with the banks of the present region, the writes waiting for those slots dropped, or with mask 0 switches
scheduling off; INJECT and CAPTURE are QUEUED and start. -/
def Obligations.LoopLettersComplete : Prop :=
  (∀ n : Fin 16, Serves .loopConfig 0x050 loopConfigHandler
      (fun q t => slotIdx (u32 q.payload 0) = n ∧ t.loop.slots[n].off = true ∧ u32 q.payload 4 = 0) doneReply
      (fun _ t => t.setSlot n SlotSt.init) ∧
    ∀ a, a ≠ 0 → Serves .loopConfig 0x050 loopConfigHandler
      (fun q t => slotIdx (u32 q.payload 0) = n ∧ u32 q.payload 4 = a ∧ t.loop.slots[n].off = true ∧ (t.eccRead a 64).1 = none ∧
        descBad ((t.eccRead a 64).2.cellsFrom a 64) = none ∧
        (t.eccRead a 64).2.descRole ((t.eccRead a 64).2.cellsFrom a 64) = false ∧
        (t.eccRead a 64).2.descRefused n ((t.eccRead a 64).2.cellsFrom a 64) = none) doneReply
      (fun _ t =>
        let b := (t.eccRead a 64).2.cellsFrom a 64
        (t.eccRead a 64).2.setSlot n { SlotSt.init with
          desc := b, bank0 := clearedBank (u8 b 2), bank1 := clearedBank (u8 b 2), eff := clearedBank (u8 b 2),
          tickEff := clearedBank (u8 b 2), injVal := (t.eccRead a 64).2.loop.slots[n].injVal }) ∧
    Serves .loopMode 0x051 loopModeHandler
      (fun q t => slotIdx (u8 q.payload 0) = n ∧ u8 q.payload 1 ≤ 4 ∧ t.loop.slots[n].configured = true ∧
        (t.loop.slots[n].d 0 = 1 → t.loop.trip = false ∧ t.loop.kbad = false)) doneReply
      (fun q t => t.setSlot n { t.loop.slots[n] with req := some (u8 q.payload 1), reqBlk := false })) ∧
  (∀ (n : Fin 16) (a : Nat) (b : Bool), Serves .coefBank 0x052 coefBankHandler
    (fun q t => slotIdx (u8 q.payload 0) = n ∧ u32 q.payload 4 = a ∧ decide (u8 q.payload 1 = 1) = b ∧
      t.loop.slots[n].configured = true ∧ t.scheduled n.val = false ∧ (t.eccRead a 192).1 = none ∧
      firstNonzero ((t.eccRead a 192).2.cellsFrom a 192) 168 24 = none ∧
      t.loop.slots[n].unstable (coefSet ((t.eccRead a 192).2.cellsFrom a 192)) = none) doneReply
    (fun _ t =>
      let c := coefSet ((t.eccRead a 192).2.cellsFrom a 192)
      let q : SlotSt := { t.loop.slots[n] with queue := t.loop.slots[n].queue.filter (·.1 ≠ b) }
      if b = (t.eccRead a 192).2.bankSel n.val ∧ (q.mode = 1 ∨ q.mode = 2) then
        (t.eccRead a 192).2.setSlot n { q with newSet := some c }
      else (t.eccRead a 192).2.setSlot n (q.putBank b c))) ∧
  Serves .schedSet 0x053 schedSetHandler
    (fun q t => u16 q.payload 0 = 0 ∧ ∀ n : Fin 16, t.scheduled n.val = true → t.loop.slots[n].off = true) doneReply
    (fun _ t => { t with loop := { t.loop with var := 3, mask := 0, regions := [], schedFrozen := false } }) ∧
  (∀ a k mask : Nat, mask ≠ 0 → Serves .schedSet 0x053 schedSetHandler
    (fun q t => u16 q.payload 0 = mask ∧ u8 q.payload 3 = k ∧ u32 q.payload 4 = a ∧
      (∀ n : Fin 16, t.scheduled n.val = true ∨ mask.testBit n.val = true → t.loop.slots[n].off = true) ∧
      (t.eccRead a (16 * k)).1 = none ∧
      (t.eccRead a (16 * k)).2.regionsBad a k ((List.range 16).filter mask.testBit).length = none ∧
      ((t.eccRead a (16 * k)).2.regionSets mask ((t.eccRead a (16 * k)).2.regionTable a k)).1 = none) doneReply
    (fun q t =>
      let g := (t.eccRead a (16 * k)).2.regionTable a k
      let r := ((t.eccRead a (16 * k)).2.regionSets mask g).2
      let u : State := { r with loop := { r.loop with
        slots := Vector.ofFn fun n : Fin 16 =>
          if mask.testBit n.val then { r.loop.slots[n] with queue := [], newSet := none } else r.loop.slots[n]
        var := u8 q.payload 2, mask := mask, band := u32 q.payload 8, regions := g, schedFrozen := false } }
      { u with loop := { u.loop with near := nearBoundary u.schedValue.1 g } }.loadBanks (nearBoundary u.schedValue.1 g))) ∧
  (∀ n : Fin 16, Serves .inject 0x054 injectHandler
    (fun q t => slotIdx (u8 q.payload 0) = n ∧ t.loop.slots[n].configured = true ∧ t.loop.slots[n].mode ≠ 0 ∧
      t.loop.slots[n].inj = none ∧ t.fld (slotBase n.val) 10 3 = 0)
    (fun _ _ => .queued (.inject n))
    (fun q t => t.setSlot n { t.loop.slots[n] with inj := some ⟨u8 q.payload 1, u32 q.payload 4, u32 q.payload 8, 0⟩ })) ∧
  Serves .capture 0x055 captureHandler
    (fun q t => t.loop.cap = none ∧ (bitsAt (u32 q.payload 4) 4 1 = 1 → t.carStation = false))
    (fun _ _ => .queued .capture)
    (fun q t => { t with loop := { t.loop with
      capRecs := 0, capTrig := false,
      cap := some { dec := u8 q.payload 0, mask := u16 q.payload 2, trig := u32 q.payload 4, count := u32 q.payload 8,
                    triggered := false, hit := false, skip := 0, last := none } } })

/-- Out of reset. At a carrier peak or valley of a machine station with a valid carrier factor, the encoder samples and channel
bits since are taken, the duty computed last takes effect, the currents and the angle are sampled, the phase sum is checked,
Clarke and Park give the current vector, the current-rate slots run, the modulator computes the next duty and a capture at
that rate records. A value of a channel's trip stream beyond TRIP, at the bit that completes it, trips the hoist stage: TRIP,
outputs off, event 0x0303. A slot saturated for SATTIME posts 0x0301 once. A brake whose PICKTIME has passed gets its HOLD
profile. -/
def Obligations.LoopEventsComplete : Prop :=
  (∀ dt x s t u, t = s.advance dt → t.inReset = false → t.machine = true → t.loop.kbad = false → t.sampleDue = true →
    u = (((t.encRun 0 x.enc).sdRun 0 x.sd[0]).sdRun 1 x.sd[1]).sdRun 2 x.sd[2] →
    exec (.currentSample dt x) s =
      let t1 : State := { u with loop := { u.loop with
        dutyPrev := u.loop.duty, duty := u.loop.dutyNext, sampledAt := some u.now, cogOld := none } }
      let i := t1.sampleCurrents
      let t2 := (t1.sumCheck i).clarkePark i
        (((t1.sumCheck i).fld 0x34008 0 8 * t1.encAngle + (t1.sumCheck i).fld 0x34008 16 16 * 2 ^ 16) % 2 ^ 32)
      .next (((t2.curSlots t1.encAngle).1.modulate i (t2.curSlots t1.encAngle).2).capStep 1)) ∧
  (∀ dt (k : Fin 3) bits b s t u q w, t = s.advance dt → t.inReset = false → t.machine = true → t.sdOn k = true →
    u = bits.foldl (State.sdStep k) t → u.machine = true → q = SdCh.push (u.sdLen k) b u.sense.sd[k] →
    q.same ≠ 512 → (q.good < 3 * u.sdLen k ∨ u.sense.sdValid[k] = true) → q.clk = 0 →
    w = { u with sense := { u.sense with sd := u.sense.sd.set k q } } → w.fld 0x3400C 0 20 * 10 < (w.sdCurrent k).natAbs →
    exec (.overcurrent dt k (bits ++ [b])) s =
      .next ({ w with loop := { w.loop with trip := true, phase := k.val, enabled := false } }.post 0x0303 k.val)) ∧
  (∀ dt (n : Fin 16) s t hi pm, t = s.advance dt → t.inReset = false → t.loop.slots[n].satAt = some (hi, pm) →
    t.loop.slots[n].satPosted = false → pm + u16 t.loop.slots[n].desc 48 * 80000 ≤ t.now →
    exec (.loopSat dt n) s = .next ((t.setSlot n { t.loop.slots[n] with satPosted := true }).post 0x0301
      (n.val + (if hi then 0 else 256)))) ∧
  (∀ dt (b : Fin 2) s t, t = s.advance dt → t.inReset = false → t.loop.brake[b] = 1 →
    t.loop.brakeAt[b] + t.fld (0x34020 + 0x10 * b.val) 16 16 * 80000 ≤ t.now →
    exec (.brakePickEnd dt b) s = .next { t with loop := { t.loop with brake := t.loop.brake.set b 2 } })

/-- Out of reset. SSI_READ at an instant that the DIV grid serves: a good read becomes the latest one and clears the count of bad
reads, and the second good one makes an invalid source valid again with 0x0405; a bad read counts, and at BADLIM the source
becomes invalid with 0x0402. ENC_ABS_ANGLE_SET, 50 µs after the channel is switched on, sets the absolute offset from the
tracks where their amplitude lies in the window, and the source is valid again unless a fault stands; else it is fault kind 8.
ENC_Z_SYNC takes the samples up to the mark and keeps the first mark, and a mark off it by more than the tolerance is fault
kind 4. ENC_FAULT takes the channel's samples and receivers; an open pair latches FAULT, takes the source's validity and posts
0x0401. The bit that makes 512 clocks without a change posts 0x0403, and the one that completes 3M clocks without posts
0x0405. POSITION_MISMATCH posts 0x0404 once. -/
def Obligations.SenseEventsComplete : Prop :=
  (∀ dt x s t u raw pm, t = s.advance dt → t.inReset = false → t.ssiOn = true →
    pm = t.now - ssiFrameNs (t.reg 0x40400) (t.reg 0x40404) * 8 / 100 → t.ssiDue pm = true →
    raw = (if bitAt (t.reg 0x40400) 6 then grayDecode (x.data % 2 ^ bitsAt (t.reg 0x40400) 0 6)
      else x.data % 2 ^ bitsAt (t.reg 0x40400) 0 6) →
    u = { t with sense := { t.sense with ssiStart := some pm } } →
    (u.ssiBadKind x raw pm = none →
      exec (.ssiRead dt x) s =
        let q : SenseSt := { u.sense with
          ssiBad := 0, ssiGood := t.sense.ssiGood + 1, ssiOld := t.sense.ssiNew, ssiNew := some ⟨raw, pm⟩,
          ssiLast := some ⟨raw, pm⟩ }
        if t.sense.known[1] = false ∧ 2 ≤ t.sense.ssiGood + 1 then
          .next ({ u with sense := { q with known := t.sense.known.set 1 true } }.post 0x0405 1)
        else .next { u with sense := q }) ∧
    (∀ kind, u.ssiBadKind x raw pm = some kind →
      exec (.ssiRead dt x) s =
        let q : SenseSt := { u.sense with
          ssiBad := t.sense.ssiBad + 1, ssiGood := 0, ssiErr := satAdd 0xFFFF t.sense.ssiErr 1 }
        if t.sense.ssiBad + 1 = t.fld 0x40400 16 4 ∨
            (t.fld 0x40400 16 4 < t.sense.ssiBad + 1 ∧ t.sense.known[1] = true) then
          .next (({ u with sense := { q with
            known := t.sense.known.set 1 false, ssiNew := none, ssiOld := none } }.clearHomed 1).post 0x0402 kind)
        else .next { u with sense := q })) ∧
  (∀ dt (c d : Int) s t, t = s.advance dt → t.inReset = false → t.encMode 0 = 2 → t.fld 0x40100 4 2 ≠ 0 →
    t.sense.angleValid = false → t.now = t.sense.encOn + 4000 →
    (t.fld 0x40130 0 16 ^ 2 ≤ (c * c + d * d).toNat → (c * c + d * d).toNat ≤ t.fld 0x40130 16 16 ^ 2 →
      exec (.encAbsAngleSet dt c d) s = .next ({ t with sense := { t.sense with
        cabs := (ceilDiv (atanStep c d * t.encCpr 0) 4096 : Int) - t.sense.cnt[0], angleValid := true } }.encRevive 0)) ∧
    ((c * c + d * d).toNat < t.fld 0x40130 0 16 ^ 2 ∨ t.fld 0x40130 16 16 ^ 2 < (c * c + d * d).toNat →
      exec (.encAbsAngleSet dt c d) s = .next (t.encFault 0 8))) ∧
  (∀ dt (k : Fin 3) l s t u (tol : Int), t = s.advance dt → t.inReset = false → t.encMode k.val ≠ 0 → t.encMode k.val ≠ 3 →
    tol = (if t.encMode k.val = 2 then 64 else 2) → u = t.encRun k l → u.fld (encBase k.val) 6 1 = 1 →
    (k.val = 0 ∧ t.encMode k.val = 2 ∧ u.fld 0x40100 4 2 = 2 → u.sense.angleValid = false ∨ u.sense.zsync = true) →
    (u.sense.refz[k] = none → exec (.encZSync dt k l) s =
      .next { u with sense := { u.sense with refz := u.sense.refz.set k (some u.sense.cnt[k]) } }) ∧
    (∀ r, u.sense.refz[k] = some r → u.encCpr k.val ≠ 0 →
      tol < (u.sense.cnt[k] - r) % (u.encCpr k.val : Int) →
      (u.sense.cnt[k] - r) % (u.encCpr k.val : Int) < (u.encCpr k.val : Int) - tol →
      exec (.encZSync dt k l) s = .next (u.encFaultNew k 4))) ∧
  (∀ dt l s t u, t = s.advance dt → t.inReset = false → t.encMode 0 = 2 → u = t.encRun 0 l → u.fld 0x40100 4 2 = 2 →
    u.fld (encBase 0) 6 1 = 0 → u.sense.angleValid = true → u.sense.zsync = false →
    exec (.encZSync dt 0 l) s = .next { u with sense := { u.sense with
      cabs := (ceilDiv (u.reg 0x40134 * u.encCpr 0) (2 ^ 32) : Int) - u.sense.cnt[0], zsync := true } }) ∧
  (∀ dt (k : Fin 3) (x : EncIn) s t, t = s.advance dt → t.inReset = false → t.encMode k.val ≠ 0 →
    exec (.encFault dt k x.samples x.lineOk) s = .next ((t.encRun k x.samples).encLine k x.lineOk)) ∧
  (∀ dt (k : Fin 3) s t, t = s.advance dt → t.inReset = false → (t.encMode k.val = 1 ∨ t.encMode k.val = 4) →
    t.sense.fault[k] = false →
    exec (.encFault dt k [] false) s = .next (({ t with sense := { t.sense with
      lineOk := t.sense.lineOk.set k false, fault := t.sense.fault.set k true, kind := t.sense.kind.set k 5,
      known := t.sense.known.set (srcIdx (3 + k.val)) false } }.clearHomed (3 + k.val)).post 0x0401 (k.val + 256 * 5))) ∧
  (∀ dt (k : Fin 3) bits b s t u q, t = s.advance dt → t.inReset = false → t.sdOn k = true →
    u = bits.foldl (State.sdStep k) t → q = SdCh.push (u.sdLen k) b u.sense.sd[k] → q.clk ≠ 0 →
    (q.same = 512 → exec (.sdFault dt ⟨k, bits ++ [b]⟩) s = .next ({ u with sense := { u.sense with
      sd := u.sense.sd.set k { q with used := false }, sdValid := u.sense.sdValid.set k false } }.post 0x0403 (k.val + 256))) ∧
    (q.same ≠ 512 → 3 * u.sdLen k ≤ q.good → u.sense.sdValid[k] = false →
      exec (.sdValid dt ⟨k, bits ++ [b]⟩) s = .next ({ u with sense := { u.sense with
        sd := u.sense.sd.set k q, sdValid := u.sense.sdValid.set k true } }.post 0x0405 (0x10 + k.val)))) ∧
  (∀ dt s t, t = s.advance dt → t.inReset = false → t.fld 0x40800 0 1 = 1 → t.sense.mismatch = false →
    t.fld 0x40800 16 16 ≤ t.sense.cmpCnt → t.sense.cmpCnt ≠ 0 →
    exec (.positionMismatch dt) s = .next ({ t with sense := { t.sense with mismatch := true } }.post 0x0404
      (ucode 32 (satS 32 t.sense.cmpDiff))))

/-- Whenever the letter is admitted. DOOR_MODE with the sources the mode needs records the mode for the tick instant; DOOR_LIMITS
records the limits; DOOR_STOP stops a moving door or fails what waits. DOOR_OPEN, with the stage on and permitted, is served
by the state as R236 has it: it renews an opening door, ends DONE on an open one, stops a closing one first and then opens,
joins a stop in progress, and else opens, once a stop in progress has ended. DOOR_CLOSE likewise: DONE on a closed door,
renewed in a closing one, after a stop in an opening one, homing where the position is unknown, else the close; a stop in
progress ends first; an active obstruction fails it. -/
def Obligations.DoorLettersComplete : Prop :=
  Serves .doorMode 0x040 doorModeHandler
    (fun q t => t.doorMoving = false ∧ t.door.fault = false ∧
      (u32 q.payload 0 = 1 → (t.encMode 2 = 3 ∨ t.encMode 2 = 4) ∧ (t.destSlot 5).isSome = true) ∧
      (u32 q.payload 0 = 3 → t.encMode 2 = 1 ∧ (t.destSlot 5).isSome = true) ∧
      (u32 q.payload 0 = 2 ∨ u32 q.payload 0 = 4 → ∀ n, t.destSlot 5 = some n → t.loop.slots[n].off = true) ∧
      (u32 q.payload 0 = 4 → bitsAt (t.reg 0x50008) 0 3 ≠ bitsAt (t.reg 0x50008) 4 3 ∧
        ∀ c ∈ [bitsAt (t.reg 0x50008) 0 3, bitsAt (t.reg 0x50008) 4 3],
          t.fio.ctr[(⟨c % 8, Nat.mod_lt _ (by decide)⟩ : Fin 8)].mode = 0 ∧
          ∀ n, t.fio.ctr[(⟨c % 8, Nat.mod_lt _ (by decide)⟩ : Fin 8)].next = some n → n.1 = 0)) doneReply
    (fun q t => t.setDoor { t.door with modeReq := some (u32 q.payload 0) }) ∧
  Serves .doorLimits 0x044 doorLimitsHandler (fun _ t => t.doorMoving = false) doneReply
    (fun q t => t.setDoor { t.door with limNext := some (u16 q.payload 0, u16 q.payload 2) }) ∧
  Serves .doorStop 0x043 doorStopHandler (fun _ t => t.doorActs = true) (fun _ _ => .queued .doorStop)
    (fun _ t => t.setDoor { t.door with stopReq := true }) ∧
  Serves .doorStop 0x043 doorStopHandler (fun _ t => t.doorActs = false) (fun _ _ => .ended .doorStop .done 0 0)
    (fun _ t => (t.doorFail 0x5A).setDoor { t.door with holdAt := none, next := none, close := none }) ∧
  (∀ (k h : Nat) (ok : Letter → State → Prop) (v : State → State),
    (ok = fun q t => u16 q.payload 0 = k ∧ u16 q.payload 2 = h ∧ t.door.mode ≠ 0 ∧ t.door.mode ≠ 4 ∧ t.door.fault = false ∧
      t.openPermit = true ∧ t.door.state ≠ 1 ∧ t.door.state ≠ 2 ∧ t.profileBad k = false) →
    (v = fun t => t.setDoor { t.door with hold := h, openProfile := k, nudge := false, firstHold := none }) →
    Serves .doorOpen 0x041 doorOpenHandler
      (fun q t => ok q t ∧ ¬ (5 ≤ t.door.state ∧ t.door.state ≤ 9)) (fun _ _ => .queued .doorOpen)
      (fun _ t => (((v t).complete .doorOpen .failed 0x5E 0).complete .doorClose .failed 0x5E 0).openSoon k) ∧
    Serves .doorOpen 0x041 doorOpenHandler (fun q t => ok q t ∧ t.door.state = 5 ∧ t.door.next = none)
      (fun _ _ => .queued .doorOpen) (fun _ t => (v t).complete .doorOpen .failed 0x5E 0) ∧
    Serves .doorOpen 0x041 doorOpenHandler (fun q t => ok q t ∧ t.door.state = 5 ∧ t.door.next ≠ none)
      (fun _ _ => .queued .doorOpen)
      (fun _ t =>
        let u := (v t).complete .doorOpen .failed 0x5E 0
        (u.complete .doorClose .failed 0x5E 0).setDoor { u.door with close := none, next := some (.openMove k) }) ∧
    Serves .doorOpen 0x041 doorOpenHandler (fun q t => ok q t ∧ t.door.state = 6) (fun _ _ => .ended .doorOpen .done 0 0)
      (fun _ t => (v t).setDoor { (v t).door with holdAt := if h = 0 then none else some t.now }) ∧
    Serves .doorOpen 0x041 doorOpenHandler (fun q t => ok q t ∧ (t.door.state = 7 ∨ t.door.state = 8))
      (fun _ _ => .queued .doorOpen)
      (fun _ t =>
        let u := ((v t).complete .doorClose .failed 0x5E 0).orderStop (v t).doorUnit false .door
        (u.setDoor { u.door with close := none, next := some (.openMove k) }).doorTo 9) ∧
    Serves .doorOpen 0x041 doorOpenHandler (fun q t => ok q t ∧ t.door.state = 9) (fun _ _ => .queued .doorOpen)
      (fun _ t =>
        let u := ((v t).complete .doorOpen .failed 0x5E 0).complete .doorClose .failed 0x5E 0
        u.setDoor { u.door with
          close := none,
          next := match t.door.next with
            | some (.closeMove ..) => some (.openMove k)
            | x => x })) ∧
  (∀ (k : Nat) (n : Bool) (ok : Letter → State → Prop),
    (ok = fun q t => u8 q.payload 0 = k ∧ decide (u8 q.payload 1 = 1) = n ∧ t.door.mode ≠ 0 ∧ t.door.mode ≠ 4 ∧
      t.door.fault = false ∧ t.profileBad k = false) →
    Serves .doorClose 0x042 doorCloseHandler (fun q t => ok q t ∧ t.door.state = 3) (fun _ _ => .ended .doorClose .done 0 0)
      noEffect ∧
    Serves .doorClose 0x042 doorCloseHandler
      (fun q t => ok q t ∧ (t.door.state = 4 ∨ t.door.state = 2 ∧ t.obstInput false = none)) (fun _ _ => .queued .doorClose)
      (fun _ t => (t.complete .doorClose .failed 0x5E 0).setDoor { t.door with close := some ⟨k, n, t.now⟩ }) ∧
    Serves .doorClose 0x042 doorCloseHandler (fun q t => ok q t ∧ t.door.state = 5 ∧ t.obstInput n = none)
      (fun _ _ => .queued .doorClose)
      (fun _ t =>
        let u := (t.complete .doorOpen .failed 0x5E 0).complete .doorClose .failed 0x5E 0
        let u := u.orderStop t.doorUnit false .door
        u.setDoor { u.door with openAt := none, next := some (.closeMove k n), close := some ⟨k, n, u.now⟩ }) ∧
    Serves .doorClose 0x042 doorCloseHandler (fun q t => ok q t ∧ t.door.state = 9 ∧ t.obstInput n = none)
      (fun _ _ => .queued .doorClose)
      (fun _ t =>
        let u := (t.complete .doorOpen .failed 0x5E 0).complete .doorClose .failed 0x5E 0
        u.setDoor { u.door with next := some (.closeMove k n), close := some ⟨k, n, u.now⟩ }) ∧
    Serves .doorClose 0x042 doorCloseHandler
      (fun q t => ok q t ∧ (t.door.state = 7 ∨ t.door.state = 8) ∧ t.obstInput n = none) (fun _ _ => .queued .doorClose)
      (fun _ t =>
        let u := t.complete .doorClose .failed 0x5E 0
        let w := u.closeSpeed k (if n then 2 else 1)
        let x := u.setRamp u.doorUnit { u.ramp[u.doorUnit] with next := some { u.limitsLane u.doorUnit with speed := w } }
        (x.setDoor { u.door with vplan := w, close := some ⟨k, n, u.now⟩ }).doorTo (if n then 8 else 7)) ∧
    Serves .doorClose 0x042 doorCloseHandler
      (fun q t => ok q t ∧ (t.door.state = 1 ∧ t.obstInput false = none ∨
        t.obstInput n = none ∧ (t.door.state = 0 ∨ t.door.state = 6 ∨ 10 ≤ t.door.state)))
      (fun _ _ => .queued .doorClose)
      (fun _ t => ((t.complete .doorOpen .failed 0x5E 0).complete .doorClose .failed 0x5E 0).closeSoon k n))

/-- Out of reset, on a car station. An obstruction acting on a close in progress that does not end at this tick posts 0x0504 and
reverses the door; a stall of OBSTIME posts 0x0507 and reverses a close or stops an open; the open time-out stops and fails
the open with 0x5D; the close time-out posts 0x0505, fails the close with 0x59 and stops; a stopped door reopens when
permitted; the hold time ends in a close, or starts again while obstructed; after NUDGE the door nudges with 0x0508; a stage
fault latches FAULT, posts 0x0506 and switches the stage off; a modulator update and a legacy step of the polarity that EDGE
names do their computations. Stop, time-outs and reversal need a stage that stays on. -/
def Obligations.DoorEventsComplete : Prop :=
  (∀ dt (k : Fin 4) s t, t = s.advance dt → t.inReset = false → t.carStation = true → t.door.on = true → t.stageOk = true →
    t.obstOf t.door.use (decide (t.door.state = 8)) k = true → t.closesNow = false →
    (t.door.state = 7 ∨ t.door.state = 8 ∨ t.door.state = 2 ∧ t.contact = false ∧ t.door.found = false) →
    exec (.doorObstructed dt k) s = .next ((t.post 0x0504 (bitsAt t.door.use.obst[k] 0 6)).reverseDoor)) ∧
  (∀ dt s t a, t = s.advance dt → t.inReset = false → t.carStation = true → t.door.mode = 1 → t.door.on = true →
    t.stageOk = true → t.door.stallAt = some a → a + t.fld 0x50070 0 8 * 80000 ≤ t.now → t.closesNow = false →
    (∀ k : Fin 4, t.obstStops k = false) →
    (t.door.state = 2 ∨ t.door.state = 7 ∨ t.door.state = 8 → exec (.doorStall dt) s =
      .next (((t.setDoor { t.door with stallAt := none }).post 0x0507 (ucode 32 t.door.fr)).reverseDoor)) ∧
    (t.door.state = 5 ∨ t.door.state = 11 → exec (.doorStall dt) s =
      let u := (t.setDoor { t.door with stallAt := none, openAt := none, next := none }).post 0x0507 (ucode 32 t.door.fr)
      let u := if u.moving u.doorUnit then u.orderStop u.doorUnit true .door else u
      .next ((u.complete .doorOpen .failed 0x58 0).doorTo 10))) ∧
  (∀ dt s t a, t = s.advance dt → t.inReset = false → t.carStation = true → t.door.state = 5 → t.door.openAt = some a →
    t.door.on = true → t.stageOk = true → a + bitsAt t.door.use.time 16 16 * 80000 ≤ t.now → t.endsNow t.doorUnit = false →
    exec (.doorOpenTimeout dt) s =
      let u := (t.orderStop t.doorUnit false .door).complete .doorOpen .failed 0x5D 0
      .next ((u.setDoor { u.door with openAt := none, next := none }).doorTo 10)) ∧
  (∀ dt s t c, t = s.advance dt → t.inReset = false → t.carStation = true → t.door.close = some c →
    t.door.on = true → t.stageOk = true → c.since + bitsAt t.door.use.time 0 16 * 80000 ≤ t.now → t.closesNow = false →
    exec (.doorCloseTimeout dt) s =
      let u := (t.post 0x0505 ((t.now - c.since) / 80000)).complete .doorClose .failed 0x59 0
      let u := if u.moving u.doorUnit then u.orderStop u.doorUnit false .door else u
      let u := u.setDoor { u.door with close := none, next := none, reopen := c.profile }
      .next (if t.door.state = 1 ∨ t.door.state = 2 then u.doorUnknown else u.doorTo 9)) ∧
  (∀ dt s t, t = s.advance dt → t.inReset = false → t.carStation = true → t.serving = true → t.door.on = true →
    t.door.state = 9 → t.door.next = none → t.moving t.doorUnit = false → t.openPermit = true →
    exec (.doorReopen dt) s = .next (t.openDoor t.door.reopen)) ∧
  (∀ dt s t a, t = s.advance dt → t.inReset = false → t.carStation = true → t.serving = true → t.door.on = true →
    t.door.state = 6 → t.door.holdAt = some a → a + t.door.hold * 8000000 ≤ t.now →
    exec (.doorHoldExpiry dt) s =
      let u := t.setDoor { t.door with firstHold := some (t.door.firstHold.getD t.now) }
      if u.obstructed t.door.nudge = true ∨ u.profileBad t.door.openProfile = true then
        .next (u.setDoor { u.door with holdAt := some t.now })
      else .next (u.closeDoor t.door.openProfile t.door.nudge t.now)) ∧
  (∀ dt s t a, t = s.advance dt → t.inReset = false → t.carStation = true → t.serving = true → t.door.firstHold = some a →
    bitsAt t.door.use.seq 0 8 ≠ 0 → t.door.nudge = false → a + bitsAt t.door.use.seq 0 8 * 80000000 ≤ t.now →
    exec (.doorNudge dt) s = .next ((t.setDoor { t.door with nudge := true }).post 0x0508 0)) ∧
  (∀ dt (kind : Fin 6) v s t d, t = s.advance dt → t.inReset = false → t.carStation = true → t.stageFaultMet kind.val v = true →
    d = (if kind.val = 3 then { t.door with temp := v } else if 4 ≤ kind.val then { t.door with vdoor := v.toNat } else t.door) →
    exec (.stageFault dt kind v) s =
      .next ((t.setDoor { d with fault := true, fkind := kind.val }).post 0x0506 kind.val).doorSwitch) ∧
  (∀ dt x s t, t = s.advance dt → t.inReset = false → t.carStation = true →
    exec (.doorModulatorUpdate dt x) s =
      let u := ((t.encRun 2 x.enc).setDoor { (t.encRun 2 x.enc).door with vdoor := x.vdoor, temp := x.temp }).doorHeat x
      let u := if u.door.mode = 4 then u.legacyCount else u
      .next (if u.door.on then u.doorModulate x else u.setDoor { u.door with
        duty := openDuty, vlimit := false, sector := if 1 ≤ u.sense.hall ∧ u.sense.hall ≤ 6 then u.sense.hall else u.door.sector })) ∧
  (∀ dt (active dir : Bool) s t up, t = s.advance dt → t.inReset = false → t.carStation = true → t.door.mode = 4 →
    t.door.stepIgnore = false → active = decide (t.fld 0x50008 13 1 = 0) →
    up = (dir != decide (t.fld 0x50008 14 1 = 1)) →
    exec (.legacyStep dt ⟨active, dir⟩) s = .next (t.setDoor { t.door with
      target := if up then t.door.target + t.legacyDelta else t.door.target - t.legacyDelta,
      stepAt := some t.now, stepUp := up,
      stepTs := match t.door.stepAt with
        | some a => if t.now ≤ a + 4000000 ∧ up = t.door.stepUp then some (t.now - a) else none
        | none => none }))

/-- Whenever the letter is admitted. GROUP_JOIN in state OFF, with every bus of its mask active and its bit timing sufficient, is
QUEUED: the station listens in ACQUIRE with the car number and mask given. GROUP_LEAVE of a member is QUEUED for its last
slot, of an isolated station ends DONE at once. POLICY_SET and FLIGHT_SET stage a table of the right length that passes its
checks. CALL_ENTER and CALL_CANCEL queue a call frame for the round whose window is next and answer that round; on a car
station they pass the letter over the car link and answer 0xFFFFFFFF. -/
def Obligations.GroupLettersComplete : Prop :=
  Serves .groupJoin 0x060 groupJoinHandler
    (fun q t => t.group.state = 0 ∧
      ∀ b : Fin 2, (BitVec.ofNat 2 (u8 q.payload 1)).getLsbD b.val = true →
        t.can[busCtrl b].state = 1 ∧ t.timingNeeded b = none)
    (fun _ _ => .queued .groupJoin)
    (fun q t => t.setGroup { t.group.left with
      state := 1, car := u8 q.payload 0, mask := BitVec.ofNat 2 (u8 q.payload 1),
      join := some { since := t.now, strokes := 0, heard := [], anyStroke := false, claimed := false, nonce := 0 },
      cur := 0, gt := { t.group.left.gt with state := 1 } }) ∧
  Serves .groupLeave 0x061 groupLeaveHandler (fun _ t => t.group.state = 5) (fun _ _ => .ended .groupLeave .done 0 0)
    (fun _ t => t.setGroup t.group.left) ∧
  Serves .groupLeave 0x061 groupLeaveHandler (fun _ t => 3 ≤ t.group.state ∧ t.group.state ≠ 5)
    (fun _ _ => .queued .groupLeave)
    (fun _ t => t.setGroup { t.group with
      state := 6, gt := { t.group.gt with state := 0, c := 0 } }) ∧
  (∀ (a n : Nat) (b : List Byte),
    Serves .policySet 0x062 policySetHandler
      (fun q t => u32 q.payload 0 = a ∧ u32 q.payload 4 = 2048 ∧ (t.eccRead a 2048).1 = none ∧ t.cellsFrom a 2048 = b ∧
        policyBad b = none) doneReply
      (fun _ t => (t.eccRead a 2048).2.setGroup { (t.eccRead a 2048).2.group with policyNext := some b }) ∧
    Serves .flightSet 0x063 flightSetHandler
      (fun q t => u32 q.payload 0 = a ∧ u32 q.payload 4 = n ∧ 16 ≤ n ∧ n ≤ 16 + 4 * 65535 + 8 * 255 * 255 ∧
        (t.eccRead a n).1 = none ∧ t.cellsFrom a n = b ∧ n = flightLen b ∧ flightBad b = none) doneReply
      (fun _ t => (t.eccRead a n).2.setGroup { (t.eccRead a n).2.group with flightNext := some b })) ∧
  (∀ (cancel : Bool) (opc : Nat) (row : Letter → Instr),
    (cancel = false ∧ opc = 0x064 ∧ row = .callEnter ∨ cancel = true ∧ opc = 0x065 ∧ row = .callCancel) →
    Serves row opc (callHandler opc cancel) (fun _ t => t.machine = true ∧ 3 ≤ t.group.state)
      (fun _ t => .done (word t.callRound) [])
      (fun q t => t.setGroup { t.group with calls := t.group.calls ++ [{
        round := t.callRound, cancel := cancel, panel := u16 q.payload 4,
        data := u32 q.payload 0 + q.seq.toNat % 4096 * 2 ^ 32, toA := t.busSends 0, toB := t.busSends 1 }] }) ∧
    Serves row opc (callHandler opc cancel) (fun _ t => t.machine = false ∧ t.link.state = 3 ∧ t.lb.rcpt4.length < 16)
      (fun _ _ => .done 0xFFFFFFFF#32 [])
      (fun q t => { t with lb := { t.lb with rcpt4 := t.lb.rcpt4 ++ [.letter (headFull opc 8 q ++ q.payload)] } }))

/-- Out of reset, on a machine station in the group. A valid stroke received, yielded to or sent by the bell car makes the seal of
its round with the stroke's record. A stroke is sent at a nominal instant, or later where the bus delays it. A missing stroke
counts, puts group time on hold, posts 0x0605's block event at the second miss, and the car whose rank it is takes the bell. A
status slot is composed and loaded at its window, or cancelled too late in it and counted; a received slot that passes its
checks is taken in, one that fails posts 0x0608 with its cause, an own number is a twin; a sender, qualifier or length that
R263 does not give is discarded. At the end of the slots the reference digest is formed. -/
def Obligations.GroupRoundEventsComplete : Prop :=
  (∀ dt x s t, t = s.advance dt → t.inReset = false → t.machine = true → t.group.state ≠ 0 →
    exec (.bellStroke dt x) s = .next (t.strokeFrom x) ∧
    (t.group.bell = true → exec (.bellYielded dt x) s = .next (t.strokeFrom x))) ∧
  (∀ dt s t, t = s.advance dt → t.inReset = false → t.machine = true → t.group.bell = true →
    t.group.t0 + t.group.gt.missed * t.roundLen + t.roundLen / 2 < t.now - t.now % t.roundLen →
    (t.busSends 0 = true ∨ t.busSends 1 = true) → t.spacingOk t.now = true → t.lateClose.group.bell = true →
    exec (.bellStrokeTx dt) s = .next (t.lateClose.validStroke t.lateClose.ownStroke true
      (if t.busSends 0 then some t.now else none) (if t.busSends 1 then some t.now else none) (!t.lateClose.busSends 0)
      t.lateClose.now)) ∧
  (∀ dt s t m u, t = s.advance dt → t.inReset = false → t.group.state ≠ 0 → t.group.state ≠ 6 → t.group.bell = false →
    t.group.cur ≠ 0 → m = t.group.gt.missed + 1 → t.group.t0 + m * t.roundLen + 40000 ≤ t.now →
    u = t.setGt { t.group.gt with
      missed := m, state := if t.group.gt.state = 2 then 3 else t.group.gt.state,
      c := if t.group.gt.state = 2 then t.group.gt.f else t.group.gt.c } →
    exec (.bellMissing dt) s =
      let v := if m = 2 then u.post (u.lowBusEvent 5) t.group.cur else u
      if ((carsOf (carMask (t.group.slotList.map (·.1)))).filter (· ≠ t.group.bellCar))[m - 1]? = some t.group.car ∧
          (t.group.state = 3 ∨ t.group.state = 4) ∧ t.fld 0xB0204 0 1 = 1 then
        .next (v.takeBell (roundAfter (nextRound t.group.cur) m))
      else .next v) ∧
  (∀ dt x s t c, t = s.advance dt → t.inReset = false → t.machine = true → t.group.sends = true → t.group.slotLoaded = false →
    t.pwr.mode ≠ .sleep → t.ownSlotAt ≤ t.now → t.now < t.ownSlotAt + t.slotLen →
    (t.busSends 0 = true ∨ t.busSends 1 = true) → c = (if t.serving then x else t.group.ownCar) →
    exec (.statusSlotTx dt x) s = .next (t.setGroup { t.group with
      ownCar := c, ownSlot := some (t.composeSlot c), slotLoaded := true,
      slots := insSlot t.group.car (t.composeSlot c) false t.group.slots })) ∧
  (∀ dt s t, t = s.advance dt → t.inReset = false → t.group.ownSlot.isSome = true → t.group.refDone = false →
    t.ownSlotAt + t.slotLen ≤ t.now + 10000 →
    exec (.slotLateCancel dt) s = .next (t.setGroup { t.group with
      ownSlot := none, slots := t.group.slots.filter (·.1 ≠ t.group.car), slotLate := satAdd 0xFF t.group.slotLate 1 })) ∧
  (∀ dt (bus : Bool) (c : Fin 64) b x s t member, t = s.advance dt → b.length = 64 → x = SlotMsg.ofBytes b → t.inReset = false → t.machine = true →
    t.group.state ≠ 0 → t.group.state ≠ 5 → t.busJoined (if bus then 1 else 0) = true → c ≠ 0 →
    member = decide (t.group.state = 3 ∨ t.group.state = 4 ∨ t.group.state = 6) →
    (c.val = t.group.car → member = true → exec (.statusSlotRx dt bus c 0 b) s = .next t.numberTwin) ∧
    (¬ (c.val = t.group.car ∧ member = true) → c.val ≤ t.slots →
      (u32 b 56 ≠ (crc32c (b.take 56)).toNat → exec (.statusSlotRx dt bus c 0 b) s = .next (t.slotBad c.val 1)) ∧
      (u32 b 56 = (crc32c (b.take 56)).toNat →
        (x.round ≠ t.group.cur ∨ t.group.refDone = true →
          exec (.statusSlotRx dt bus c 0 b) s = .next (t.slotBad c.val 2)) ∧
        (x.round = t.group.cur → t.group.refDone = false → x.count ≠ 0 →
          (x.mute = true ∨ t.group.knowsP = true ∧ t.group.p.getLsbD (c.val - 1) = false) →
          exec (.statusSlotRx dt bus c 0 b) s = .next (t.slotBad c.val 3)) ∧
        (x.round = t.group.cur → t.group.refDone = false →
          (x.count ≠ 0 → x.mute = false ∧ (t.group.knowsP = true → t.group.p.getLsbD (c.val - 1) = true)) →
          exec (.statusSlotRx dt bus c 0 b) s = .next (t.setGroup (t.group.takeSlot bus c.val x)))))) ∧
  (∀ dt (bus : Bool) (c : Fin 64) (qual : Fin 4096) b s t, t = s.advance dt → t.inReset = false → t.machine = true →
    t.group.state ≠ 0 → t.group.state ≠ 5 → t.busJoined (if bus then 1 else 0) = true →
    (c = 0 ∨ qual ≠ 0 ∨ b.length ≠ 64) → exec (.statusSlotRx dt bus c qual b) s = .next t.groupDiscard) ∧
  (∀ dt s t, t = s.advance dt → t.inReset = false → t.group.state ≠ 0 → t.group.state ≠ 5 → t.group.refDone = false →
    t.group.cur ≠ 0 → t.group.t0 + t.bellLen + t.slots * t.slotLen ≤ t.now →
    exec (.referenceDigest dt) s = .next t.closeSlots)

/-- Out of reset, on a machine station in the group. A claim that ends in TWIN fails the join with 0x60, an own slot that does, or
the own number seen elsewhere, posts 0x0603 and leaves. Request and cancel frames join the log of the round, one copy of the
two buses', and take the own frame off the bus it was seen on; panel 0 is discarded. Call frames whose round has ended are
dropped and counted. A listen time-out takes the bell of round 1; a claim is made after two strokes, before the quiet gap. A
lost bus posts 0x0605, the last one isolates. Resync requests are kept by the lowest member, resync data fill the frames, and
the replay of the log catches up. -/
def Obligations.GroupEventsComplete : Prop :=
  (∀ dt s t, t = s.advance dt → t.inReset = false →
    (∀ (f : Fin 2) (buf : Fin 8), t.busSends f = true →
      (t.group.state = 2 → exec (.carNumberTwin dt ⟨0, f, buf⟩) s =
        .next ((t.twinPost (busCtrl f) ⟨buf.val, by omega⟩).leaveGroup .failed 0x60 t.group.car)) ∧
      ((t.group.state = 3 ∨ t.group.state = 4 ∨ t.group.state = 6) → t.group.ownSlot.isSome = true →
        exec (.carNumberTwin dt ⟨1, f, buf⟩) s = .next (t.twinPost (busCtrl f) ⟨buf.val, by omega⟩).numberTwin)) ∧
    ∀ (f : Fin 2) (buf : Fin 8), (t.group.state = 3 ∨ t.group.state = 4 ∨ t.group.state = 6) →
      exec (.carNumberTwin dt ⟨2, f, buf⟩) s = .next ((t.post 0x0603 t.group.car).leaveGroup .failed 0x60 t.group.car)) ∧
  (∀ dt (bus cancel : Bool) (panel : Fin 4096) (sender : Fin 64) (data : BitVec 64) s t, t = s.advance dt →
    t.machine = true → t.group.state ≠ 0 → t.busJoined (if bus then 1 else 0) = true → panel ≠ 0 →
    exec (if cancel then .cancelFrame dt bus panel sender data else .requestFrame dt bus panel sender data) s =
      .next (t.setGroup { t.group with
        reqs := if t.group.reqs.any fun q => decide (q.busB ≠ bus ∧ t.group.t0 ≤ q.endAt) &&
            decide (({ busB := q.busB, cancel := cancel, panel := panel.val, sender := sender.val, data := data.toNat,
                       endAt := q.endAt } : ReqRec) = q)
          then t.group.reqs else t.group.reqs ++ [⟨bus, cancel, panel.val, sender.val, data.toNat, t.now⟩],
        calls := t.group.calls.filterMap fun c =>
          if sender.val = t.group.car ∧ c.cancel = cancel ∧ c.panel = panel.val ∧ c.data = data.toNat then
            if c.toA && bus || c.toB && !bus then some { c with toA := c.toA && bus, toB := c.toB && !bus } else none
          else some c })) ∧
  (∀ dt s t, t = s.advance dt → t.inReset = false → t.group.t0 + t.roundLen ≤ t.now + 24000 →
    exec (.callFrameTxDrop dt) s = .next (t.setGroup { t.group with
      calls := t.group.calls.filter fun c => decide (c.round = nextRound t.group.cur),
      txDrop := satAdd 0xFF t.group.txDrop (t.group.calls.filter fun c => decide (c.round ≠ nextRound t.group.cur)).length })) ∧
  (∀ dt s t j, t = s.advance dt → t.inReset = false → t.group.state = 1 → t.group.join = some j → j.anyStroke = false →
    t.group.bell = false → j.since + 3 * t.roundLen ≤ t.now → t.fld 0xB0204 0 1 = 1 →
    exec (.joinListenTimeout dt) s = .next ((t.setGroup { t.group with cur := 0, t0 := t.now - t.now % t.roundLen }).takeBell 1)) ∧
  (∀ dt s t j, t = s.advance dt → t.inReset = false → t.group.state = 1 → t.group.join = some j → 2 ≤ j.strokes →
    t.group.t0 + t.bellLen + t.slots * t.slotLen ≤ t.now → t.now + 24000 < t.group.t0 + t.roundLen →
    (t.group.car ∈ j.heard → exec (.joinClaim dt) s = .next t.numberTwin) ∧
    (t.group.car ∉ j.heard → exec (.joinClaim dt) s = .next { t with
      free := t.free + 1,
      group := { t.group with state := 2, join := some { j with claimed := true, nonce := Config.freeWord t.free } } })) ∧
  (∀ dt (b : Fin 2) s t g, t = s.advance dt → t.inReset = false → t.group.state ≠ 0 → t.group.mask.getLsbD b.val = true →
    t.group.lost.getLsbD b.val = false → (2 ≤ t.can[busCtrl b].errst ∨ 2 ≤ t.group.missBus[b]) →
    g = { t.group with
      lost := t.group.lost ||| (1#2 <<< b.val), goodBus := t.group.goodBus.set b 0, missBus := t.group.missBus.set b 0 } →
    exec (.groupBusLost dt b) s = .next (if g.mask &&& ~~~ g.lost = 0 then ((t.setGroup g).post 0x0605 b.val).allBusesLost
      else (t.setGroup g).post 0x0605 b.val)) ∧
  (∀ dt (c : Fin 64) s t, t = s.advance dt → t.inReset = false → c ≠ 0 → t.group.state = 4 → t.group.mute = false →
    c.val ≠ t.group.car → (carsOf (if t.group.refDone then t.group.pNext else t.group.p)).head? = some t.group.car →
    exec (.resyncRequest dt c) s = .next (t.setGroup { t.group with
      resyncReq := if t.group.resyncReq.contains c.val then t.group.resyncReq else t.group.resyncReq ++ [c.val] })) ∧
  (∀ dt (sender car : Fin 64) data s t r, t = s.advance dt → t.inReset = false → t.machine = true → t.group.state ≠ 0 →
    data.length = 64 → sender ≠ 0 → car ≠ 0 → t.group.resync = some r → car.val = t.group.car → sender.val = r.source →
    r.core = none → r.caught = false →
    exec (.resyncData dt sender car data) s = .next (t.setGroup (t.group.takeFrame data r))) ∧
  (∀ dt s t r k c, t = s.advance dt → t.inReset = false → t.group.resync = some r → r.core = some (k, c) → r.caught = false →
    t.group.refDone = true → r.left ≠ 0 →
    exec (.resyncReplay dt) s =
      match replay t.group.tables (t.fld 0x60004 24 4) t.group.log t.group.round r.left (k, c, none) with
      | none => .next (t.setGroup { t.group with
          resync := some (newResync t.group.pNext t.group.car r.attempt t.group.cur) })
      | some (k, c, d) =>
        if k = t.group.round then .next (t.setGroup { t.group with
          core := c, digest := d.getD t.group.digest, resync := some { r with caught := true, core := none, left := 0 } })
        else .next (t.setGroup { t.group with resync := some { r with core := some (k, c), left := 0 } }))

/-- Whenever the letter is admitted. CAN_MODE enters the state, unless it would take a group bus away; CAN_FILTER in state OFF
loads the element; CAN_TX to a free transmit buffer of an active controller stores the frame, makes it pending and is QUEUED;
CAN_CANCEL of a pending buffer withdraws it, ABORTED, or where the frame is on the bus marks it late with the block's event,
and answers which; CAN_READ answers a buffer's 80 bytes and takes FRESH and LOST back, or takes the oldest entry of a FIFO. -/
def Obligations.CanLettersComplete : Prop :=
  (∀ c : Fin 3,
    Serves .canMode 0x0B0 canModeHandler
      (fun q t => canOf q.payload = c ∧ (t.can[c].state = 1 → c.val < 2 → t.group.mask.getLsbD c.val = true →
        t.group.state ≠ 0 → u8 q.payload 1 = 1)) doneReply (fun q t => t.canState c (u8 q.payload 1)) ∧
    Serves .canFilter 0x0B1 canFilterHandler
      (fun q t => canOf q.payload = c ∧ t.can[c].state = 0 ∧
        (bitsAt (u32 q.payload 12) 4 3 = 3 → t.bufUse c (bitsAt (u32 q.payload 12) 8 8) = 2)) doneReply
      (fun q t => t.setCan c { t.can[c] with filters := (aset (fun _ => ⟨0, 0, 0⟩) (u16 q.payload 2)
          ⟨word (u32 q.payload 4), word (u32 q.payload 8), word (u32 q.payload 12)⟩ t.can[c].filters) }) ∧
    ∀ b : Fin 256,
      Serves .canTx 0x0B2 canTxHandler
        (fun q t => canOf q.payload = c ∧ fidx 255 (u8 q.payload 1) = b ∧ t.canOwned c b.val = false ∧ t.bufUse c b.val = 1 ∧
          t.can[c].pend.any (·.buf = b) = false ∧ t.can[c].state = 1)
        (fun _ _ => .queued (.canTx c b))
        (fun q t => t.setCan c { t.can[c].putBuf b.val { CanRec.zero with frame := txFrame q.payload } with
          pend := t.can[c].pend ++ [txRequest b (bitAt (u8 q.payload 2) 3) (bitAt (u8 q.payload 2) 4)] }) ∧
      Serves .canCancel 0x0B3 canCancelHandler
        (fun q t => canOf q.payload = c ∧ u16 q.payload 2 = b.val ∧ t.canOwned c b.val = false ∧
          t.can[c].pend.any (fun p => decide (p.buf = b) && !p.ended) = true ∧ t.can[c].onBus = some b)
        (fun _ _ => .done 1 [])
        (fun _ t => (t.setCan c { t.can[c] with
          pend := t.can[c].pend.map fun p => if p.buf = b then { p with late := true } else p }).post (canEvent c 2) b.val) ∧
      Serves .canCancel 0x0B3 canCancelHandler
        (fun q t => canOf q.payload = c ∧ u16 q.payload 2 = b.val ∧ t.canOwned c b.val = false ∧
          t.can[c].pend.any (fun p => decide (p.buf = b) && !p.ended) = true ∧ t.can[c].onBus ≠ some b)
        (fun _ _ => .done 0 [])
        (fun _ t => (t.setCan c { t.can[c] with pend := t.can[c].pend.filter (·.buf ≠ b) }).complete (.canTx c b) .aborted 0 0) ∧
      Serves .canRead 0x0B4 canReadHandler
        (fun q t => canOf q.payload = c ∧ u16 q.payload 2 = b.val ∧ t.canOwned c b.val = false)
        (fun _ t => .done 0 (t.can[c].buf b.val).bytes)
        (fun _ t => if t.bufUse c b.val = 2 then
          t.setCan c (t.can[c].putBuf b.val { t.can[c].buf b.val with fresh := false, lost := false }) else t)) ∧
  (∀ (c : Fin 3) (n : Nat) (rest : List Nat),
    Serves .canRead 0x0B4 canReadHandler
      (fun q t => canOf q.payload = c ∧ u16 q.payload 2 = 0x100 ∧ t.canOwned c 0x100 = false ∧ t.can[c].fifo0 = n :: rest)
      (fun _ t => .done 0 ({ t.can[c].buf n with lost := (t.can[c].buf n).lost || t.can[c].fifoLost0 }).bytes)
      (fun _ t => t.setCan c { t.can[c].putBuf n { t.can[c].buf n with fresh := false, lost := false } with
        fifo0 := rest, fifoLost0 := false }) ∧
    Serves .canRead 0x0B4 canReadHandler
      (fun q t => canOf q.payload = c ∧ u16 q.payload 2 = 0x101 ∧ t.canOwned c 0x101 = false ∧ t.can[c].fifo1 = n :: rest)
      (fun _ t => .done 0 ({ t.can[c].buf n with lost := (t.can[c].buf n).lost || t.can[c].fifoLost1 }).bytes)
      (fun _ t => t.setCan c { t.can[c].putBuf n { t.can[c].buf n with fresh := false, lost := false } with
        fifo1 := rest, fifoLost1 := false }))

/-- Out of reset. A good frame of an active controller goes through the filters with its age, one that GROUP or the letterbox
takes only if COPY is 1; an FD frame while FD is 0 is foreign; in a wake state a wake frame or the 32nd error wakes. The
choice sends the pending frame of highest priority; a frame sent ends DONE with LATE and TWIN; a failed attempt of a single,
cancelled or inactive frame ends it, another counts data-bit errors; a twin reached posts the block's event, and stops the
frame FAILED 0xB7 or goes on. Above 255 errors bus-off counts, posts and fails what is pending with 0xB5; recovery starts
after BODELAY and its end, counters 0, posts. -/
def Obligations.CanEventsComplete : Prop :=
  (∀ dt (c : Fin 3) f (ok : Bool) age x s t, t = s.advance dt → t.inReset = false →
    (t.wakeReceiver c = true → f.fdf = true → exec (.canFrameRx dt c f ok age x) s = .next t) ∧
    (∀ n, t.wakeReceiver c = true → f.fdf = false → n = (if ok then 0 else satAdd 32 t.can[c].wakeErrs 1) →
      exec (.canFrameRx dt c f ok age x) s = .next ((t.setCan c { t.can[c] with wakeErrs := n }).noteIf
        ((ok && t.wakeFrame c f) || decide (n = 32)) (2 + c.val))) ∧
    (t.wakeReceiver c = false → t.canActive c = true → f.fdf = true → t.canCfg c 0 1 = 0 →
      exec (.canFrameRx dt c f ok age x) s = .next (t.fdForeign c x)) ∧
    (∀ u v taken, t.wakeReceiver c = false → t.canActive c = true → ¬ (f.fdf = true ∧ t.canCfg c 0 1 = 0) →
      u = t.canBusIn c (t.can[c].afterRx true x) x.seen → taken = (decide (c.val < 2 ∧ u.group.state ≠ 0 ∧ f.xtd = true) && groupTypes.contains (frameType f.id)) →
      v = (if (c.val < 2 ∧ u.group.state ≠ 0 ∧ f.xtd = true) ∧ ((taken = false ∧ frameType f.id ≠ 0x70 ∧ frameType f.id ≠ 0x71) ∨
          groupFrameBad f = true) then u.groupDiscard else u) →
      exec (.canFrameRx dt c f false age x) s = .next (t.canBusIn c (t.can[c].afterRx false x) x.seen) ∧
      exec (.canFrameRx dt c f true age x) s =
        .next (if (taken = true ∨ v.letterFrame c f = true) ∧ v.canCfg c 4 1 = 0 then v else v.filterFrame c f (v.now - age)))) ∧
  (∀ dt (c : Fin 3) s t p, t = s.advance dt → t.inReset = false → t.canActive c = true → t.can[c].state = 1 →
    t.can[c].onBus = none →
    leastBy (fun p : CanPend => if t.canCfg c 3 1 = 1 then p.buf.val else arbKey (t.can[c].buf p.buf.val).frame * 256 + p.buf.val)
      (t.can[c].pend.filter fun p => !p.late && !p.ended && decide (p.twinCnt < t.canCfg c 24 4)) = some p →
    exec (.canTxChoice dt c) s = .next (t.setCan c { t.can[c].putBuf p.buf.val { t.can[c].buf p.buf.val with pm := t.now } with
      onBus := some p.buf,
      pend := t.can[c].pend.map fun r => if r.buf = p.buf then { r with attempts := r.attempts + 1 } else r })) ∧
  (∀ dt (c : Fin 3) r x s t b p u q, t = s.advance dt → t.inReset = false → t.can[c].onBus = some b → u = t.canBusIn c (t.can[c].afterTx r x) x.seen →
    q = (if (u.can[c].buf b.val).frame.fdf && bitAt (u.reg (canBase c.val + 12)) 19 then
        { u.can[c] with onBus := none, loopDly := min x.loopDly 127 } else { u.can[c] with onBus := none }) →
    q.pend.find? (·.buf = b) = some p →
    (r = .sent → exec (.canTxEnd dt c r x) s =
      let g := { q with pend := q.pend.filter (·.buf ≠ b) }
      .next ((u.setCan c (g.putBuf b.val { g.buf b.val with sent := true, cancelLate := p.late })).endTx c p .done 0
        (b2n p.late + 2 * b2n p.twinSeen))) ∧
    (r ≠ .sent → p.late = false → p.ended = false → p.single = false → q.state = 1 →
      exec (.canTxEnd dt c r x) s = .next (u.setCan c { q with
        pend := q.pend.map fun k =>
          if k.buf = b then { k with twinCnt := if r = .dataBitError then p.twinCnt + 1 else 0 } else k }))) ∧
  (∀ dt (c : Fin 3) (b : Fin 256) s t p, t = s.advance dt → t.inReset = false → t.can[c].pend.find? (·.buf = b) = some p →
    t.canCfg c 24 4 ≤ p.twinCnt →
    exec (.twin dt c b) s =
      let u := t.twinPost c b
      if p.twinStop then .next ((u.setCan c { u.can[c] with pend := u.can[c].pend.filter (·.buf ≠ b) }).endTx c p .failed 0xB7
        p.attempts)
      else .next (u.setCan c { u.can[c] with
        pend := u.can[c].pend.map fun k => if k.buf = b then { k with twinCnt := 0, twinSeen := true } else k })) ∧
  (∀ dt (c : Fin 3) x s t q, t = s.advance dt → t.inReset = false → t.can[c].state = 1 → t.can[c].errst < 2 → 256 ≤ x.txc →
    q = { t.can[c] with
      errst := 2, onBus := none, boAt := t.now, busOff := satAdd 0xFF t.can[c].busOff 1, txc := 255,
      errSeen := t.can[c].errSeen ||| x.seen } →
    exec (.busOff dt c x) s = .next (((t.setCan c q).post (canEvent c 4) q.counters).cancelPend c q.pend 0xB5 true)) ∧
  (∀ dt (c : Fin 3) s t, t = s.advance dt → t.inReset = false → t.can[c].errst = 2 → t.canCfg c 2 1 = 1 →
    t.can[c].boAt + t.fld (canBase c.val + 0x18) 0 16 * 80000 ≤ t.now →
    exec (.busOffRecoveryStart dt c) s = .next (t.setCan c { t.can[c] with errst := 3 })) ∧
  (∀ dt (c : Fin 3) s t q, t = s.advance dt → t.inReset = false → t.can[c].errst = 3 →
    q = { t.can[c] with errst := 0, txc := 0, rxc := 0 } →
    exec (.busRecovered dt c 128) s = .next ((t.setCan c q).post (canEvent c 7) q.counters)) ∧
  (∀ dt (c : Fin 3) n s, n ≠ 128 → exec (.busRecovered dt c n) s = .next (s.advance dt)) ∧
  (∀ dt (c : Fin 3) s t, t = s.advance dt → t.inReset = false →
    exec (.canIntegrationDone dt c) s = .next (t.setCan c { t.can[c] with integ := false }))

/-- Whenever the letter is admitted and the life cycle permits it. LOCK_LOAD of a 2,640-byte image whose CRC-32C matches and that
has no offending byte keeps it as the pending image; LOCK_COMMIT on a parked car with the CRC of the pending image is QUEUED
for the next evaluation; LOCK_TEST 1 with a door-zone bridge in the image, and LOCK_TEST 2 with both STO feedbacks configured
on a parked car with both outputs asserted, are QUEUED, the second with its first step. -/
def Obligations.LockLettersComplete : Prop :=
  (∀ a crc : Nat, Serves .lockLoad 0x070 lockLoadHandler
    (fun q t => u32 q.payload 0 = a ∧ u32 q.payload 8 = crc ∧ t.imageLocked = false ∧ (t.eccRead a imageLen).1 = none ∧
      (crc32c ((t.eccRead a imageLen).2.cellsFrom a imageLen)).toNat = crc ∧
      imageOffending (t.eccRead a imageLen).2.sys.role ((t.eccRead a imageLen).2.cellsFrom a imageLen) = none) doneReply
    (fun _ t => (t.eccRead a imageLen).2.setLock { (t.eccRead a imageLen).2.lock with
      pend := some ((t.eccRead a imageLen).2.cellsFrom a imageLen) })) ∧
  (∀ b : List Byte, Serves .lockCommit 0x071 lockCommitHandler
    (fun q t => t.imageLocked = false ∧ t.parked = true ∧ t.lock.pend = some b ∧ (crc32c b).toNat = u32 q.payload 0)
    (fun _ _ => .queued .lockCommit) (fun _ t => t.setLock { t.lock with commit := some b })) ∧
  (∀ i : List Byte,
    Serves .lockTestBridge 0x072 lockTestHandler
      (fun q t => u32 q.payload 0 = 1 ∧ t.testLocked = false ∧ t.image = some i ∧ (bridgeTrigger i).isSome = true)
      (fun _ _ => .queued .lockTest1) noEffect ∧
    Serves .lockTestSto 0x072 lockTestHandler
      (fun q t => u32 q.payload 0 = 2 ∧ t.testLocked = false ∧ t.image = some i ∧ u8 i 0x9D7 ≠ 255 ∧ u8 i 0x9D8 ≠ 255 ∧
        t.parked = true ∧ t.lock.stoA = true ∧ t.lock.stoB = true)
      (fun _ _ => .queued .lockTest2) (fun _ t => t.setLock { t.lock with stoTest := some (1, t.now) }))

/-- Out of reset. An evaluation, where the evaluator runs, computes the image; a bridge beyond its time fails it; a discrepancy
element beyond its time latches and posts 0x070A, a delay element beyond its time changes its output, both evaluate the matrix
again; two disagreeing evaluations latch DISAGREE with 0x0705; a confirmed open tap posts 0x0701; an image check that fails
withdraws the image; a commit on a parked car switches the image and ends DONE with 0x0709, else FAILED 0x72 or 0x74; an STO
test step goes on, ends DONE at the fourth, or FAILED 0x79 with 0x0707; a test due posts 0x070D once. -/
def Obligations.LockEventsComplete : Prop :=
  (∀ dt x s t, t = s.advance dt → t.inReset = false → t.evaluates = true →
    exec (.interlockEvaluation dt x) s = .next (t.evaluate x)) ∧
  (∀ dt s t i r, t = s.advance dt → t.inReset = false → t.image = some i → t.lock.bridgeRun = some r → t.trigNow i = true →
    r.start + u16 i 0xA44 * 80000 ≤ t.now → exec (.bridgeFail dt) s = .next t.bridgeFail.reMatrix) ∧
  (∀ dt (k : Fin 16) s t i, t = s.advance dt → t.inReset = false → t.image = some i →
    (u8 i (0x950 + 8 * k.val) = 3 → t.lock.delay[k].latched = false → delayTime i k.val + 1 ≤ t.lock.delay[k].cnt →
      exec (.lockDiscrepancy dt k) s = .next (((t.setLock ({ t.lock with
        delay := t.lock.delay.set k ⟨false, t.lock.delay[k].cnt, true⟩ }.putVal (72 + k.val) false)).post 0x070A k.val).reMatrix)) ∧
    (u8 i (0x950 + 8 * k.val) = 1 → t.lock.delay[k].out = false → delayTime i k.val + 1 ≤ t.lock.delay[k].cnt →
      exec (.delayElementExpiry dt k) s = .next (t.setLock ({ t.lock with
        delay := t.lock.delay.set k { t.lock.delay[k] with out := true } }.putVal (72 + k.val) true)).reMatrix) ∧
    (u8 i (0x950 + 8 * k.val) = 2 → t.lock.delay[k].out = true → delayTime i k.val ≤ t.lock.delay[k].cnt →
      exec (.delayElementExpiry dt k) s = .next (t.setLock ({ t.lock with
        delay := t.lock.delay.set k { t.lock.delay[k] with out := false } }.putVal (72 + k.val) false)).reMatrix)) ∧
  (∀ dt s t, t = s.advance dt → t.inReset = false → 2 ≤ t.lock.disRun → t.lock.disagree = false →
    (∀ d, t.lock.disDetail = some d →
      exec (.lockDisagree dt) s = .next ((t.post 0x0705 d).setLock { t.lock with disagree := true }).reMatrix) ∧
    (t.lock.disDetail = none → exec (.lockDisagree dt) s = .next (t.setLock { t.lock with disagree := true }).reMatrix)) ∧
  (∀ dt (k : Fin 12) s t i, t = s.advance dt → t.inReset = false → t.image = some i → tapOn i k.val = true →
    bitAt (u16 i 0xA12) k.val = true → t.lock.tap[k].level = true → t.lock.tap[k].raw = false →
    u8 i 0xA16 ≤ t.lock.tap[k].cnt →
    exec (.safetyChainOpen dt k) s = .next ((((t.noteWake 9).setLock ({ t.lock with
      tap := t.lock.tap.set k { t.lock.tap[k] with level := false } }.putVal (48 + k.val) false)).post 0x0701 k.val).bypassStep
        i).reMatrix) ∧
  (∀ dt s t i, t = s.advance dt → t.inReset = false → t.image = some i →
    exec (.lockImageCheck dt false false) s = .next t ∧
    exec (.lockImageCheck dt true false) s = .next (t.imageFails 1).reMatrix ∧
    exec (.lockImageCheck dt false true) s = .next (t.imageFails 2).reMatrix ∧
    exec (.lockImageCheck dt true true) s = .next ((t.imageFails 1).imageFails 2).reMatrix) ∧
  (∀ dt s t b, t = s.advance dt → t.inReset = false → t.lock.commit = some b → t.evaluates = true →
    exec (.lockCommitted dt true) s = .next ((t.setLock { t.lock with commit := none }).complete .lockCommit .failed 0x72 0) ∧
    (t.parked = false → exec (.lockCommitted dt false) s =
      .next ((t.setLock { t.lock with commit := none }).complete .lockCommit .failed 0x74 0)) ∧
    (t.parked = true → exec (.lockCommitted dt false) s =
      .next (((t.switchImage b).post 0x0709 (t.switchImage b).lock.crc.toNat).complete .lockCommit .done 0 0))) ∧
  (∀ dt s t i n a good, t = s.advance dt → t.inReset = false → t.image = some i → t.lock.stoTest = some (n, a) →
    a + u8 i 0x9DA * 80000 ≤ t.now →
    good = (decide (t.stoSafe i 0x9D7 = some (decide (n ≠ 1))) && decide (t.stoSafe i 0x9D8 = some (decide (n ≠ 3)))) →
    (good = false → exec (.stoTestStep dt) s =
      .next (((t.setLock { t.lock with stoResult := 2, stoStep := n }).post 0x0707 n).stoTestEnd .failed 0x79 n).gateStep) ∧
    (good = true → n < 4 → exec (.stoTestStep dt) s =
      .next (t.setLock { t.lock with stoTest := some (n + 1, t.now) }).gateStep) ∧
    (good = true → 4 ≤ n → exec (.stoTestStep dt) s = .next ((t.setLock { t.lock with
      stoResult := 1, stoStep := 0, stoPass := some t.now, duePosted := false }).stoTestEnd .done 0 0).gateStep)) ∧
  (∀ dt s t i p, t = s.advance dt → t.inReset = false → t.image = some i → t.lock.stoPass = some p → u16 i 0x9DC ≠ 0 →
    p + u16 i 0x9DC * hourCounts ≤ t.now → t.lock.duePosted = false →
    exec (.stoTestDue dt) s = .next ((t.setLock { t.lock with duePosted := true }).post 0x070D 0))

/-- Whenever the letter is admitted. WATCH_CHANGE with the car parked, a lane active, the other ready, the parcel fresh and
TAKEOVER clear is QUEUED and asks for the hand-over at the end of the tick. WATCH_SET with a minute of day up to 1439 and an
enable of 0 or 1 writes MINUTE and EN of the watch register and is DONE. -/
def Obligations.LaneLettersComplete : Prop :=
  Serves .watchChange 0x080 watchChangeHandler (fun _ t => t.parked = true ∧ t.watchFree = true)
    (fun _ _ => .queued .watchChange) (fun _ t => t.setLane { t.lane with watchGo := true }) ∧
  Serves .watchSet 0x081 watchSetHandler
    (fun q _ => u16 q.payload 0 ≤ 1439 ∧ u16 q.payload 2 ≤ 1) doneReply
    (fun q t => (t.setFld 0x80020 0 11 (u16 q.payload 0)).setFld 0x80020 16 1 (u16 q.payload 2))

/-- Out of reset. PARCEL_SEAL in the seal interval writes the other slot with the tick number and the journal place; a lane fault,
or a watchdog at the WDT-th tick instant without service, of the active lane posts 0x0801 or 0x0802, cuts a seal in progress
short and hands the role to the other lane if it is ready; TAKEOVER at the instant the hand-over ends grants the role and
resumes with 0x0803, or posts it and stops safely; three missed heartbeats post 0x0804 and 0x0805; the end of a lane reset
makes the lane ready with 0x080B or unfit with 0x080C; STILE_FAULT holds both lanes with 0x080E; the watch events note a due
change, start it, end it with 0x0807 or skip it with 0x080D. -/
def Obligations.LaneEventsComplete : Prop :=
  (∀ dt (units : Fin 512) s t b p, t = s.advance dt → t.inReset = false → t.lane.holder = some b → t.serving = true →
    t.lane.sealed = false → t.sealFrom ≤ t.now →
    p = (⟨b, units.val * 256, t.sys.tickNo, t.now, t.lane.jnext, t.fwVersion, t.sys.gen, t.sys.role.toNat⟩ : Parcel) →
    (t.lane.lastSlot = some false → exec (.parcelSeal dt units) s =
      .next ((t.eccClear (slotBaseAddr true) 0x20000).setLane { t.lane with
        slot1 := some p, torn1 := none, lastSlot := some true, sealed := true, sealEpoch := t.sys.tickNo })) ∧
    (t.lane.lastSlot ≠ some false → exec (.parcelSeal dt units) s =
      .next ((t.eccClear (slotBaseAddr false) 0x20000).setLane { t.lane with
        slot0 := some p, torn0 := none, lastSlot := some false, sealed := true, sealEpoch := t.sys.tickNo }))) ∧
  (∀ dt b word s t q, t = s.advance dt → t.inReset = false → t.pwr.mode ≠ .sleep → t.lane.holder = some b →
    q = ((((t.laneWord word).post 0x0801 (b2n b)).sealCut).countFault b).gapBegins → q.lane.cond (!b) = .ready →
    exec (.laneFault dt ⟨b, word⟩) s = .next (q.setLane { (q.lane.putCond b .held).putCond (!b) .active with
      stile := handTo (!b), hand := some ⟨q.now, q.sys.tickNo, false, false⟩ }).watchDrop) ∧
  (∀ dt b s t q, t = s.advance dt → t.inReset = false → t.serving = true → t.lane.holder = some b →
    t.now = t.sys.tickAt → t.fld 0x80030 0 4 ≤ t.lane.wdog →
    q = (((t.post 0x0802 (b2n b)).sealCut).countFault b).gapBegins → q.lane.cond (!b) = .ready →
    exec (.wdogExpired dt) s = .next (q.setLane { (q.lane.putCond b .held).putCond (!b) .active with
      stile := handTo (!b), hand := some ⟨q.now, q.sys.tickNo, false, false⟩ }).watchDrop) ∧
  (∀ dt bad0 bad1 bad errs s t b h x len q u, t = s.advance dt → t.inReset = false → t.lane.hand = some h → h.planned = false →
    t.lane.receiver = some b → x = (t.takeDecision h bad0 bad1 bad errs).1 → h.fromNone = false →
    len = handLen x (match x with | .ok p => t.lane.jnext - p.2.jpos | .error _ => 0) → h.pm + len / 5 = t.now →
    q = (t.takeDecision h bad0 bad1 bad errs).2.grantRole b false (match x with | .ok _ => 0 | .error r => r) h len →
    u = q.setLane { q.lane with cntTakeover := satAdd 0xFF q.lane.cntTakeover 1 } →
    t.lane.cond (!b) = .held →
    (∀ n p, x = .ok (n, p) → exec (.takeover dt bad0 bad1 ⟨bad, errs⟩) s =
      .next ((((u.afterFault (!b)).setLane { (u.afterFault (!b)).lane with lastSlot := some n }).post 0x0803
        (b2n b + 256 * (p.epoch % 2 ^ 24))).flushDeferred)) ∧
    (∀ r, x = .error r → exec (.takeover dt bad0 bad1 ⟨bad, errs⟩) s =
      .next (((u.afterFault (!b)).post 0x0803 (b2n b)).takeoverStop r))) ∧
  (∀ dt s t b, t = s.advance dt → t.inReset = false → t.lane.holder = some b → 3 ≤ t.lane.hbMissed → t.lane.stale = false → t.now = t.sys.tickAt →
    exec (.parcelStale dt) s = .next (((t.setLane { t.lane with
      stale := true, cntLinkFault := satAdd 0xFF t.lane.cntLinkFault 1 }).post 0x0804 (b2n (!b))).post 0x0805 t.lane.viewEpoch)) ∧
  (∀ dt b (f : Fin 4) s t, t = s.advance dt → t.inReset = false → t.lane.cond b = .resetting →
    (f.val ≠ 0 → exec (.standbyReady dt b f) s =
      .next ((t.setLane (t.lane.putCond b .unfit)).post 0x080C (b2n b + 256 * (f.val + 1)))) ∧
    (f.val = 0 → 0 < t.lane.hbOk → exec (.standbyReady dt b f) s =
      .next ((t.setLane ((t.lane.putCond b .ready).clearCount b t.now)).post 0x080B (b2n b)))) ∧
  (∀ dt s t, t = s.advance dt → t.inReset = false → t.lane.stile ≠ .fault →
    exec (.stileFault dt) s = .next (((t.sealCut.setLane { t.sealCut.lane with
      stile := .fault, laneA := .held, laneB := .held, hand := none }).post 0x080E 0).gapBegins.doorSwitch)) ∧
  (∀ dt s t, t = s.advance dt → t.inReset = false → t.pwr.phase = .run → t.fld 0x80020 16 1 = 1 →
    t.minuteAge < t.instantLen →
    exec (.watchDue dt) s = .next (t.setLane { t.lane with watchDue := some t.now })) ∧
  (∀ dt s t b, t = s.advance dt → t.inReset = false → t.lane.holder = some b → t.serving = true → t.now = t.sys.tickAt →
    t.lane.sealEpoch + 1 = t.sys.tickNo →
    (t.lane.watchGo = true ∧ t.lane.cond (!b) = .ready) ∨
      (t.lane.watchGo = false ∧ t.lane.watchDue.isSome = true ∧ t.parked = true ∧ t.watchFree = true) →
    exec (.watchChangeStart dt) s = .next (t.setLane { (t.lane.putCond b .held).putCond (!b) .active with
      stile := handTo (!b), watchGo := false, watchDue := none, hand := some ⟨t.now, t.sys.tickNo, true, false⟩ }).gapBegins) ∧
  (∀ dt s t h b len q, t = s.advance dt → t.inReset = false → t.lane.hand = some h → t.lane.receiver = some b → h.planned = true →
    len = handTime (match t.lane.slot (t.lane.lastSlot.getD false) with | some p => p.bodyLen | none => 0) 0 →
    h.pm + len / 5 = t.now → q = t.grantRole b true 0 h len →
    exec (.watchChanged dt) s = .next (((((q.setLane { q.lane.resetLane (!b) with
      cntWatch := satAdd 0xFF (q.lane.resetLane (!b)).cntWatch 1 }).post 0x0807 (b2n b)).complete .watchChange .done 0
        0).flushDeferred))) ∧
  (∀ dt s t p, t = s.advance dt → t.inReset = false → t.lane.watchDue = some p →
    t.now = p + t.fld 0x80020 24 8 * minuteCounts →
    exec (.watchSkipped dt) s = .next ((t.setLane { t.lane with watchDue := none }).post 0x080D (t.fld 0x80020 24 8)))

/-- Whenever the letter is admitted. OUT_SET writes the commanded values of the channels in its mask that are neither latched nor
shed, nor shed at this instant, and reports the others. IN_READ returns the image and validity bits 0-47, 8 bytes each.
OUT_RESTORE of a group restores it where the field supply and the mains permit, and is DONE on a group that is not shed.
OUT_RESTORE of a channel clears its latch where the cause is absent, and is DONE on a channel that is not latched.
COUNTER_CONFIG records the mode and gate of an input for the next tick instant. -/
def Obligations.FieldLettersComplete : Prop :=
  Serves .outSet 0x0A0 outSetHandler (fun _ _ => True)
    (fun q t => .done (maskOf 32 fun k => (word (u32 q.payload 0) : BitVec 32).getLsbD k &&
      (t.fio.latched.getLsbD k || t.outShed k || t.shedNow k)) [])
    (fun q t =>
      let w : BitVec 32 := word (u32 q.payload 0) &&& ~~~(maskOf 32 fun k => (word (u32 q.payload 0) : BitVec 32).getLsbD k &&
        (t.fio.latched.getLsbD k || t.outShed k || t.shedNow k))
      t.setFio { t.fio with cmd := (t.fio.cmd &&& ~~~w) ||| (word (u32 q.payload 4) &&& w) }) ∧
  Serves .inRead 0x0A1 inReadHandler (fun _ _ => True)
    (fun _ t => .done 0 (bytesLE 8 (maskOf 48 t.inActive).toNat ++ bytesLE 8 (maskOf 48 t.inValid).toNat)) noEffect ∧
  (∀ n : Nat, 1 ≤ n → n ≤ 4 → Serves .outRestoreGroup 0x0A2 outRestoreHandler
    (fun q t => u8 q.payload 0 = 0 ∧ u8 q.payload 1 = n ∧ u8 q.payload 2 = 0 ∧ u8 q.payload 3 = 0 ∧
      t.fio.shedT.entered = false ∧ (bitAt t.pwr.mainsShed (n - 1) = true → t.pwr.mains = true)) doneReply
    (fun _ t => if t.groupShed n then t.restoreGroup n else t)) ∧
  (∀ k : Fin 32, Serves .outRestoreChannel 0x0A2 outRestoreHandler
    (fun q t => u8 q.payload 0 = 1 ∧ u8 q.payload 1 = k.val ∧ u8 q.payload 2 = 0 ∧ u8 q.payload 3 = 0 ∧
      (t.fio.latched.getLsbD k.val = true → t.causePresent k = false)) doneReply
    (fun _ t => if t.fio.latched.getLsbD k.val then
      t.setFio { t.fio with latched := t.fio.latched &&& ~~~(BitVec.ofNat 32 (2 ^ k.val)) } else t)) ∧
  (∀ k : Fin 8, Serves .counterConfig 0x0A3 counterConfigHandler
    (fun q t => u8 q.payload 0 = k.val ∧ u8 q.payload 1 ≤ 2 ∧ u8 q.payload 2 = 0 ∧ u8 q.payload 3 = 0 ∧
      (u8 q.payload 1 = 2 → 1000 ≤ u32 q.payload 4 ∧ u32 q.payload 4 ≤ 1000000) ∧
      (t.carStation = true → t.door.mode = 4 → k.val ≠ t.fld 0x50008 0 3 ∧ k.val ≠ t.fld 0x50008 4 3) ∧
      t.counterUsed k.val = false) doneReply
    (fun q t => t.setFio { t.fio with
      ctr := t.fio.ctr.set k { t.fio.ctr[k] with next := some (u8 q.payload 1, u32 q.payload 4) } }))

/-- Out of reset. A frame to the field die carries what the grant and the permits allow, one from it the images and currents, a
bad one is counted; three periods without one, at most 25 µs, switch the outputs off with 0x0A08. A sampling window debounces
the inputs of its bank, whose changes may wake; a counter edge after 2 µs counts, a gate end sets the frequency. An off
channel above 12 V latches with 0x0A01, at 2 to 12 V under test current it is an open load with 0x0A02; overload for OVLTIME,
overtemperature and a group overcurrent for GRPTIME latch a channel with 0x0A03. VFIELD is stepped against three thresholds;
the next group is shed or restored. -/
def Obligations.FieldEventsComplete : Prop :=
  (∀ dt x s t, t = s.advance dt → t.inReset = false → t.pwr.mode ≠ .sleep →
    (∀ d, exec (.fieldLinkFrame dt d false x) s = .next (t.setFio { t.fio with linkErr := satAdd 0xFFFF t.fio.linkErr 1 })) ∧
    (∀ u, u = (t.setFio { t.fio with
      allowed := maskOf 32 (fun k => t.fio.cmd.getLsbD k && t.outPermitted k), frameAt := t.now, linkLost := false }).outRefresh →
      exec (.fieldLinkFrame dt true true x) s = .next (if t.fio.linkLost = true then u.setFio (u.fio.countersBack u.now) else u)) ∧
    exec (.fieldLinkFrame dt false true x) s = .next (t.setFio { t.fio with
      view := Vector.ofFn (fun k : Fin 48 => t.fio.view[k].take t.fio.inp[k]),
      amps := Vector.ofFn (fun k : Fin 32 => if t.fio.on.getLsbD k.val then x.amps[k] else 0),
      groupA := x.groupA, groupB := x.groupB, hottest := x.hottest })) ∧
  (∀ dt s t, t = s.advance dt → t.inReset = false → t.fio.frameAt + 1920 ≤ t.now → t.now ≤ t.fio.frameAt + 2000 → t.fio.linkLost = false →
    t.pwr.mode ≠ .sleep →
    exec (.fieldLinkFault dt) s = .next (((t.setFio { t.fio.invalidate with
      linkLost := true, linkOff := true, allowed := 0 }).outRefresh.post 0x0A08 ((t.now - t.fio.frameAt) / 640)).doorSwitch)) ∧
  (∀ dt (bank : Fin 6) (mv : Vector Int 8) s t, t = s.advance dt → t.inReset = false → t.fio.input.entered = false →
    ∃ f u, u = t.setFio { t.fio with inp := f, sampleAt := t.now, unsampled := if t.fio.sampleAt = t.now then t.fio.unsampled else t.fio.inp } ∧
      exec (.inputSample dt bank mv) s = .next (u.noteIf (u.wakeImage t.fio.inp) 5).inputsBack ∧
      ∀ k : Fin 48, f[k] =
        if k.val / 8 = bank.val ∧ t.counting k.val = false ∧ windowEnds t.now (t.inPeriod k.val) bank.val = true then
          t.fio.inp[k].sample t.now
            (if t.door.mode = 4 ∧ (k.val = t.fld 0x50008 0 3 ∨ k.val = t.fld 0x50008 4 3) then 1 else t.deb k.val) (t.inv k.val)
            t.fio.linkLost (t.fio.inp[k].reads k.val mv[fidx 7 (k.val % 8)])
        else t.fio.inp[k]) ∧
  (∀ dt (i : Fin 8) high s t x img u, t = s.advance dt → t.inReset = false → t.fio.ctr[i].mode ≠ 0 → t.pwr.mode ≠ .sleep →
    x = t.fio.inp[(⟨i.val, by omega⟩ : Fin 48)] → x.valid = true → x.chgPm + 160 ≤ t.now → img = (high != t.inv i.val) →
    u = (t.setFio { t.fio with
      inp := t.fio.inp.set i.val { x with
        level := high, raw := high, img := img, chgPm := if img = x.img then x.chgPm else t.now },
      ctr := t.fio.ctr.set i (if img && !x.img then t.fio.ctr[i].edge t.now else t.fio.ctr[i]) }) →
    exec (.counterEdge dt i high) s = .next (u.noteIf (u.wakeImage t.fio.inp) 5)) ∧
  (∀ dt (i : Fin 8) s t, t = s.advance dt → t.inReset = false → t.fio.ctr[i].mode = 2 →
    t.fio.ctr[i].gateAt + t.fio.ctr[i].gate * 80 = t.now → (t.inp i.val).valid = true → t.pwr.mode ≠ .sleep →
    exec (.counterGateEnd dt i) s = .next (t.setFio { t.fio with
      ctr := t.fio.ctr.set i { t.fio.ctr[i] with
        value := t.fio.ctr[i].freq, gateAt := t.fio.ctr[i].gateAt + t.fio.ctr[i].gate * 80, edges := 0 } })) ∧
  (∀ dt (k : Fin 32) mv temp s t q, t = s.advance dt → t.inReset = false → t.fio.on.getLsbD k.val = false →
    t.pwr.mode ≠ .sleep → t.fld 0xA001C 0 6 ≠ 0 → t.fio.toff[k] < t.now →
    (t.now - t.fio.toff[k]) % (t.fld 0xA001C 0 6 * 20000) = 0 →
    q = t.setFio { t.fio with volt := t.fio.volt.set k mv, temp := t.fio.temp.set k temp } →
    (12000 < mv → t.fio.latched.getLsbD k.val = false →
      exec (.outputDiagCheck dt k mv temp) s = .next ((q.latchOut k 0).post 0x0A01 k.val)) ∧
    (2000 ≤ mv → mv ≤ 12000 → bitAt (t.reg 0xA0110) k.val = true → t.fio.openLoad.getLsbD k.val = false →
      exec (.outputDiagCheck dt k mv temp) s = .next ((q.setFio { q.fio with
        openLoad := q.fio.openLoad ||| BitVec.ofNat 32 (2 ^ k.val) }).post 0x0A02 k.val)) ∧
    (mv < 2000 → exec (.outputDiagCheck dt k mv temp) s =
      .next (q.setFio { q.fio with openLoad := q.fio.openLoad &&& ~~~(BitVec.ofNat 32 (2 ^ k.val)) }))) ∧
  (∀ dt (k : Fin 32) s t, t = s.advance dt → t.inReset = false → t.fio.on.getLsbD k.val = true → t.pwr.mode ≠ .sleep →
    (∀ since, t.fio.ton[k] ≤ since → t.now = since + t.fld 0xA001C 8 8 * 80000 → exec (.overload dt ⟨k, since⟩) s = .next ((t.latchOut k 1).post 0x0A03 (k.val + 0x100))) ∧
    ∀ temp : Int, 160 < temp → exec (.driverOvertemp dt k temp) s =
      .next (((t.setFio { t.fio with temp := t.fio.temp.set k temp }).latchOut k 2).post 0x0A03 (k.val + 0x200))) ∧
  (∀ dt b since n s t k, t = s.advance dt → t.inReset = false → t.pwr.mode ≠ .sleep → n = t.fld 0xA001C 16 8 * 800000 →
    0 < n → since < t.now → (t.now - since) % n = 0 → t.heaviest b = some k →
    4000 < (if b then t.fio.groupB else t.fio.groupA) →
    exec (.groupOvercurrent dt ⟨b, since⟩) s = .next ((t.latchOut k 3).post 0x0A03 (k.val + 0x300))) ∧
  (∀ dt mv s t q, t = s.advance dt → t.inReset = false → q = t.setFio { t.fio with
      vfield := mv, low := t.fio.low.step 19000 20000 mv, shedT := t.fio.shedT.step 16500 17500 mv,
      input := t.fio.input.step 15000 16000 mv, restAt := t.restFrom mv } →
    q.fio.low.entered = t.fio.low.entered → q.fio.shedT.entered = t.fio.shedT.entered →
    q.fio.input.entered = t.fio.input.entered → exec (.vfieldSample dt mv) s = .next q) ∧
  (∀ dt mv s t q, t = s.advance dt → t.inReset = false → q = t.setFio { t.fio with
      vfield := mv, low := t.fio.low.step 19000 20000 mv, shedT := t.fio.shedT.step 16500 17500 mv,
      input := t.fio.input.step 15000 16000 mv, restAt := t.restFrom mv } →
    q.fio.low.entered = t.fio.low.entered → q.fio.shedT.entered = t.fio.shedT.entered →
    q.fio.input.entered = true → t.fio.input.entered = false →
    exec (.vfieldSample dt mv) s = .next ((q.setFio { (q.fio.discard q.now).invalidate with invalidPosted := true }).post 0x0A06 mv)) ∧
  (∀ dt s t at' g, t = s.advance dt → t.inReset = false → t.fio.shedNext = some (g, at') → t.fio.shedT.entered = true →
    at' = t.now → exec (.fieldShed dt) s = .next (t.shedOne g)) ∧
  (∀ dt s t at' g, t = s.advance dt → t.inReset = false → t.fio.restAt = some at' → at' ≤ t.now →
    t.fio.shedT.entered = false → t.autoGroup t.fieldOnly = some g →
    exec (.fieldRestored dt) s =
      .next ((t.setFio { t.fio with restAt := some (t.now + t.fld 0xA0130 16 8 * 800000) }).restoreGroup g))

/-- Whenever the letter is admitted. LINK_MODE start on a link that is OFF, with PHY 0 or 1 and bytes 2-3 zero, is QUEUED and
enters PHY_WAIT with the limits of the start. LINK_MODE stop with no unit moving is DONE on a link that is OFF, else QUEUED
with the stop requested for the next cycle instant. -/
def Obligations.LinkLettersComplete : Prop :=
  Serves .linkModeStart 0x0C0 linkModeHandler
    (fun q t => u8 q.payload 0 = 1 ∧ u8 q.payload 1 ≤ 1 ∧ u8 q.payload 2 = 0 ∧ u8 q.payload 3 = 0 ∧ t.link.state = 0)
    (fun _ _ => .queued .linkStart) (fun q t => t.setLink { t.link with
      state := 1, fibre := decide (u8 q.payload 1 = 1), since := t.now, limited := true, exempt := true, okRun := 0,
      stopReq := false, txSeg := 0, rx := none }) ∧
  Serves .linkModeStop 0x0C0 linkModeHandler
    (fun q t => u8 q.payload 0 = 0 ∧ u8 q.payload 1 ≤ 1 ∧ u8 q.payload 2 = 0 ∧ u8 q.payload 3 = 0 ∧ t.anyMoving = false)
    (fun _ t => if t.link.state = 0 then .ended .linkStop .done 0 0 else .queued .linkStop)
    (fun _ t => if t.link.state = 0 then t else t.setLink { t.link with stopReq := true })

/-- Out of reset. At a cycle instant a link that is UP sends a segment and counts a missed cycle, a link in SYNC that is ready
goes UP, and a stop ends with both receipts. A frame whose addresses, checksums or header fail is discarded and breaks the
run; a frame accepted in sequence takes the echoes, the flags, the station data and the segment. Three missed cycles make the
link DOWN. The PHY poll ends PHY_WAIT; 5 s without PHY link or without UP fail the start with 0xC1 or 0xC4. Blind levelling
posts 0x0E03 with its landing, or 255 and a stop. Loss opens the door in the zone, and the hold time closes it. -/
def Obligations.LinkEventsComplete : Prop :=
  (∀ dt (req : Fin 4) s t, t = s.advance dt → t.inReset = false → t.now % 20000 = 0 →
    (t.link.stopReq = true → t.link.state ≠ 0 → exec (.carLinkCycle ⟨dt, req⟩) s =
      .next ((((if t.link.state = 3 then t.linkDown 0 else t.rxBreak).linkOff.complete .linkStart .aborted 0 0).complete .linkStop
        .done 0 0))) ∧
    (∀ q, q = t.setLink { t.link with
        seqTx := (t.link.seqTx + 1) % 65536, doorOut := if t.serving = true then req.val else t.link.doorOut } →
      t.link.stopReq = false →
      (t.link.state = 3 → t.link.accepted = true → t.link.acceptedAt < t.now → exec (.carLinkCycle ⟨dt, req⟩) s =
        .next (q.setLink { q.link with missed := 0, accepted := false }).linkSend) ∧
      (t.link.state = 3 → t.link.accepted = false ∨ t.now ≤ t.link.acceptedAt → exec (.carLinkCycle ⟨dt, req⟩) s =
        .next (q.rxBreak.setLink { q.rxBreak.link with
          missed := satAdd 3 t.link.missed 1, accepted := t.link.accepted }).linkSend) ∧
      (t.link.state = 2 → q.linkReady = true → exec (.carLinkCycle ⟨dt, req⟩) s = .next q.linkUp.linkSend))) ∧
  (∀ dt age f x s t, t = s.advance dt → t.inReset = false → 2 ≤ t.link.state → x = linkFields (slice f 14 320) age →
    t.frameOk f false = false → t.frameOk f true = false → exec (.carLinkFrameRx dt ⟨age, f⟩) s =
      .next (t.setLink { t.link with discard := satAdd 0xFF t.link.discard 1, okRun := 0 })) ∧
  (∀ dt age f x s t q u, t = s.advance dt → t.inReset = false → 2 ≤ t.link.state → x = linkFields (slice f 14 320) age →
    t.frameOk f false = true → x.kind = (if t.machine then 2 else 1) → (x.seq + 65536 - t.link.seqRx) % 65536 = 1 →
    (t.link.state = 2 → t.link.limited = true → x.gen = t.sys.gen ∧ x.period = t.sys.period) →
    q = t.setLink { t.link with
      exempt := false, accepted := true, acceptedAt := if t.link.accepted = true then t.link.acceptedAt else t.now, seqRx := x.seq,
      okRun := t.link.okRun + 1, echoTx := x.tTx,
      echoRx := t.now - x.age, flags := x.flags, gen := x.gen, period := x.period,
      locked := if t.machine then x.flags.getLsbD 1 else t.link.locked } →
    u = (if (q.linkData x).carStation = true ∧ x.echoTx ≠ 0 then (q.linkData x).linkTime x else q.linkData x) →
    exec (.carLinkFrameRx dt ⟨age, f⟩) s = .next (u.rxSegment x)) ∧
  (∀ dt s t, t = s.advance dt → t.inReset = false → t.now % 20000 = 0 → t.link.state = 3 → 3 ≤ t.link.missed →
    exec (.carLinkDown dt) s = .next (t.linkDown 4)) ∧
  (∀ dt up s t, t = s.advance dt → t.inReset = false →
    exec (.phyStatusPoll dt up) s = .next (t.setLink (if t.link.state = 1 ∧ up = true then
      { t.link with phy := up, state := 2, since := t.now, okRun := 0, exempt := true } else { t.link with phy := up }))) ∧
  (∀ dt s t, t = s.advance dt → t.inReset = false → t.link.since + 400000000 = t.now →
    (t.link.state = 1 → exec (.linkPhyTimeout dt) s = .next (t.linkFail 0xC1)) ∧
    (t.link.state = 2 → t.link.limited = true →
      exec (.linkSyncTimeout dt) s = .next (t.linkFail 0xC4))) ∧
  (∀ dt f addr segs s t q, t = s.advance dt → t.inReset = false → t.link.blindDue = true → t.serving = true →
    t.sys.tickAt + 800 ≤ t.now → t.now ≤ t.sys.tickAt + 800 + t.budgetLen → t.ramp[0].moving = true →
    q = t.setLink { t.link with blindDue := false, blindJ := t.lane.jnext, blind := 1 } →
    (∀ i level, q.blindTarget (decide (0 < t.ramp[0].vel ∨ (t.ramp[0].vel = 0 ∧ 0 ≤ t.ramp[0].acc))) = some (i, level) →
      exec (.blindLevelling dt f addr segs) s = .next ((q.post 0x0E03 i).blindMove level f addr segs)) ∧
    (q.blindTarget (decide (0 < t.ramp[0].vel ∨ (t.ramp[0].vel = 0 ∧ 0 ≤ t.ramp[0].acc))) = none →
      exec (.blindLevelling dt f addr segs) s = .next ((q.post 0x0E03 255).orderStop 0 false .moveStop))) ∧
  (∀ dt s t sl p q, t = s.advance dt → t.inReset = false → t.carStation = true → t.link.hold = true →
    t.fld 0xE0020 16 1 = 1 → t.link.opened = false → t.link.slowAt = some sl → sl + 80000000 ≤ t.now → t.linkZones = true →
    t.openPermit = true → 1 ≤ t.door.mode → t.door.mode ≤ 3 → t.door.fault = false → p = t.fld 0xE0020 17 3 →
    t.profileBad p = false → (t.door.state = 3 ∨ t.door.state = 4 ∨ t.door.state = 10 ∨ t.door.state = 11) →
    q = t.setLink { t.link with opened := true, openedAt := some t.now } →
    exec (.linkOpenOnLoss dt) s = .next ((q.setDoor { q.door with
      hold := 0, openProfile := p, nudge := false, firstHold := none }).openSoon p)) ∧
  (∀ dt s t o, t = s.advance dt → t.inReset = false → t.link.openedAt = some o →
    o + t.fld 0xE0020 24 8 * 80000000 ≤ t.now → (t.door.state = 6 ∨ t.door.state = 10) →
    exec (.linkDoorHoldExpiry dt) s =
      .next ((t.setLink { t.link with openedAt := none }).closeSoon (t.fld 0xE0020 17 3) false))

/-- Whenever the letter is admitted. POWER_MODE to DOZE, PARK or SLEEP that no state check refuses records mode, wake mask, its
own instant and the end of the running tick. RESCUE_START on a machine station without mains, unit 0 at standstill, is DONE at
level, else it begins the rescue to the landing chosen and is QUEUED. MODULE_RESET kind 1 with nothing moving answers DONE,
which leaves, and then makes a module reset of cause 2; kind 2 starts the lane reset of the lane that does not hold the role. -/
def Obligations.PowerLettersComplete : Prop :=
  Serves .powerMode 0x0D0 powerModeHandler
    (fun q t => 1 ≤ u32 q.payload 0 ∧ u32 q.payload 0 ≤ 3 ∧ u32 q.payload 4 < 1024 ∧ t.modeRefused (u32 q.payload 0) = none)
    doneReply (fun q t => t.setPwr { t.pwr with
      askedEra := t.ev.era, askedAt := t.now, woken := 0,
      entry := some (pmodeOf (u32 q.payload 0), u32 q.payload 4, (t.now / t.tickLen + 1) * t.tickLen) }) ∧
  Serves .rescueStart 0x0D1 rescueStartHandler
    (fun q t => u32 q.payload 0 ≤ 2 ∧ t.carStation = false ∧ t.pwr.mains = false ∧ t.moving 0 = false ∧ t.sense.inLevel = true)
    (fun _ _ => .ended .rescue .done 0 0) noEffect ∧
  (∀ i y, Serves .rescueStart 0x0D1 rescueStartHandler
    (fun q t => u32 q.payload 0 ≤ 2 ∧ t.carStation = false ∧ t.pwr.mains = false ∧ t.moving 0 = false ∧ t.sense.inLevel = false ∧
      t.rescueTarget (u32 q.payload 0) = some (i, y))
    (fun _ _ => .queued .rescue) (fun _ t => t.rescueGo i y)) ∧
  (∀ l s i q gap t u, State.admitted 0x008 moduleResetHandler l s = some (i, q, gap, t) → t.carMoves = false →
    u32 q.payload 0 = 1 → u = ((t.setPwr { t.pwr with resetDue := true }).keepLetter 0x008 q.payload).reply 0x008 i.ctl q gap
      (.done 0 []) →
    exec (.moduleReset l) s = .next (((u.setPwr { u.pwr with resetDue := false }).portSent l.port).moduleReset 2 .sequence)) ∧
  (∀ l s i q gap t, State.admitted 0x008 moduleResetHandler l s = some (i, q, gap, t) → t.carMoves = false →
    u32 q.payload 0 = 2 → t.laneResetRefused = none → t.pwr.resetDue = false →
    exec (.moduleResetLane l) s = .next (((t.laneReset true).keepLetter 0x008 q.payload).reply 0x008 i.ctl q gap (.done 0 [])))

/-- Out of reset. An accepted entry at its instant enters its mode, with what PARK and SLEEP add, and wakes at once if mains was
lost; a wake source in force raises RUN; the parked idle time posts a POWER_MODE. Mains low in four samples posts 0x0F01,
wakes and sheds SHEDMASK; restored for 10 ms posts 0x0F06. VKEEP four times below its level posts 0x0F02 once, and four times
0.5 V above arms it again. Rescue starts by itself after DELAY, and ends DONE at level or FAILED 0xD7, 0xD8. ENC_PWR above 350
mA posts 0x0F07; a die above 115 °C posts 0x0F04; a clock fault resets the module or bars SLEEP; standby holds outputs off. -/
def Obligations.PowerEventsComplete : Prop :=
  (∀ dt s t m mask due q u, t = s.advance dt → t.inReset = false → t.pwr.entry = some (m, mask, due) → t.now = due →
    t.pwr.mode = .run →
    q = t.setPwr { t.pwr with mode := m, wakeMask := mask, entry := none, enteredAt := t.now, linkHeld := false } →
    u = (if m = .sleep then q.parkBlocks.sleepBlocks else if m = .park then q.parkBlocks else q) →
    exec (.powerModeEntry dt) s = .next (if u.pwr.mains = true then u else u.wake 8)) ∧
  (∀ dt (src : Fin 14) s t, t = s.advance dt → t.inReset = false → t.pwr.mode ≠ .run → t.wakes src.val = true → src.val < 10 →
    exec (.wake dt src) s = .next (t.wake src.val)) ∧
  (∀ dt s t at', t = s.advance dt → t.inReset = false → t.pwr.idleFrom = some at' → t.serving = true → t.parkedIdle = true →
    t.fld 0xF0008 0 1 = 1 → at' + t.fld 0xF0008 4 12 * 80000000 ≤ t.now →
    exec (.idleTimeout dt) s = .next ((t.setPwr { t.pwr with idleFrom := none }).post5 0x0D0 1
      (bytesLE 4 (t.fld 0xF0008 1 2) ++ bytesLE 4 (t.fld 0xF0008 16 10)))) ∧
  (∀ dt (vlog : Vector Nat 4) vkeep low s t q, t = s.advance dt → t.inReset = false → t.pwr.mains = true →
    (∀ k : Fin 4, vlog[k] < 17000 ∨ (t.fld 0xF0004 1 1 = 1 ∧ low[k] = true)) → t.pwr.phase = .run → t.pwr.mode ≠ .sleep →
    q = t.setPwr { t.pwr with
      mains := false, onVkeep := true, lostAt := some t.now, rescued := false, vlog := vlog[3], vkeep := vkeep, restoreAt := none } →
    exec (.mainsLoss dt vlog vkeep low) s = .next (((q.post 0x0F01 vkeep).wake 8).mainsShed)) ∧
  (∀ dt vlog high since s t, t = s.advance dt → t.inReset = false → t.pwr.mains = false → 18000 ≤ vlog →
    (t.fld 0xF0004 1 1 = 1 → high = true) → since + 800000 ≤ t.now →
    exec (.mainsRestored dt vlog ⟨high, since⟩) s = .next ((t.setPwr { t.pwr with
      mains := true, onVkeep := false, lostAt := none, vlog := vlog,
      restoreAt := some (t.now + t.fld 0xA0130 16 8 * 800000) }).post 0x0F06 vlog)) ∧
  (∀ dt (mv : Vector Nat 4) s t, t = s.advance dt → t.inReset = false →
    (t.pwr.vkeepArmed = true → (∀ k : Fin 4, mv[k] < t.fld 0xF0004 8 8 * 100) → exec (.vkeepLow dt mv) s =
      .next ((t.setPwr { t.pwr with vkeepArmed := false, vkeep := mv[3] }).post 0x0F02 mv[3])) ∧
    ((∀ k : Fin 4, t.fld 0xF0004 8 8 * 100 + 500 ≤ mv[k]) → exec (.vkeepRecovered dt mv) s =
      .next (t.setPwr { t.pwr with vkeepArmed := true, vkeep := mv[3] }))) ∧
  (∀ dt s t at', t = s.advance dt → t.inReset = false → t.pwr.lostAt = some at' → t.machine = true → t.serving = true →
    t.pwr.bootDone = true → t.fld 0xF001C 20 1 = 1 → t.pwr.mains = false → t.pwr.rescued = false →
    at' + t.fld 0xF001C 24 8 * 80000000 ≤ t.now → t.moving 0 = false → t.sense.inLevel = false →
    exec (.rescueAutoStart dt) s = .next ((t.setPwr { t.pwr with rescued := true }).post5 0x0D1 1 (bytesLE 4 0))) ∧
  (∀ dt s t r, t = s.advance dt → t.inReset = false → t.pwr.rescue = some r →
    (∀ d, t.rescueMove r = some (.error d) → exec (.rescueLevelCheck dt) s = .next (t.rescueEnd .failed 0xD7 d 3)) ∧
    (∀ p, t.rescueMove r = some (.ok p) → t.now = t.sys.tickAt → t.now ≤ p + 80000000 → t.moving 0 = false →
      t.ramp[0].pos = r.target * 65536 → t.sense.inLevel = true →
      exec (.rescueLevelCheck dt) s = .next (t.rescueEnd .done 0 0 2)) ∧
    (∀ p, t.rescueMove r = some (.ok p) → t.now = p + 80000000 → t.sense.inLevel = false →
      exec (.rescueLevelCheck dt) s = .next (t.rescueEnd .failed 0xD8 (ucode 32 t.sense.landDist) 3))) ∧
  (∀ dt s t, t = s.advance dt → exec (.clockFault dt 2) s = .next ((t.setPwr { t.pwr with xtalOk := false }).post 5 3) ∧
    ∀ k : Fin 3, k.val ≠ 2 → exec (.clockFault dt k) s =
      .next ((t.setPwr { t.pwr with clockFault := some (k.val + 1) }).moduleReset 4 t.resetPhase)) ∧
  (∀ dt ma s t, t = s.advance dt → t.inReset = false → t.pwr.encOn = true → 350 < ma →
    exec (.encPwrFault dt ma) s = .next ((t.setPwr { t.pwr with encOn := false, encFault := some false }).post 0x0F07 0)) ∧
  (∀ dt temp s t, t = s.advance dt → t.inReset = false → 115 < temp →
    (t.pwr.overC = false → exec (.overtemp dt false temp) s =
      .next ((t.setPwr { t.pwr with tempC := temp, overC := true }).post 0x0F04 (256 * ucode 16 temp))) ∧
    (t.pwr.overF = false → exec (.overtemp dt true temp) s =
      .next ((t.setPwr { t.pwr with tempF := temp, overF := true }).post 0x0F04 (1 + 256 * ucode 16 temp)))) ∧
  (∀ dt s t, t = s.advance dt → t.inReset = false → t.fld 0xA0180 0 1 = 1 → t.tickDue = false →
    exec (.standbyIdleExpiry dt) s = .next (t.setFio { t.fio with
      lightsOff := t.fio.lightsOff || decide (t.fio.idleFrom + t.fld 0xA0180 4 12 * 80000000 ≤ t.now),
      ventOff := t.fio.ventOff || decide (t.fio.idleFrom + t.fld 0xA0180 16 12 * 80000000 ≤ t.now) }).outRefresh)

/-- POWER_ON_RESET leaves the reset machine with its supply held, cause POR, its flash and queue kept. BROWN_OUT with both
supplies below 9.5 V and RESET_PIN make a module reset with their causes. SUPPLY_STABLE after 10 ms above its threshold lets a
held supply go on to the sequence; the sequence, at 0.312 ms, with three equal valid straps releases lane A in that role, else
it holds both lanes and posts event 1. BOOT runs from the bank that the activation record and the firmware checks select, or
recovers. BOOT_DONE after the last stored letter posts 0xB with the boot time. -/
def Obligations.ResetAndBootComplete : Prop :=
  (∀ dt s t, t = (s.advance dt).cutTransition → exec (.powerOnReset dt) s = .next { State.reset with
    pending := t.pending, free := t.free, flash := t.flash.afterReset, lb := { LetterSt.init with left := t.lb.left },
    pwr := { PwrSt.init with phase := .held, bank := t.pwr.bank }, sys := { SysSt.init with role := 0 } }) ∧
  (∀ dt vlog vkeep s t, t = s.advance dt → vlog < 9500 → vkeep < 9500 →
    exec (.brownOut dt vlog vkeep) s = .next ((t.setPwr { t.pwr with vlog := vlog, vkeep := vkeep }).moduleReset 3 .held)) ∧
  (∀ dt s t, t = s.advance dt → exec (.resetPin dt) s =
    .next (t.moduleReset 1 (if t.pwr.phase = .held then .held else .sequence))) ∧
  (∀ dt mv since s t, t = s.advance dt → t.pwr.phase = .held → since + 800000 ≤ t.now →
    (18000 ≤ mv → exec (.supplyStable dt ⟨false, mv, since⟩) s = .next (t.setPwr { t.pwr with
      phase := .sequence, seqAt := t.now, mains := true, onVkeep := false, vlog := mv, lostAt := none, rescued := false })) ∧
    (10000 ≤ mv → exec (.supplyStable dt ⟨true, mv, since⟩) s = .next (t.setPwr { t.pwr with
      phase := .sequence, seqAt := t.now, mains := false, onVkeep := true, vkeep := mv, lostAt := some (t.pwr.lostAt.getD t.now) }))) ∧
  (∀ dt (r : BitVec 2) s t, t = s.advance dt → t.pwr.phase = .sequence → t.sequenceEnds = true → (r = 1#2 ∨ r = 2#2) →
    exec (.moduleResetSequence dt ⟨#[r, r, r], rfl⟩) s = .next ({ t with
      sys := { t.sys with strap := r, agree := true, role := r } }.setPwr { t.pwr with
      phase := .released, releasedAt := t.now })) ∧
  (∀ dt (p q r : BitVec 2) s t, t = s.advance dt → t.pwr.phase = .sequence → t.sequenceEnds = true → ¬ (p = q ∧ q = r ∧ (r = 1#2 ∨ r = 2#2)) →
    ∃ u : State, exec (.moduleResetSequence dt ⟨#[p, q, r], rfl⟩) s = .next (u.post 1 (p.toNat + 256 * q.toNat + 65536 * r.toNat)) ∧
      u.sys.role = 0 ∧ u.pwr.phase = .strapBad ∧ u.lane.laneA = .held ∧ u.lane.laneB = .held) ∧
  (∀ dt bad fails s t, t = s.advance dt → t.pwr.phase = .released →
    (∀ b fb, t.flash.erased.bootBank = some (b, fb) →
      exec (.boot dt bad fails) s = .next ((t.setFlash t.flash.erased).bootFrom b fb bad fails)) ∧
    (t.flash.erased.bootBank = none →
      exec (.boot dt bad fails) s = .next ((t.setFlash t.flash.erased).recover fails))) ∧
  (∀ dt s t, t = s.advance dt → (t.pwr.phase = .run ∨ t.pwr.phase = .recovery) → t.pwr.bootDone = false →
    t.portQueue 5 = [] → t.lb.held5 = [] →
    exec (.bootDone dt) s = .next ((t.setPwr { t.pwr with
      bootDone := true, bootTime := min ((t.now - t.pwr.releasedAt) / 8000) 0xFFFF, lostAt := t.pwr.lostAt.map (fun _ => t.now) }).post
        0xB (min ((t.now - t.pwr.releasedAt) / 8000) 0xFFFF)))

/-- Whenever the letter is admitted. CONFIG_SAVE with good ranges, the flash idle and the device not RETIRED is QUEUED, its copy
marked being written. IMAGE_WRITE of a whole number of 16-byte blocks to a bank that is not running erases the sector it
begins, programs the bytes and is DONE; IMAGE_VERIFY with the flash idle is QUEUED; IMAGE_ACTIVATE of a verified bank writes
the activation record; LC_TRANSITION along an edge of the life cycle, parked, keyed for LOCKED and saved for SERVICE, is
QUEUED. -/
def Obligations.FlashLettersComplete : Prop :=
  Serves .configSave 0x010 configSaveHandler
    (fun q t => u32 q.payload 0 ≤ 1 ∧ t.badRange = none ∧ t.flashBusy = false ∧ t.flash.lc ≠ 4) (fun _ _ => .queued .configSave)
    (fun q t =>
      let b := bankOf q.payload
      let n := t.freeUpTo (3637248 - 128)
      n.2.setFlash { n.2.flash.putCopy b (t.flash.older b) .damaged with saving := some (b, t.flash.older b,
        { saves := (match t.flash.best b with | some x => x.2.saves + 1 | none => 1), fwVersion := t.fwVersion, len := n.1,
          regs := t.savedRegs, letters := t.savedLetters, image := t.lock.image1 }) }) ∧
  Serves .imageWrite 0x0E0 imageWriteHandler
    (fun q t => u32 q.payload 0 ≤ 1 ∧ u32 q.payload 4 % 16 = 0 ∧ u32 q.payload 4 + (q.payload.length - 8) ≤ 0x100000 ∧
      (q.payload.drop 8).length % 16 = 0 ∧ t.runsBank (bankOf q.payload) = false ∧ t.flashBusy = false) doneReply
    (fun q t =>
      let b := bankOf q.payload
      let o := u32 q.payload 4
      let f := if o % 65536 = 0 ∧ o < 0x100000 then t.flash.fw[b].eraseSector (o / 65536) else t.flash.fw[b]
      let u : State := { t with free := t.free + (q.payload.drop 8).length }
      u.setFlash { t.flash with
        fw := t.flash.fw.set b (programBytes t.free o (q.payload.drop 8) { f with factory := none }),
        verified := t.flash.verified.set b false, imgBusy := some (b, o / 65536) }) ∧
  Serves .imageVerify 0x0E1 imageVerifyHandler (fun q t => u32 q.payload 0 ≤ 1 ∧ t.flashBusy = false)
    (fun _ _ => .queued .imageVerify) (fun q t => t.setFlash { t.flash with verifying := some (bankOf q.payload) }) ∧
  Serves .imageActivate 0x0E2 imageActivateHandler
    (fun q t => u32 q.payload 0 ≤ 1 ∧ t.flash.verified[bankOf q.payload] = true) doneReply
    (fun q t => t.setFlash { t.flash with activation := bankOf q.payload }) ∧
  Serves .lcTransition 0x0E3 lcTransitionHandler
    (fun q t => 1 ≤ u32 q.payload 0 ∧ u32 q.payload 0 ≤ 4 ∧ transitionOk t.flash.lc (u32 q.payload 0) = true ∧ t.parked = true ∧
      (u32 q.payload 0 = 2 → t.transportKey = true → t.flash.key.isSome = true) ∧
      (u32 q.payload 0 = 3 → t.imageSaved = true) ∧ t.flashBusy = false)
    (fun _ _ => .queued .lcTransition) (fun q t => t.setFlash { t.flash with lcTarget := some (u32 q.payload 0) })

/-- Out of reset. The end of programming frees the flash. The end of CONFIG_SAVE makes the copy valid and DONE, or ends FAILED
0xEA where it does not read back. The end of IMAGE_VERIFY marks the bank verified and DONE, or ends FAILED with what is wrong.
The written life-cycle record takes the new state, ends the outstanding LC_TRANSITION DONE and makes a module reset of cause
5. -/
def Obligations.FlashEventsComplete : Prop :=
  (∀ dt s t, t = s.advance dt → t.inReset = false →
    exec (.flashProgramDone dt) s = .next (t.setFlash { t.flash with imgBusy := none })) ∧
  (∀ dt s t b isB c, t = s.advance dt → t.inReset = false → t.flash.saving = some (b, isB, c) →
    exec (.configSaveDone dt true) s = .next ((t.setFlash ({ t.flash with saving := none }.putCopy b isB (.valid c))).complete
      .configSave .done 0 0) ∧
    exec (.configSaveDone dt false) s = .next ((t.setFlash { t.flash with saving := none }).complete .configSave .failed 0xEA 0)) ∧
  (∀ dt s t b q, t = s.advance dt → t.inReset = false → t.flash.verifying = some b →
    q = t.setFlash { t.flash with verifying := none } →
    (q.bankBad b = none → exec (.imageVerifyDone dt) s = .next ((q.setFlash { q.flash with
      verified := q.flash.verified.set b true }).complete .imageVerify .done 0 0)) ∧
    (∀ d, q.bankBad b = some d → exec (.imageVerifyDone dt) s = .next (q.complete .imageVerify .failed d 0))) ∧
  (∀ dt s t n o, t = s.advance dt → t.inReset = false → t.flash.lcTarget = some n →
    t.lb.outst.find? (fun x => x.act = .lcTransition) = some o → exec (.lcRecordWritten dt) s =
      .next ((((t.setFlash (t.flash.transition n)).complete .lcTransition .done 0 0).portSent o.port).moduleReset 5 .sequence))

/-- Whenever the letter is admitted. MILL_START of a mill that is not running, with an aligned entry address in its program space,
makes it ready: start code 0 arms it for the tick, 1 runs it once. MILL_STOP stops it, DONE on a stopped one. MILL_FETCH sets
the arrangement where no running mill changes gang. At 10 µs after a tick instant each mill in TICK_IDLE starts at its entry
address unless this start is skipped, and the window outputs are those released before. A due event at an allowed boundary
enters the handler in bank 1, two cycles later. -/
def Obligations.MillLettersAndEventsComplete : Prop :=
  (∀ m : Fin 4, Serves .millStartTick 0x090 millStartHandler
    (fun q t => u8 q.payload 0 = m.val ∧ u8 q.payload 1 = 0 ∧ u8 q.payload 2 = 0 ∧ u8 q.payload 3 = 0 ∧
      u32 q.payload 4 % 4 = 0 ∧ u32 q.payload 4 < progSpace t.mill.arr m.val ∧ (t.mill.mill[m]).running = false) doneReply
    (fun q t => t.setMill m { (t.mill.mill[m]).ready (u32 q.payload 4) with
      entry := u32 q.payload 4, state := 1, pc := (t.mill.mill[m]).pc })) ∧
  (∀ m : Fin 4, Serves .millStartOnce 0x090 millStartHandler
    (fun q t => u8 q.payload 0 = m.val ∧ u8 q.payload 1 = 1 ∧ u8 q.payload 2 = 0 ∧ u8 q.payload 3 = 0 ∧
      u32 q.payload 4 % 4 = 0 ∧ u32 q.payload 4 < progSpace t.mill.arr m.val ∧ (t.mill.mill[m]).running = false) doneReply
    (fun q t => t.setMill m { (t.mill.mill[m]).ready (u32 q.payload 4) with
      entry := u32 q.payload 4, state := 3, pc := u32 q.payload 4 })) ∧
  (∀ m : Fin 4, Serves .millStop 0x091 millStopHandler (fun q _ => u8 q.payload 0 = m.val) doneReply
    (fun _ t => if (t.mill.mill[m]).state = 0 then t else t.setMill m { (t.mill.mill[m]).drain with
      state := 0, delay := 0, target := none, rte := false })) ∧
  Serves .millFetch 0x092 millFetchHandler
    (fun q t => u8 q.payload 0 ≤ 4 ∧ ∀ m : Fin 4, (t.mill.mill[m]).running = true →
      gangOf (u8 q.payload 0) m.val = gangOf t.mill.arr m.val) doneReply
    (fun q t => { t with mill := { t.mill with arr := u8 q.payload 0 } }) ∧
  (∀ dt s t, t = s.advance dt → t.inReset = false → t.now = t.sys.tickAt + 800 → t.engineRuns = true →
    ∃ u : State, exec (.millTickStart dt) s = .next u ∧ u.mill.winOut = Vector.ofFn (fun i : Fin 16 => t.released i) ∧ u = { t with mill := u.mill } ∧
      ∀ m : Fin 4, u.mill.mill[m] = if (t.mill.mill[m]).state = 1 ∧ (t.mill.mill[m]).skip = false then
        { (t.mill.mill[m]).ready (t.mill.mill[m]).entry with state := 2 } else t.mill.mill[m]) ∧
  (∀ m s o n t q, q = s.mill.mill[m] → q.eventDue = true → s.engineRuns = true → s.millFetch m = .ok (o, n, t) → o ≠ .halt →
    exec (.millEventEntry m) s = .next (s.setMill m { q.drain with
      epc := q.pc, bank := true, dA := q.d1, cause := q.events, events := q.raised, cache := none,
      pc := s.reg (0x9000C + 0x100 * m.val), run := q.run + 2, jumped := true, longs := 0 }))

/-- Whenever the mill issues the instruction. MOV, MOVI, MOVU, MOVL and MOVAD write one data register and no flag; MOVDA, MOVAI,
SETB and SETL write a pointer, base or length; CLRF clears sticky flags; NOP writes nothing. The instruction before completes,
and the program counter moves on. -/
def Obligations.MillMovesComplete : Prop :=
  ∀ (m : Fin 4) (stall n : Nat) (s t : State) (q p : MillSt), q = s.mill.mill[m] → p = t.mill.mill[m] →
    (Issues m .nop n s t → exec (.millNop m stall) s = .next (issued m (waited m stall n s) n q noWrite t)) ∧
    (∀ d a, Issues m (.mov d a) n s t →
      exec (.millMov m stall) s = .next (issued m (waited m stall n s) n q ⟨some (d, p.data[a]), none, none⟩ t)) ∧
    (∀ d i, Issues m (.movi d i) n s t →
      exec (.millMovi m stall) s = .next (issued m (waited m stall n s) n q ⟨some (d, i.signExtend 32), none, none⟩ t)) ∧
    (∀ d i, Issues m (.movu d i) n s t →
      exec (.millMovu m stall) s = .next (issued m (waited m stall n s) n q ⟨some (d, i.setWidth 32), none, none⟩ t)) ∧
    (∀ d i, Issues m (.movl d i) n s t →
      exec (.millMovl m stall) s = .next (issued m (waited m stall n s) n q ⟨some (d, i), none, none⟩ t)) ∧
    (∀ d k, Issues m (.movad d k) n s t →
      exec (.millMovad m stall) s = .next (issued m (waited m stall n s) n q ⟨some (d, word p.ptr[k]), none, none⟩ t)) ∧
    (∀ k a, Issues m (.movda k a) n s t → exec (.millMovda m stall) s =
      .next (issued m (waited m stall n s) n q noWrite (t.setMill m { p with ptr := p.ptr.set k (p.dA[a].toNat % 65536) }))) ∧
    (∀ k i, Issues m (.movai k i) n s t → exec (.millMovai m stall) s =
      .next (issued m (waited m stall n s) n q noWrite (t.setMill m { p with ptr := p.ptr.set k i.toNat }))) ∧
    (∀ k i, Issues m (.setb k i) n s t → exec (.millSetb m stall) s =
      .next (issued m (waited m stall n s) n q noWrite (t.setMill m { p with base := p.base.set k i.toNat }))) ∧
    (∀ k i, Issues m (.setl k i) n s t → exec (.millSetl m stall) s =
      .next (issued m (waited m stall n s) n q noWrite (t.setMill m { p with len := p.len.set k i.toNat }))) ∧
    (∀ k, Issues m (.clrf k) n s t → exec (.millClrf m stall) s =
      .next (issued m (waited m stall n s) n q noWrite (t.setMill m { p with sticky := p.sticky &&& ~~~k })))

/-- Whenever the mill issues the instruction. The exact signed result is written, wrapped or saturated to 32 bits; Z and N come
from the written value, V from the exact result lying outside 32 bits, which also sets DOVF; C is the carry of ADD and ADDL,
no borrow for SUB, CMP and CMPL, the last bit shifted out for SHL, and 0 for NEG and ABS. CMP and CMPL write flags only. -/
def Obligations.MillArithmeticComplete : Prop :=
  ∀ (m : Fin 4) (stall n : Nat) (s t : State) (q p : MillSt), q = s.mill.mill[m] → p = t.mill.mill[m] →
    (∀ sat d a b, Issues m (.add sat d a b) n s t → exec (.millAdd m stall) s =
      .next (issued m (waited m stall n s) n q (aluWrite (some d) sat (p.int a + p.int b) (decide (2 ^ 32 ≤ p.data[a].toNat + p.data[b].toNat)))
        (dovf m (p.int a + p.int b) t))) ∧
    (∀ sat d a b, Issues m (.sub sat d a b) n s t → exec (.millSub m stall) s =
      .next (issued m (waited m stall n s) n q (aluWrite (some d) sat (p.int a - p.int b) (decide (p.data[b].toNat ≤ p.data[a].toNat)))
        (dovf m (p.int a - p.int b) t))) ∧
    (∀ sat d a, Issues m (.neg sat d a) n s t → exec (.millNeg m stall) s =
      .next (issued m (waited m stall n s) n q (aluWrite (some d) sat (-p.int a) false) (dovf m (-p.int a) t))) ∧
    (∀ sat d a, Issues m (.abs sat d a) n s t → exec (.millAbs m stall) s =
      .next (issued m (waited m stall n s) n q (aluWrite (some d) sat (p.int a).natAbs false) (dovf m (p.int a).natAbs t))) ∧
    (∀ a b, Issues m (.cmp a b) n s t → exec (.millCmp m stall) s =
      .next (issued m (waited m stall n s) n q (aluWrite none false (p.int a - p.int b) (decide (p.data[b].toNat ≤ p.data[a].toNat)))
        (dovf m (p.int a - p.int b) t))) ∧
    (∀ sat d a i, Issues m (.addl sat d a i) n s t → exec (.millAddl m stall) s =
      .next (issued m (waited m stall n s) n q (aluWrite (some d) sat (p.int a + i.toInt) (decide (2 ^ 32 ≤ p.data[a].toNat + i.toNat)))
        (dovf m (p.int a + i.toInt) t))) ∧
    (∀ a i, Issues m (.cmpl a i) n s t → exec (.millCmpl m stall) s =
      .next (issued m (waited m stall n s) n q (aluWrite none false (p.int a - i.toInt) (decide (i.toNat ≤ p.data[a].toNat)))
        (dovf m (p.int a - i.toInt) t))) ∧
    (∀ sat d a sh, Issues m (.shl sat d a sh) n s t → exec (.millShl m stall) s =
      .next (issued m (waited m stall n s) n q (aluWrite (some d) sat (p.int a * (2 ^ sh : Nat))
        (decide (sh ≠ 0) && p.data[a].getLsbD (32 - sh))) (dovf m (p.int a * (2 ^ sh : Nat)) t)))

/-- Whenever the mill issues the instruction. The result is written; V becomes 0 and C is the last bit shifted out, 0 for all but
the shifts. The spec does not say what Z and N become: the statement holds for every value of them (assumption 34, a free
value; only the free-value counter moves besides). -/
def Obligations.MillLogicComplete : Prop :=
  ∀ (m : Fin 4) (stall n : Nat) (s t : State) (q p : MillSt), q = s.mill.mill[m] → p = t.mill.mill[m] →
    let ends (c : Instr) (d : Fin 16) (w : Word) (carry : Bool) : Prop := ∃ z neg, exec c s =
      .next (issued m (waited m stall n s) n q ⟨some (d, w), some ⟨z, neg, false, carry⟩, none⟩ { t with free := t.free + 2 })
    (∀ d a b, Issues m (.min d a b) n s t →
      ends (.millMin m stall) d (if p.int b < p.int a then p.data[b] else p.data[a]) false) ∧
    (∀ d a b, Issues m (.max d a b) n s t →
      ends (.millMax m stall) d (if p.int a < p.int b then p.data[b] else p.data[a]) false) ∧
    (∀ d a b, Issues m (.and d a b) n s t → ends (.millAnd m stall) d (p.data[a] &&& p.data[b]) false) ∧
    (∀ d a b, Issues m (.or d a b) n s t → ends (.millOr m stall) d (p.data[a] ||| p.data[b]) false) ∧
    (∀ d a b, Issues m (.xor d a b) n s t → ends (.millXor m stall) d (p.data[a] ^^^ p.data[b]) false) ∧
    (∀ d a, Issues m (.not d a) n s t → ends (.millNot m stall) d (~~~p.data[a]) false) ∧
    (∀ d a i, Issues m (.andl d a i) n s t → ends (.millAndl m stall) d (p.data[a] &&& i) false) ∧
    (∀ d a sh, Issues m (.asr d a sh) n s t → ends (.millAsr m stall) d (p.data[a].sshiftRight sh)
      (decide (sh ≠ 0) && p.data[a].getLsbD (sh - 1))) ∧
    (∀ d a sh, Issues m (.lsr d a sh) n s t → ends (.millLsr m stall) d (p.data[a] >>> sh)
      (decide (sh ≠ 0) && p.data[a].getLsbD (sh - 1)))

/-- Whenever the mill issues the instruction and its effective address is generated without a trap and its word is readable. A
load writes the data word read to its register and no flag; a store stores its register, and the next instruction still reads
the word as it was. The pointer of an address register moves as its mode says, and a fold from outside the range sets CFOLD. -/
def Obligations.MillLoadsAndStoresComplete : Prop :=
  ∀ (m : Fin 4) (stall n : Nat) (s t : State) (q : MillSt), q = s.mill.mill[m] →
    (∀ d e w p fold v u, (t.mill.mill[m]).genEa false e = .ok (w, p, fold) → t.millLoad m false w = .ok (v, u) →
      Issues m (.ldx d e) n s t → exec (.millLdx m stall) s =
        .next (issued m (waited m stall n s) n q ⟨some (d, v), none, none⟩ (u.millPointer m e.n p fold))) ∧
    (∀ d e w p fold v u, (t.mill.mill[m]).genEa true e = .ok (w, p, fold) → t.millLoad m true w = .ok (v, u) →
      Issues m (.ldy d e) n s t → exec (.millLdy m stall) s =
        .next (issued m (waited m stall n s) n q ⟨some (d, v), none, none⟩ (u.millPointer m e.n p fold))) ∧
    (∀ d e w p fold v u, (t.mill.mill[m]).genEa false e = .ok (w, p, fold) →
      t.millStore m false w (t.mill.mill[m]).data[d] = .ok (v, u) → Issues m (.stx d e) n s t → exec (.millStx m stall) s =
        .next (issued m (waited m stall n s) n q ⟨none, none, some (false, w, v)⟩ (u.millPointer m e.n p fold))) ∧
    (∀ d e w p fold v u, (t.mill.mill[m]).genEa true e = .ok (w, p, fold) →
      t.millStore m true w (t.mill.mill[m]).data[d] = .ok (v, u) → Issues m (.sty d e) n s t → exec (.millSty m stall) s =
        .next (issued m (waited m stall n s) n q ⟨none, none, some (true, w, v)⟩ (u.millPointer m e.n p fold))) ∧
    (∀ d w v u, w ≤ 0x63FF → t.millLoad m false w = .ok (v, u) → Issues m (.ldxa d w) n s t →
      exec (.millLdxa m stall) s = .next (issued m (waited m stall n s) n q ⟨some (d, v), none, none⟩ u)) ∧
    (∀ d w v u, w ≤ 0x5FFF → t.millLoad m true w = .ok (v, u) → Issues m (.ldya d w) n s t →
      exec (.millLdya m stall) s = .next (issued m (waited m stall n s) n q ⟨some (d, v), none, none⟩ u)) ∧
    (∀ d w v u, w ≤ 0x63FF → t.millStore m false w (t.mill.mill[m]).data[d] = .ok (v, u) → Issues m (.stxa d w) n s t →
      exec (.millStxa m stall) s = .next (issued m (waited m stall n s) n q ⟨none, none, some (false, w, v)⟩ u)) ∧
    (∀ d w v u, w ≤ 0x5FFF → t.millStore m true w (t.mill.mill[m]).data[d] = .ok (v, u) → Issues m (.stya d w) n s t →
      exec (.millStya m stall) s = .next (issued m (waited m stall n s) n q ⟨none, none, some (true, w, v)⟩ u))

/-- Whenever the mill issues the instruction. The accumulator takes the exact value, wrapped or saturated to 72 bits, with ACCV
where it lies outside 72 bits and GUARD where the written value needs more than 64. MACXY and MSUXY read X, then Y, through
their address registers. EXT writes the accumulator divided by 2^sh, rounded to nearest with ties away from zero or down,
wrapped or saturated to 32 bits, with DOVF. No condition flag changes. -/
def Obligations.MillAccumulatorsComplete : Prop :=
  ∀ (m : Fin 4) (stall n : Nat) (s t : State) (q p : MillSt), q = s.mill.mill[m] → p = t.mill.mill[m] →
    (∀ sat ac a b, Issues m (.mpy sat ac a b) n s t → exec (.millMpy m stall) s =
      .next (issued m (waited m stall n s) n q noWrite (accWritten m ac sat (p.int a * p.int b) t))) ∧
    (∀ sat ac a b, Issues m (.mac sat ac a b) n s t → exec (.millMac m stall) s =
      .next (issued m (waited m stall n s) n q noWrite (accWritten m ac sat (p.accs[ac] + p.int a * p.int b) t))) ∧
    (∀ sat ac a b, Issues m (.msu sat ac a b) n s t → exec (.millMsu m stall) s =
      .next (issued m (waited m stall n s) n q noWrite (accWritten m ac sat (p.accs[ac] - p.int a * p.int b) t))) ∧
    (∀ ac, Issues m (.clra ac) n s t → exec (.millClra m stall) s =
      .next (issued m (waited m stall n s) n q noWrite (accWritten m ac false 0 t))) ∧
    (∀ ac a sh, Issues m (.accld ac a sh) n s t → exec (.millAccld m stall) s =
      .next (issued m (waited m stall n s) n q noWrite (accWritten m ac false (p.int a * (2 ^ sh : Nat)) t))) ∧
    (∀ sat ac a sh, Issues m (.accadd sat ac a sh) n s t → exec (.millAccadd m stall) s =
      .next (issued m (waited m stall n s) n q noWrite (accWritten m ac sat (p.accs[ac] + p.int a * (2 ^ sh : Nat)) t))) ∧
    (∀ sat d ac rnd sh x, x = (if rnd then roundAway p.accs[ac] (2 ^ sh) else p.accs[ac] / ((2 ^ sh : Nat) : Int)) →
      Issues m (.ext sat d ac rnd sh) n s t → exec (.millExt m stall) s =
        .next (issued m (waited m stall n s) n q ⟨some (d, BitVec.ofInt 32 (if sat then satS 32 x else x)), none, none⟩ (dovf m x t))) ∧
    (∀ sat ac x y wx px fx wy py fy vx u vy v r, p.genEa false x = .ok (wx, px, fx) →
      ({ p with ptr := p.ptr.set x.n px } : MillSt).genEa true y = .ok (wy, py, fy) →
      t.millLoad m false wx = .ok (vx, u) → u.millLoad m true wy = .ok (vy, v) →
      r = (v.millPointer m x.n px fx).millPointer m y.n py fy →
      (Issues m (.macxy sat ac x y) n s t → exec (.millMacxy m stall) s =
        .next (issued m (waited m stall n s) n q noWrite (accWritten m ac sat (p.accs[ac] + vx.toInt * vy.toInt) r))) ∧
      (Issues m (.msuxy sat ac x y) n s t → exec (.millMsuxy m stall) s =
        .next (issued m (waited m stall n s) n q noWrite (accWritten m ac sat (p.accs[ac] - vx.toInt * vy.toInt) r))))

/-- Whenever the mill issues the instruction. B, CALL and RET make a transfer with two delay slots to their target if the
condition holds, CALL leaving its link in D15; else no target. LOOP with room on the loop stack pushes its loop and goes on
with its first word, or, with count 0, after its last. ENDL removes the innermost loop. RTE in bank 1 returns to EPC. HALT
ends the run: a tick program is TICK_IDLE again with its cycles counted, a once program is STOPPED. The wait of the row counts
up to what the mill can wait. -/
def Obligations.MillControlComplete : Prop :=
  ∀ (m : Fin 4) (stall n : Nat) (s t : State) (q p : MillSt), q = s.mill.mill[m] → p = t.mill.mill[m] →
    (∀ c off, Issues m (.b c off) n s t → exec (.millB m stall) s =
      .next (jumped m (waited m stall n s) n q noWrite (if condHolds c p.flags then some (pcOf (p.pc + 4 * off)) else none) false t)) ∧
    (∀ c off, Issues m (.call c off) n s t →
      (condHolds c p.flags = true → exec (.millCall m stall) s =
        .next (jumped m (waited m stall n s) n q ⟨some (15, word (p.pc + 12)), none, none⟩ (some (pcOf (p.pc + 4 * off))) false t)) ∧
      (condHolds c p.flags = false → exec (.millCall m stall) s = .next (jumped m (waited m stall n s) n q noWrite none false t))) ∧
    (∀ c, Issues m (.ret c) n s t → exec (.millRet m stall) s =
      .next (jumped m (waited m stall n s) n q noWrite (if condHolds c p.flags then some p.data[15].toNat else none) false t)) ∧
    (∀ d len count k, Issues m (.loop d len count) n s t → p.loops.length < 2 →
      (∀ o l, p.loops = o :: l → o.start ≤ p.pc + 4 ∧ p.pc + 4 * len < o.last) →
      k = (if count = 0 then p.dA[d].toNat % 65536 else count) →
      (k = 0 → exec (.millLoop m stall) s =
        .next (t.setMill m { MillSt.retire q noWrite (waited m stall n s) n p with pc := p.pc + 4 * len + 4 })) ∧
      (k ≠ 0 → exec (.millLoop m stall) s = .next ((t.setMill m (p.enterLoop ⟨p.pc + 4, p.pc + 4 * len, k⟩)).setMill m
        { MillSt.retire q noWrite (waited m stall n s) n (p.enterLoop ⟨p.pc + 4, p.pc + 4 * len, k⟩) with pc := p.pc + 4 }))) ∧
    (Issues m .endl n s t → exec (.millEndl m stall) s =
      .next (issued m (waited m stall n s) n q noWrite (t.setMill m (p.endLoop (p.loops.drop 1))))) ∧
    (Issues m .rte n s t → p.bank = true →
      exec (.millRte m stall) s = .next (jumped m (waited m stall n s) n q noWrite (some p.epc) true t)) ∧
    (Issues m .halt n s t → exec (.millHalt m stall) s = .next (t.setMill m (p.endRun (waited m stall n s))))

/-- At a due tick instant, SERVO_TICK counts the tick and makes the work of the blocks at it, and ABORT_TAKES_EFFECT makes every
ABORT served in the tick take effect in the order of service and empties their list. Out of reset and SLEEP, a scrubber pass
over a word with an error of one symbol corrects it, one over an uncorrectable word records it and acts on it, one over a good
word changes nothing. EVT_LOST posts 0x0004 with the count of records lost and clears it. -/
def Obligations.TickRowsComplete : Prop :=
  (∀ dt x s t, t = s.advance dt → t.tickDue = true → exec (.servoTick dt x) s =
    .next (State.tickBlocks x { t with sys := { t.sys with tickAt := t.now, tickNo := t.sys.tickNo + 1 } })) ∧
  (∀ dt s t, t = s.advance dt → t.tickDue = true → exec (.abortTakesEffect dt) s =
    .next (t.lb.aborts.foldl (fun u q => u.abortOne q) { t with lb := { t.lb with aborts := [] } })) ∧
  (∀ dt a (e : Fin 3) s t, t = s.advance dt → t.inReset = false → t.pwr.mode ≠ .sleep →
    (e.val = 2 ∨ a / 8 * 8 ∈ t.mem.hard → exec (.scrubberPass dt a e) s =
      .next (((t.putHard (a / 8 * 8)).eccFound (a / 8 * 8)).scrubAct (a / 8 * 8))) ∧
    (a / 8 * 8 ∉ t.mem.hard → (e.val = 1 ∨ (e.val = 0 ∧ a / 8 * 8 ∈ t.mem.soft)) →
      exec (.scrubberPass dt a e) s = .next (t.eccCorrect (a / 8 * 8))) ∧
    (e.val = 0 → a / 8 * 8 ∉ t.mem.hard → a / 8 * 8 ∉ t.mem.soft → exec (.scrubberPass dt a e) s = .next t)) ∧
  (∀ dt s t, t = s.advance dt → t.inReset = false → t.ev.unread < 256 → 0 < t.ev.lostSince →
    exec (.evtLost dt) s = .next { t.post 0x0004 t.ev.lostSince with
      ev := { (t.post 0x0004 t.ev.lostSince).ev with lostSince := 0 } })

/-- The lane serves, with room in the journal for the tick; the opcode is in the table, its class permitted, its length right,
served by the recovery service if that runs, its role right, its arguments and reserved bytes good, and the privileged view
held where it is needed. The queued letter that is next in the order of service, at the instant in the letter window at which
its charge is used up, is taken from the queue and admitted: outside class 3, or on port 5, with the state that took it; in
class 3 with the session's port, tag and a rising sequence number, which the session then keeps. -/
def Obligations.LetterAdmittedWhenChecksPass : Prop :=
  ∀ (opc : Nat) (h : Handler) (l q : Letter) (gap : Bool) (s u v : State) (i : OpInfo), opInfo opc = some i →
    (s.advance l.dt).serving = true → (s.advance l.dt).lane.jtick < 256 →
    (∀ x, nextQueued (s.advance l.dt).lb.queue = some x → sameLetter opc l x = true → (s.advance l.dt).chargeEnds x.cost = true →
      q = x.letter → gap = x.gap →
      u = ({ (s.advance l.dt) with lb := { (s.advance l.dt).lb with
        queue := (s.advance l.dt).lb.queue.erase x, charged := 0 } } : State).admitHeld →
      State.taken opc l (s.advance l.dt) = some (q, gap, u)) ∧
    (State.taken opc l (s.advance l.dt) = some (q, gap, u) → i.classes.contains q.cls.val = true → i.len.ok q.payload = true →
      (u.pwr.phase = .recovery → recoveryOpcode opc = true) → u.roleRefused opc = false →
      (v = u → (q.cls.val ≠ 3 ∨ q.port.val = 5 ∨ (opc = 0x0F1 ∧ u32 q.payload 0 ≠ 3)) → h.bad v q = none →
        (h.needsPriv v q = true → q.cls.val = 3 ∨ q.port.val = 5) → State.admitted opc h l s = some (i, q, gap, v)) ∧
      (∀ x, q.cls.val = 3 → q.port.val ≠ 5 → ¬ (opc = 0x0F1 ∧ u32 q.payload 0 ≠ 3) → u.lb.session = some x → x.port = q.port →
        u.tagFor x.challenge opc i.ctl q = q.tag.toNat → x.lastSeq < q.seq.toNat →
        v = { u with lb := { u.lb with session := some { x with lastSeq := q.seq.toNat } } } → h.bad v q = none →
        State.admitted opc h l s = some (i, q, gap, v)))

/-- Answering a letter DONE, or turning it away, leaves every field of the state but the letterbox, the journal with its counters,
the symbol-code state of the journal's memory, and, for a refusal that is a dead letter, the event ring and a capture that
waits for that event. No byte of memory changes. A letter of class 0 is not entered in the journal. -/
def Obligations.ReceiptFrame : Prop :=
  ∀ (opc k : Nat) (q : Letter) (gap : Bool) (f : Word) (tail : List Byte) (st : Status) (d : Nat) (t u v : State),
    u = t.reply opc k q gap (.done f tail) → v = t.reply opc k q gap (.refuse st d f) →
    u = { t with
      lb := u.lb,
      lane := { t.lane with journal := u.lane.journal, jnext := u.lane.jnext, jtick := u.lane.jtick },
      mem := { t.mem with soft := u.mem.soft, hard := u.mem.hard, uncorr := u.mem.uncorr } } ∧
    v = { t with
      lb := v.lb, ev := v.ev, loop := { t.loop with cap := v.loop.cap },
      lane := { t.lane with journal := v.lane.journal, jnext := v.lane.jnext, jtick := v.lane.jtick },
      mem := { t.mem with soft := v.mem.soft, hard := v.mem.hard, uncorr := v.mem.uncorr } } ∧
    (q.cls = 0 → u.lane = t.lane ∧ u.mem = t.mem ∧ v.lane = t.lane ∧ v.mem = t.mem) ∧
    (∀ a, u.cell a = t.cell a ∧ v.cell a = t.cell a)

/-- In a state in which no lane serves (not in RUN, no lane active, or still in boot) and no module reset has been ordered, every
letter row, the register writes among them, only lets the time pass: the letter stays where it is, and nothing else changes. -/
def Obligations.LettersWaitWhileNoLaneServes : Prop :=
  ∀ (l : Letter) (h : Head) (v : Word) (s : State), (s.advance l.dt).serving = false → (s.advance h.dt).serving = false →
    s.pwr.resetDue = false →
    (∀ c ∈ [Instr.nop l, .identify l, .regRead l, .regWrite l, .regModify l, .moduleReset l, .moduleResetLane l, .configSave l,
        .tableWrite l, .tableRead l, .tableCheck l, .tableFill l, .moveRun l, .moveTrap l, .moveTail l, .setLimits l,
        .doorMode l, .doorOpen l, .doorClose l, .doorStop l, .doorLimits l, .groupLeave l, .policySet l, .lockLoad l,
        .lockCommit l, .watchChange l, .watchSet l, .millStop l, .millFetch l, .outSet l, .inRead l, .counterConfig l, .canMode l,
        .canTx l, .linkModeStart l, .linkModeStop l, .powerMode l, .rescueStart l, .imageWrite l, .imageVerify l,
        .imageActivate l, .lcTransition l, .abort l], exec c s = .next (s.advance l.dt)) ∧
    (∀ c ∈ [Instr.sysBgenWrite h v, .sysTickWrite h v, .letterBudgetWrite h v, .sysKeyctlWrite h v, .hoistKWrite h v,
        .hoistTripClear h v, .cogAddrWrite h v, .doorFaultClear h v, .lockCauseClear h v, .laneTkstopWrite h v],
      exec c s = .next (s.advance h.dt))

/-- While module reset is asserted or its sequence runs, an event of a block only lets the time pass: no event of the letterbox,
the ramp, sense, loop, door, group, interlock, lane, field, CAN, link or power blocks changes anything else. (The resets,
SUPPLY_STABLE and the reset sequence itself act then, as does the supervision of the clocks.) -/
def Obligations.NothingActsInReset : Prop :=
  ∀ (dt : Nat) (s : State), (s.advance dt).inReset = true →
    (∀ c ∈ [Instr.parcelStale dt, .wdogExpired dt, .stileFault dt, .watchDue dt, .watchChangeStart dt, .watchChanged dt,
        .watchSkipped dt, .fieldLinkFault dt, .fieldShed dt, .fieldRestored dt, .standbyIdleExpiry dt,
        .carLinkDown dt, .linkPhyTimeout dt, .linkSyncTimeout dt, .linkOpenOnLoss dt, .linkDoorHoldExpiry dt, .powerModeEntry dt,
        .idleTimeout dt, .rescueAutoStart dt, .rescueLevelCheck dt, .flashProgramDone dt, .imageVerifyDone dt,
        .lcRecordWritten dt, .lockDisagree dt, .bridgeFail dt, .stoTestStep dt, .stoTestDue dt, .evtLost dt, .millTickStart dt,
        .abortTakesEffect dt, .sessionTimeout dt, .sessionLockoutEnd dt, .positionMismatch dt, .hpTake dt true,
        .uartGapTimeout dt], exec c s = .next (s.advance dt)) ∧
    (∀ x, exec (.servoTick dt x) s = .next (s.advance dt)) ∧ (∀ x, exec (.laneFault dt x) s = .next (s.advance dt)) ∧
    (∀ r, exec (.carLinkCycle ⟨dt, r⟩) s = .next (s.advance dt)) ∧
    (∀ p b, exec (.letterArrival dt p b) s = .next (s.advance dt)) ∧
    (∀ a e, exec (.scrubberPass dt a e) s = .next (s.advance dt)) ∧
    (∀ d o x, exec (.fieldLinkFrame dt d o x) s = .next (s.advance dt))

/-- In canonical memory: after bytes are stored from an address up, a read of a stored address gives the byte stored there, and a
read of every other address gives what it gave before. The table letters, REG_WRITE to memory and the mill stores store
through this operation. -/
def Obligations.StoredBytesReadBack : Prop :=
  ∀ (a b : Nat) (bs : List Byte) (s : State), s.mem.wf = true →
    (∀ h : b - a < bs.length, a ≤ b → (s.storeBytes a bs).cell b = bs[b - a]) ∧
    ((b < a ∨ a + bs.length ≤ b) → (s.storeBytes a bs).cell b = s.cell b)

/-- With 256 unread records, posting a new record drops the oldest unread one, advances RD, and adds one to LOST and to the count
since the last EVT_LOST, each saturating. When the ring has room and that count is not 0, EVT_LOST is posted with the count as
its detail, the count starts again at 0, and LOST stays. A read of SYS_EVLOST clears LOST and leaves the count. Posting
changes nothing but the ring and a capture that waits for the event, so it stalls no block. -/
def Obligations.EventRingWhenFull : Prop :=
  (∀ (pm : Postmark) (code : Nat) (d : Word) (e : EvSt), e.unread = 256 → e.recs.length = 256 →
    evNewest code d e.recs = none →
    (e.post pm code d).recs = evInsert ⟨code, 0, d, pm, e.era⟩ (e.recs.drop 1) ∧ (e.post pm code d).rd = (e.rd + 1) % 512 ∧
      (e.post pm code d).wr = (e.wr + 1) % 512 ∧ (e.post pm code d).lost = min (e.lost + 1) 0xFFFF ∧
      (e.post pm code d).lostSince = min (e.lostSince + 1) 0xFFFFFFFF) ∧
  (∀ (code d : Nat) (s : State), s.post code d = { s with
    ev := s.ev.post s.now code (word d), loop := { s.loop with cap := (s.post code d).loop.cap } }) ∧
  (∀ (dt : Nat) (s t : State), t = s.advance dt → t.inReset = false → t.ev.wf = true → t.ev.unread < 256 → 0 < t.ev.lostSince →
    ∃ u : State, exec (.evtLost dt) s = .next u ∧ u.ev = { t.ev.post t.now 0x0004 (word t.ev.lostSince) with lostSince := 0 } ∧
      u.ev.lost = t.ev.lost) ∧
  (∀ s : State, (s.readClear 0x34).ev = { s.ev with lost := 0 })

/-- Whenever a REG_WRITE of SYS_BGEN is admitted whose value holds 0, or more than GEN_MAX, in GEN_NEXT: it is answered BAD_ARG,
detail 0x04, and GEN_NEXT, in the register and in the next-value record, stays as it was, whichever of the two rows carries
the letter. -/
def Obligations.GenNextOutOfRangeRefused : Prop :=
  ∀ (l : Letter) (h : Head) (w v : Word) (s : State) (i : OpInfo) (q : Letter) (gap : Bool) (t : State),
    q.payload = bytesLE 4 0x14 ++ bytesLE 4 v.toNat → (bitsAt v.toNat 8 8 = 0 ∨ Config.genMax < bitsAt v.toNat 8 8) →
    (State.admitted 0x003 regWriteHandler l s = some (i, q, gap, t) →
      exec (.regWrite l) s = .next (t.answer 0x003 i.ctl q gap .badArg 4 0 [])) ∧
    (State.admitted 0x003 regWriteHandler (writeLetter h 0x14 w.toNat) s = some (i, q, gap, t) →
      exec (.sysBgenWrite h w) s = .next (t.answer 0x003 i.ctl q gap .badArg 4 0 [])) ∧
    (t.answer 0x003 i.ctl q gap .badArg 4 0 []).regs = t.regs ∧ (t.answer 0x003 i.ctl q gap .badArg 4 0 []).flash = t.flash

/-- A REG_WRITE of class 1 from a port other than 5, with its eight payload bytes, taken by a lane outside the recovery service,
to an aligned register that holds a PRW field: it is answered NOT_PRIVILEGED, and no stored register, key, life-cycle state or
other field of the machine outside letterbox, journal and event ring changes. -/
def Obligations.PrivilegedRegistersNeedTheView : Prop :=
  ∀ (l q : Letter) (gap : Bool) (s t : State) (a : Nat), (s.advance l.dt).taken 0x003 l = some (q, gap, t) →
    q.cls.val = 1 → q.port.val ≠ 5 → q.payload.length = 8 → t.pwr.phase ≠ .recovery → u32 q.payload 0 = a → a < 0x100000 →
    a % 4 = 0 → (regFields a).any (·.prw) = true →
    ∃ u : State, exec (.regWrite l) s = .next u ∧ u = t.answer 0x003 8 q gap .notPrivileged 2 0 [] ∧
      u = { t with
        lb := u.lb, ev := u.ev, loop := { t.loop with cap := u.loop.cap },
        lane := { t.lane with journal := u.lane.journal, jnext := u.lane.jnext, jtick := u.lane.jtick },
        mem := { t.mem with soft := u.mem.soft, hard := u.mem.hard, uncorr := u.mem.uncorr } }

/-- A letter that passes every other check of R72, of any opcode and with FINAL_ONLY set or not: with D = 0 it is queued; with D >
0 it is queued if N, or N + 1 for ABORT, is at most D, and else answered REFUSED_LATE with that value, at most 255, as its
detail, and is not queued. -/
def Obligations.LateLettersRefused : Prop :=
  ∀ (dt : Nat) (port : Fin 6) (b : List Byte) (i : OpInfo) (q : Queued) (s t : State), t = s.advance dt → t.boxUp = true →
    Fits port ⟨0, 0⟩ b.length b i q t →
    (q.letter.deadline = 0 → exec (.letterArrival dt port b) s = .next (t.enqueue q)) ∧
    (q.letter.deadline ≠ 0 → lateBy q t ≤ q.letter.deadline.toNat → exec (.letterArrival dt port b) s = .next (t.enqueue q)) ∧
    (q.letter.deadline ≠ 0 → q.letter.deadline.toNat < lateBy q t →
      exec (.letterArrival dt port b) s =
        .next (t.boxRefuse port ⟨0, 0⟩ (u16 b 0) (BitVec.ofNat 16 (u16 b 4)) .refusedLate (min (lateBy q t) 255)) ∧
      (t.boxRefuse port ⟨0, 0⟩ (u16 b 0) (BitVec.ofNat 16 (u16 b 4)) .refusedLate (min (lateBy q t) 255)).lb.queue = t.lb.queue)

/-- The letter that the lane serves next is one of the queued letters, and no queued letter precedes it: none has an earlier
arrival postmark, and none of equal postmark came from a lower port. A queue that is not empty has such a letter. -/
def Obligations.ServiceFollowsArrival : Prop :=
  ∀ l : List Queued, (l ≠ [] → (nextQueued l).isSome = true) ∧
    ∀ q, nextQueued l = some q → q ∈ l ∧ ∀ x ∈ l, q.arrival < x.arrival ∨
      (q.arrival = x.arrival ∧ q.letter.port.val ≤ x.letter.port.val)

/-- Out of SLEEP, after a frame to the field die: an output that is on is commanded, not latched, not shed and not held off by
standby; the stile grants output enables, LINKOFF is clear, the permit that the image names for it is true in both copies, and
in a safe stop the image excepts it. -/
def Obligations.OutputsNeedGrantAndPermits : Prop :=
  ∀ (dt : Nat) (x : DiagIn) (s t u : State) (k : Nat), t = s.advance dt → t.inReset = false → t.pwr.mode ≠ .sleep →
    exec (.fieldLinkFrame dt true true x) s = .next u → k < 32 → u.fio.on.getLsbD k = true →
    t.fio.cmd.getLsbD k = true ∧ t.fio.latched.getLsbD k = false ∧ t.outShed k = false ∧ t.outStandby k = false ∧
      t.fio.linkOff = false ∧ (t.lane.stile ≠ .none ∧ t.lane.stile ≠ .fault) ∧
      ∃ i, t.image = some i ∧ t.permitE1 (u8 i (0x9F0 + k)) = true ∧ t.permitE2 (u8 i (0x9F0 + k)) = true ∧
        (t.safeStop = true → bitAt (u32 i 0x9E0) k = false)

/-- For every instruction row of mill m that answers: the other mills, the stored registers, the postmark, the queue, the ramps,
the doors, the interlock, the lanes and the flash stay as they were; and every byte of memory stays, but for a store: then
every byte outside the four that its effective or absolute address names. -/
def Obligations.MillInstructionFrame : Prop :=
  let kept (m : Fin 4) (s u : State) : Prop :=
    (∀ k : Fin 4, k ≠ m → u.mill.mill[k] = s.mill.mill[k]) ∧ u.regs = s.regs ∧ u.now = s.now ∧ u.pending = s.pending ∧
      u.ramp = s.ramp ∧ u.door = s.door ∧ u.lock = s.lock ∧ u.lane = s.lane ∧ u.flash = s.flash ∧ u.pwr = s.pwr ∧ u.lb = s.lb
  (∀ (m : Fin 4) (stall : Nat) (s u : State), ∀ c ∈ [Instr.millNop m stall, .millHalt m stall, .millMov m stall, .millAdd m stall,
      .millSub m stall, .millNeg m stall, .millAbs m stall, .millMin m stall, .millMax m stall, .millAnd m stall, .millOr m stall,
      .millXor m stall, .millNot m stall, .millShl m stall, .millAsr m stall, .millLsr m stall, .millCmp m stall, .millMovi m stall,
      .millMovu m stall, .millLdx m stall, .millLdy m stall, .millMovai m stall, .millSetb m stall, .millSetl m stall,
      .millMovda m stall, .millMovad m stall, .millMpy m stall, .millMac m stall, .millMsu m stall, .millMacxy m stall,
      .millMsuxy m stall, .millClra m stall, .millAccld m stall, .millAccadd m stall, .millExt m stall, .millB m stall,
      .millCall m stall, .millRet m stall, .millLoop m stall, .millEndl m stall, .millRte m stall, .millClrf m stall,
      .millMovl m stall, .millAddl m stall, .millAndl m stall, .millCmpl m stall, .millLdxa m stall, .millLdya m stall],
    exec c s = .next u → kept m s u ∧ ∀ a, u.cell a = s.cell a) ∧
  (∀ (m : Fin 4) (stall : Nat) (s u t : State) (d : Fin 16) (e : MillEa) (n w p : Nat) (fold : Bool),
    (Issues m (.stx d e) n s t → (t.mill.mill[m]).genEa false e = .ok (w, p, fold) → exec (.millStx m stall) s = .next u →
      kept m s u ∧ ∀ a, (a < dataAddr m.val false w ∨ dataAddr m.val false w + 4 ≤ a) → u.cell a = s.cell a) ∧
    (Issues m (.sty d e) n s t → (t.mill.mill[m]).genEa true e = .ok (w, p, fold) → exec (.millSty m stall) s = .next u →
      kept m s u ∧ ∀ a, (a < dataAddr m.val true w ∨ dataAddr m.val true w + 4 ≤ a) → u.cell a = s.cell a) ∧
    (Issues m (.stxa d w) n s t → exec (.millStxa m stall) s = .next u →
      kept m s u ∧ ∀ a, (a < dataAddr m.val false w ∨ dataAddr m.val false w + 4 ≤ a) → u.cell a = s.cell a) ∧
    (Issues m (.stya d w) n s t → exec (.millStya m stall) s = .next u →
      kept m s u ∧ ∀ a, (a < dataAddr m.val true w ∨ dataAddr m.val true w + 4 ≤ a) → u.cell a = s.cell a))

/-- For every mill instruction whose operands lie in the ranges of R417 and R418: its opcode word fits 32 bits, an instruction of
64 bits is one of opcodes 0x30-0x37, and decoding its words gives the instruction back, with every operand at every value that
the encoding admits. -/
def Obligations.MillDecodeOfEncode : Prop :=
  ∀ o : MillOp, o.wf = true → (encodeMill o).1 < 2 ^ 32 ∧ (encodeMill o).2 < 2 ^ 32 ∧
    decodeMill (encodeMill o).1 (encodeMill o).2 = some o

/-- For every 32-bit word, and the word after it, that decode to an instruction: the instruction is well formed, and its words are
those. So a word with a reserved bit set, or a field out of range, decodes to nothing, and no two words decode to one
instruction. -/
def Obligations.MillEncodeOfDecode : Prop :=
  ∀ (w imm : Nat) (o : MillOp), w < 2 ^ 32 → imm < 2 ^ 32 → decodeMill w imm = some o →
    o.wf = true ∧ (encodeMill o).1 = w ∧ (millLong w = true → (encodeMill o).2 = imm)

/-- For every state in which memory is in its canonical form (addresses rising, no byte 0 listed, the lists of faulty words
rising) and the event ring holds 256 records with indices below 512 and at most 256 unread: if a step answers a next state,
that state is such a state too, whatever the command. -/
def Obligations.StepKeepsStatesSound : Prop :=
  ∀ s t : State, s.sound = true → step s = .next t → t.sound = true

/-- State.reset is sound: nothing is listed in memory, and the ring holds 256 blank records, none unread. -/
def Obligations.ResetStateSound : Prop :=
  State.reset.sound = true ∧ State.reset.mem.cells = [] ∧ State.reset.ev.unread = 0

/-- In every state in which a transition being written runs along an edge of R535, a step leaves the life-cycle state as it is or
takes it along such an edge (BLANK to OPEN or RETIRED, OPEN to LOCKED or RETIRED, LOCKED to OPEN, SERVICE or RETIRED, SERVICE
to LOCKED or RETIRED, none out of RETIRED), and the next state is such a state too; State.reset is one. -/
def Obligations.LifeCycleRunsAlongItsEdges : Prop :=
  State.reset.edgeOk ∧
  ∀ s t : State, s.edgeOk → step s = .next t →
    t.edgeOk ∧ (t.flash.lc = s.flash.lc ∨ transitionOk s.flash.lc t.flash.lc = true)

/-- At reset the postmark is 0, no letter, receipt, session or challenge is held, no event is unread and none was lost, every byte
of memory reads 0, outputs, latches and commanded values are off, the mills are stopped, the links are off, the lanes have
lane A active and lane B in its lane reset, and PWR_RESETCAUSE shows POR alone. (The values that State.reset chooses, as the
strap code, are those of assumption 1 and no part of this.) -/
def Obligations.ResetValues : Prop :=
  State.reset.now = 0 ∧ State.reset.lb.queue = [] ∧ State.reset.lb.rcpt0 = [] ∧ State.reset.lb.session = none ∧
    State.reset.ev.unread = 0 ∧ State.reset.ev.lost = 0 ∧ (∀ a, State.reset.cell a = 0#8) ∧ State.reset.fio.on = 0 ∧
    State.reset.fio.cmd = 0 ∧ State.reset.fio.latched = 0 ∧ (∀ m : Fin 4, (State.reset.mill.mill[m]).state = 0) ∧
    State.reset.link.state = 0 ∧ State.reset.lane.stile = .aActive ∧ State.reset.lane.laneB = .resetting ∧
    State.reset.pwr.resetCause = 1

/-- The CRC-32C of the nine ASCII bytes 123456789 is 0xE3069283, the check value of R62. No row of the command table has bits, so
no word spells a command, and the state with a table word in front of its queue is the state itself (log 10). -/
def Obligations.LetterCrcAndWords : Prop :=
  crc32c [0x31#8, 0x32#8, 0x33#8, 0x34#8, 0x35#8, 0x36#8, 0x37#8, 0x38#8, 0x39#8] = 0xE3069283#32 ∧
  ∀ (n w : Nat) (s : State), decodeTableWord n w = none ∧ s.withFetchWord n w = s
end

