-- ==== Sys2Proof/Laws/Bits.lean ====
section
/-! SUPPORT. Bit fields and masks: what a written field and a mask read as, cited in place of unfolding them. -/
namespace Sys2Proof.Machine

/-- The number of a mask, bit by bit. -/
theorem mask_fold (p : Nat → Bool) (n : Nat) :
    (List.range n).foldl (fun n i => if p i then n + 2 ^ i else n) 0 < 2 ^ n ∧
      ∀ i, ((List.range n).foldl (fun n i => if p i then n + 2 ^ i else n) 0).testBit i = (decide (i < n) && p i) := by
  induction n with
  | zero => simp
  | succ n ih =>
    obtain ⟨h1, h2⟩ := ih
    simp only [List.range_succ, List.foldl_append, List.foldl_cons, List.foldl_nil]
    generalize (List.range n).foldl (fun n i => if p i then n + 2 ^ i else n) 0 = x at h1 h2
    refine ⟨by split <;> omega, fun i => ?_⟩
    have h3 := h2 i
    by_cases hn : p n = true
    · rw [if_pos hn, Nat.add_comm]
      rcases Nat.lt_trichotomy i n with h | rfl | h
      · rw [Nat.testBit_two_pow_add_gt h, h3]; simp [h, Nat.lt_succ_of_lt h]
      · rw [Nat.testBit_two_pow_add_eq, Nat.testBit_lt_two_pow h1]; simp [hn]
      · rw [Nat.testBit_lt_two_pow]
        · simp; omega
        · have : 2 ^ (n + 1) ≤ 2 ^ i := Nat.pow_le_pow_right (by decide) h
          omega
    · rw [if_neg hn, h3]
      rcases Nat.lt_trichotomy i n with h | rfl | h
      · simp [h, Nat.lt_succ_of_lt h]
      · simp [hn]
      · have a : ¬ i < n := by omega
        have b : ¬ i < n + 1 := by omega
        simp [a, b]

/-- A mask holds what its predicate says. -/
theorem maskOf_getLsbD {w i : Nat} (p : Nat → Bool) (h : i < w) : (maskOf w p).getLsbD i = p i := by
  have a := (mask_fold p w).2 i
  simp only [maskOf, BitVec.getLsbD_ofNat, a, h]; simp

/-- A field written reads back. -/
theorem bitsAt_putBits (n lo len v : Nat) : bitsAt (putBits n lo len v) lo len = v % 2 ^ len := by
  have e : putBits n lo len v = (n / 2 ^ lo / 2 ^ len * 2 ^ len + v % 2 ^ len) * 2 ^ lo + n % 2 ^ lo := by
    have a : n = n / 2 ^ lo * 2 ^ lo + n % 2 ^ lo := (Nat.div_add_mod' n (2 ^ lo)).symm
    have b : n / 2 ^ lo = n / 2 ^ lo / 2 ^ len * 2 ^ len + n / 2 ^ lo % 2 ^ len := (Nat.div_add_mod' _ _).symm
    have c : n = n / 2 ^ lo / 2 ^ len * 2 ^ len * 2 ^ lo + n / 2 ^ lo % 2 ^ len * 2 ^ lo + n % 2 ^ lo := by
      rw [← Nat.add_mul, ← b]; exact a
    simp only [putBits, bitsAt, Nat.shiftRight_eq_div_pow, Nat.add_mul]
    generalize n / 2 ^ lo % 2 ^ len * 2 ^ lo = x at c ⊢
    generalize n / 2 ^ lo / 2 ^ len * 2 ^ len * 2 ^ lo = y at c ⊢
    generalize v % 2 ^ len * 2 ^ lo = z
    omega
  have h0 : 0 < 2 ^ lo := Nat.two_pow_pos lo
  rw [e, bitsAt, Nat.shiftRight_eq_div_pow, Nat.mul_comm _ (2 ^ lo), Nat.mul_add_div h0, Nat.div_eq_of_lt (Nat.mod_lt _ h0), Nat.add_zero,
    Nat.mul_comm, Nat.mul_add_mod, Nat.mod_mod]

end Sys2Proof.Machine
end

