-- ==== Sys2Proof/Laws/Letters.lean ====
section
/-! SUPPORT. What serving a letter can do: lemmas that a proof about a letter row cites in place of unfolding `State.serve`. -/
namespace Sys2Proof.Machine

/-- A reply that turns the letter away. -/
def Reply.isRefuse : Reply → Bool
  | .refuse _ _ _ => true
  | _ => false

/-- A letter that is not taken, or has no opcode row, changes nothing but the time. -/
theorem serve_not_taken {opc : Nat} {h : Handler} {l : Letter} {s : State} (ht : (s.advance l.dt).taken opc l = none) :
    s.serve opc h l = s.advance l.dt := by
  unfold State.serve
  simp only [ht]
  split <;> simp_all

/-- An admitted letter is served by its effect. -/
theorem serve_of_admitted {opc : Nat} {h : Handler} {l : Letter} {s : State} {i : OpInfo} {q : Letter} {gap : Bool} {t : State}
    (ha : State.admitted opc h l s = some (i, q, gap, t)) : s.serve opc h l = t.conclude opc i h q gap := by
  simp only [State.admitted] at ha
  simp only [State.serve]
  cases hi : opInfo opc with
  | none => simp [hi] at ha
  | some j =>
    cases ht : (s.advance l.dt).taken opc l with
    | none => simp [hi, ht] at ha
    | some x =>
      obtain ⟨q', gap', s'⟩ := x
      simp only [hi, ht] at ha ⊢
      cases hg : s'.gate opc j h q' gap' with
      | error u => simp [hg] at ha
      | ok u =>
        simp only [hg, Option.some.injEq, Prod.mk.injEq] at ha
        obtain ⟨rfl, rfl, rfl, rfl⟩ := ha
        rfl

/-- The effect of a handler that does not refuse: what it runs, the letter kept, the reply. -/
theorem conclude_of_run {opc : Nat} {i : OpInfo} {h : Handler} {l : Letter} {gap : Bool} {t u : State} {r : Reply}
    (hr : h.run l t = (r, u)) (hn : r.isRefuse = false) :
    t.conclude opc i h l gap = (u.keepLetter opc l.payload).reply opc i.ctl l gap r := by
  unfold State.conclude
  simp only [hr]
  cases r <;> first | rfl | cases hn

/-- A refusal by the opcode's own checks leaves the state but for the receipt, the journal and the counts, where the opcode is
not one of REG_WRITE and REG_MODIFY and the answer is not FAILED or BAD_CHECK. -/
theorem conclude_of_refuse {opc : Nat} {i : OpInfo} {h : Handler} {l : Letter} {gap : Bool} {t u : State} {st : Status} {d : Nat}
    {f : Word} (hr : h.run l t = (.refuse st d f, u)) (hs : st ≠ .failed ∧ st ≠ .badCheck ∧ opc ≠ 3 ∧ opc ≠ 4) :
    t.conclude opc i h l gap = t.answer opc i.ctl l gap st d f [] := by
  unfold State.conclude
  simp [hr, hs.1, hs.2.1, hs.2.2.1, hs.2.2.2]

/-- A letter row completes with its effect, given what its handler runs. -/
theorem Serves.of_run {row : Letter → Instr} {opc : Nat} {h : Handler} {ok : Letter → State → Prop} {r : Letter → State → Reply}
    {eff : Letter → State → State} (he : ∀ l s, exec (row l) s = .next (s.serve opc h l))
    (hr : ∀ q t, ok q t → h.run q t = (r q t, eff q t)) (hn : ∀ q t, ok q t → (r q t).isRefuse = false) :
    Serves row opc h ok r eff := by
  intro l s i q gap t ha hok
  rw [he, serve_of_admitted ha, conclude_of_run (hr q t hok) (hn q t hok)]

end Sys2Proof.Machine
end

