-- ==== Sys2Proof/Laws/Memory.lean ====
section
/-! SUPPORT. Memory and the event ring: what a read after a write gives, and that every operation keeps the canonical form. -/
namespace Sys2Proof.Machine

/-! ### Association lists -/

/-- The value under `k` after a put. -/
theorem aget_aput {α : Type} (d : Nat → α) (k j : Nat) (v : α) (l : List (Nat × α)) :
    aget d j (aput k v l) = if j = k then v else aget d j l := by
  induction l with
  | nil => simp only [aput, aget, eq_comm]
  | cons x l ih => obtain ⟨i, w⟩ := x; simp only [aput, aget]; grind [aget]

/-- No value is listed below a canonical list's bound. -/
theorem aget_of_awfFrom {α : Type} [DecidableEq α] (d : Nat → α) (b j : Nat) (l : List (Nat × α))
    (h : awfFrom d (some b) l = true) (hj : j ≤ b) : aget d j l = d j := by
  induction l generalizing b with
  | nil => rfl
  | cons x l ih =>
    obtain ⟨i, w⟩ := x
    simp only [awfFrom, Bool.and_eq_true, decide_eq_true_eq] at h
    simp only [aget]
    rw [if_neg (by omega)]
    exact ih i h.2 (by omega)

/-- A canonical list above a bound is canonical above any bound below it. -/
theorem awfFrom_weaken {α : Type} [DecidableEq α] (d : Nat → α) (o : Option Nat) (b : Nat) (l : List (Nat × α))
    (h : awfFrom d (some b) l = true) (ho : ∀ c, o = some c → c ≤ b) : awfFrom d o l = true := by
  cases l with
  | nil => rfl
  | cons x l =>
    obtain ⟨i, w⟩ := x
    simp only [awfFrom, Bool.and_eq_true, decide_eq_true_eq] at h ⊢
    refine ⟨⟨?_, h.1.2⟩, h.2⟩
    cases o with
    | none => rfl
    | some c => have := ho c rfl; simp; omega

/-- A put of a value that is not the default keeps the canonical form. -/
theorem aput_awfFrom {α : Type} [DecidableEq α] (d : Nat → α) (o : Option Nat) (k : Nat) (v : α) (l : List (Nat × α))
    (h : awfFrom d o l = true) (hv : v ≠ d k) (ho : ∀ c, o = some c → c < k) : awfFrom d o (aput k v l) = true := by
  induction l generalizing o with
  | nil => cases o <;> simp_all [aput, awfFrom]
  | cons x l ih =>
    obtain ⟨i, w⟩ := x
    simp only [awfFrom, Bool.and_eq_true, decide_eq_true_eq] at h
    simp only [aput]
    split
    · next e => subst e; cases o <;> simp_all [awfFrom]
    · split
      · next e1 e2 => cases o <;> simp_all [awfFrom]
      · next e1 e2 =>
        simp only [awfFrom, Bool.and_eq_true, decide_eq_true_eq]
        exact ⟨⟨h.1.1, h.1.2⟩, ih (some i) h.2 (by rintro c ⟨⟩; omega)⟩

/-- A deletion keeps the canonical form. -/
theorem adel_awfFrom {α : Type} [DecidableEq α] (d : Nat → α) (o : Option Nat) (k : Nat) (l : List (Nat × α))
    (h : awfFrom d o l = true) : awfFrom d o (adel k l) = true := by
  induction l generalizing o with
  | nil => rfl
  | cons x l ih =>
    obtain ⟨i, w⟩ := x
    have h' := h
    simp only [awfFrom, Bool.and_eq_true, decide_eq_true_eq] at h
    simp only [adel]
    split
    · refine awfFrom_weaken d o i l h.2 ?_
      rintro c rfl
      have := h.1.1
      simp at this
      omega
    · simp only [awfFrom, Bool.and_eq_true, decide_eq_true_eq]
      exact ⟨⟨h.1.1, h.1.2⟩, ih _ h.2⟩

/-- The value under `k` after a deletion from a canonical list. -/
theorem aget_adel {α : Type} [DecidableEq α] (d : Nat → α) (o : Option Nat) (k j : Nat) (l : List (Nat × α))
    (h : awfFrom d o l = true) : aget d j (adel k l) = if j = k then d j else aget d j l := by
  induction l generalizing o with
  | nil => simp [adel, aget]
  | cons x l ih =>
    obtain ⟨i, w⟩ := x
    simp only [awfFrom, Bool.and_eq_true, decide_eq_true_eq] at h
    have hl := aget_of_awfFrom d i
    simp only [adel, aget]
    split
    · next e =>
      subst e
      by_cases hj : j = i
      · subst hj; simp [hl j l h.2 (Nat.le_refl _)]
      · rw [if_neg hj, if_neg (Ne.symm hj)]
    · next e =>
      simp only [aget]
      by_cases hj : i = j
      · subst hj; simp [e]
      · rw [if_neg hj, if_neg hj, ih _ h.2]

/-- A write keeps the canonical form. -/
theorem aset_awf {α : Type} [DecidableEq α] (d : Nat → α) (k : Nat) (v : α) (l : List (Nat × α)) (h : awf d l = true) :
    awf d (aset d k v l) = true := by
  simp only [aset, awf] at *
  split
  · exact adel_awfFrom d none k l h
  · next e => exact aput_awfFrom d none k v l h e (by simp)

/-- A read after a write. -/
theorem aget_aset {α : Type} [DecidableEq α] (d : Nat → α) (k j : Nat) (v : α) (l : List (Nat × α)) (h : awf d l = true) :
    aget d j (aset d k v l) = if j = k then v else aget d j l := by
  simp only [aset]
  split
  · next e =>
    rw [aget_adel d none k j l h]
    split
    · next e' => rw [e', e]
    · rfl
  · exact aget_aput d k j v l

/-! ### Rising lists -/

/-- Every member of a rising list's tail exceeds its head. -/
theorem rising_cons {a : Nat} {l : List Nat} : rising (a :: l) = true ↔ (∀ x ∈ l, a < x) ∧ rising l = true := by
  induction l generalizing a with
  | nil => simp [rising]
  | cons b l ih =>
    simp only [rising, Bool.and_eq_true, decide_eq_true_eq, ih, List.mem_cons, forall_eq_or_imp]
    constructor
    · rintro ⟨h1, h2, h3⟩; exact ⟨⟨h1, fun x hx => Nat.lt_trans h1 (h2 x hx)⟩, h2, h3⟩
    · rintro ⟨⟨h1, _⟩, h2, h3⟩; exact ⟨h1, h2, h3⟩

/-- A part of a rising list rises. -/
theorem rising_filter (p : Nat → Bool) {l : List Nat} (h : rising l = true) : rising (l.filter p) = true := by
  induction l with
  | nil => rfl
  | cons a l ih =>
    obtain ⟨h1, h2⟩ := rising_cons.1 h
    simp only [List.filter_cons]
    split
    · exact rising_cons.2 ⟨fun x hx => h1 x (List.mem_filter.1 hx).1, ih h2⟩
    · exact ih h2

/-- The members of a list that a word has joined. -/
theorem mem_insertUp {w x : Nat} {l : List Nat} : x ∈ insertUp w l ↔ x = w ∨ x ∈ l := by
  induction l with
  | nil => simp [insertUp]
  | cons a l ih =>
    simp only [insertUp]
    split
    · next e => subst e; simp
    · split
      · simp
      · simp [ih, or_left_comm]

/-- A word joins a rising list and it still rises. -/
theorem rising_insertUp (w : Nat) {l : List Nat} (h : rising l = true) : rising (insertUp w l) = true := by
  induction l with
  | nil => rfl
  | cons a l ih =>
    obtain ⟨h1, h2⟩ := rising_cons.1 h
    simp only [insertUp]
    split
    · exact h
    · split
      · next e1 e2 =>
        refine rising_cons.2 ⟨?_, h⟩
        intro x hx
        rcases List.mem_cons.1 hx with rfl | hx
        · exact e2
        · exact Nat.lt_trans e2 (h1 x hx)
      · next e1 e2 =>
        refine rising_cons.2 ⟨?_, ih h2⟩
        intro x hx
        rcases mem_insertUp.1 hx with rfl | hx
        · omega
        · exact h1 x hx

/-! ### Memory -/

/-- A byte read after a byte written. -/
theorem cell_putCell {s : State} (a j : Nat) (b : Byte) (h : s.mem.wf = true) :
    (s.putCell a b).cell j = if j = a then b else s.cell j := by
  simp only [MemSt.wf, Bool.and_eq_true] at h
  exact aget_aset memDefault a j b s.mem.cells h.1.1.1

/-- A byte written keeps the canonical form. -/
theorem putCell_wf {s : State} (a : Nat) (b : Byte) (h : s.mem.wf = true) : (s.putCell a b).mem.wf = true := by
  simp only [MemSt.wf, Bool.and_eq_true] at h ⊢
  exact ⟨⟨⟨aset_awf memDefault a b s.mem.cells h.1.1.1, h.1.1.2⟩, h.1.2⟩, h.2⟩

/-- Bytes written keep the canonical form. -/
theorem putCells_wf {s : State} (a : Nat) (l : List Byte) (h : s.mem.wf = true) : (s.putCells a l).mem.wf = true := by
  induction l generalizing a s with
  | nil => exact h
  | cons b l ih => exact ih (a + 1) (putCell_wf a b h)

/-- A byte read after bytes written. -/
theorem cell_putCells {s : State} (a j : Nat) (l : List Byte) (h : s.mem.wf = true) :
    (s.putCells a l).cell j = if a ≤ j ∧ j < a + l.length then l.getD (j - a) 0 else s.cell j := by
  induction l generalizing a s with
  | nil => simp only [State.putCells, List.length_nil]; rw [if_neg (by omega)]
  | cons b l ih =>
    simp only [State.putCells, ih (a + 1) (putCell_wf a b h), cell_putCell a j b h, List.length_cons]
    by_cases e : j = a
    · subst e; rw [if_neg (by omega), if_pos rfl, if_pos (by omega)]; simp
    · by_cases c : a ≤ j ∧ j < a + (l.length + 1)
      · rw [if_pos (by omega), if_pos c]
        obtain ⟨k, hk⟩ : ∃ k, j - a = k + 1 := ⟨j - a - 1, by omega⟩
        rw [hk, List.getD_cons_succ, show j - (a + 1) = k by omega]
      · rw [if_neg (by omega), if_neg e, if_neg c]

/-- Reading a byte of a list of bytes of memory. -/
theorem State.cellsFrom_getD (s : State) (a n o : Nat) :
    (s.cellsFrom a n).getD o 0 = if o < n then s.cell (a + o) else 0 := by
  induction n generalizing a o with
  | zero => simp [State.cellsFrom]
  | succ n ih =>
    cases o with
    | zero => simp [State.cellsFrom]
    | succ o =>
      simp only [State.cellsFrom, List.getD_cons_succ, ih, Nat.succ_lt_succ_iff]
      congr 2
      omega

/-- Renewing the symbol code leaves every byte. -/
@[simp] theorem cell_eccClear (s : State) (a n j : Nat) : (s.eccClear a n).cell j = s.cell j := rfl

/-- Renewing the symbol code keeps the canonical form. -/
theorem eccClear_wf {s : State} (a n : Nat) (h : s.mem.wf = true) : (s.eccClear a n).mem.wf = true := by
  simp only [MemSt.wf, Bool.and_eq_true] at h ⊢
  exact ⟨⟨⟨h.1.1.1, rising_filter _ h.1.1.2⟩, rising_filter _ h.1.2⟩, rising_filter _ h.2⟩

/-- Bytes stored with the symbol code renewed keep the canonical form. -/
theorem storeBytes_wf {s : State} (a : Nat) (l : List Byte) (h : s.mem.wf = true) : (s.storeBytes a l).mem.wf = true :=
  eccClear_wf a l.length (putCells_wf a l h)

/-- A byte read after bytes stored with the symbol code renewed. -/
theorem cell_storeBytes {s : State} (a j : Nat) (l : List Byte) (h : s.mem.wf = true) :
    (s.storeBytes a l).cell j = if a ≤ j ∧ j < a + l.length then l.getD (j - a) 0 else s.cell j :=
  cell_putCells a j l h

/-- A word marked in MEM_UNCORR keeps the canonical form. -/
theorem memUncorr_wf {s : State} (w : Nat) (h : s.mem.wf = true) : (s.memUncorr w).mem.wf = true := by
  simp only [MemSt.wf, Bool.and_eq_true] at h ⊢
  exact ⟨h.1, rising_insertUp w h.2⟩

/-- A word corrected keeps the canonical form. -/
theorem eccCorrect_wf {s : State} (w : Nat) (h : s.mem.wf = true) : (s.eccCorrect w).mem.wf = true := by
  simp only [MemSt.wf, Bool.and_eq_true] at h
  change MemSt.wf { s.mem with soft := s.mem.soft.filter (· ≠ w) } = true
  simp only [MemSt.wf, Bool.and_eq_true]
  exact ⟨⟨⟨h.1.1.1, rising_filter _ h.1.1.2⟩, h.1.2⟩, h.2⟩

/-- A word found uncorrectable leaves memory. -/
@[simp] theorem eccFound_mem (s : State) (w : Nat) : (s.eccFound w).mem = s.mem := rfl

/-- Memory read through the symbol code keeps the canonical form. -/
theorem eccRead_wf {s : State} (a n : Nat) (h : s.mem.wf = true) : (s.eccRead a n).2.mem.wf = true := by
  have fold : ∀ (l : List Nat) (t : State), t.mem.wf = true → (l.foldl (fun t w => t.eccCorrect w) t).mem.wf = true := by
    intro l
    induction l with
    | nil => exact fun t ht => ht
    | cons w l ih => exact fun t ht => ih _ (eccCorrect_wf w ht)
  simp only [State.eccRead]
  have hf := fold (s.mem.soft.filter (touches a n)) s h
  split
  · exact hf
  · exact hf

/-- Reset leaves memory in its canonical form with nothing listed. -/
theorem reset_mem_wf : State.reset.mem.wf = true ∧ State.reset.mem.cells = [] := by decide

/-! ### The event ring -/

/-- A repeat count raised leaves the number of records. -/
@[simp] theorem evRepeat_length (t : EvRec) (l : List EvRec) : (evRepeat t l).length = l.length := by
  induction l with
  | nil => rfl
  | cons r l ih => simp only [evRepeat]; split <;> simp [ih]

/-- A record inserted is one more. -/
@[simp] theorem evInsert_length (r : EvRec) (l : List EvRec) : (evInsert r l).length = l.length + 1 := by
  induction l with
  | nil => rfl
  | cons x l ih => simp only [evInsert]; split <;> simp [ih]

/-- A record posted keeps the ring's shape. -/
theorem EvSt.post_wf {e : EvSt} (pm : Postmark) (code : Nat) (d : Word) (h : e.wf = true) : (e.post pm code d).wf = true := by
  simp only [EvSt.wf, Bool.and_eq_true, decide_eq_true_eq] at h
  obtain ⟨⟨⟨h1, h2⟩, h3⟩, h4⟩ := h
  have hu := h4
  simp only [EvSt.unread] at hu
  simp only [EvSt.post]
  split
  · simp only [EvSt.wf, Bool.and_eq_true, decide_eq_true_eq]
    simp only [EvSt.unread, List.length_append, evRepeat_length,
      List.length_take, List.length_drop]
    omega
  · split
    · next hn =>
      simp only [EvSt.unread] at hn
      simp only [EvSt.wf, Bool.and_eq_true, decide_eq_true_eq]
      simp only [EvSt.unread, List.length_append, evInsert_length,
        List.length_take, List.length_drop]
      omega
    · next hn =>
      simp only [EvSt.unread] at hn
      simp only [EvSt.wf, Bool.and_eq_true, decide_eq_true_eq]
      simp only [EvSt.unread, evInsert_length, List.length_drop]
      omega

/-- An event posted keeps a sound state sound. -/
theorem post_sound {s : State} (code d : Nat) (h : s.sound = true) : (s.post code d).sound = true := by
  simp only [State.sound, Bool.and_eq_true] at h ⊢
  exact ⟨h.1, EvSt.post_wf s.now code (word d) h.2⟩

end Sys2Proof.Machine
end

