-- ==== Sys2Proof/Laws/Mills.lean ====
section
/-! SUPPORT. What a mill row can do: the lemma that a proof about a mill's instruction cites. -/
namespace Sys2Proof.Machine

/-- A mill row whose instruction is the one at the program counter runs it and finishes it. -/
theorem millRow_of_issues {m o n s t} (stall) (pick : MillOp → Option (State → MillOut)) (h : Issues m o n s t) (f)
    (hp : pick o = some f) : s.millRow m stall pick = State.millFinish m (waited m stall n s) n s.mill.mill[m] (f t) := by
  obtain ⟨h1, h2, ⟨t0, h3, rfl⟩, h4, h5⟩ := h
  simp only [State.millRow, h1, h2, h3, hp, h4]
  rw [if_neg (by simp), if_neg (by simp), if_neg]
  · rfl
  rintro ⟨a, b⟩
  have := h5 a
  rcases b with b | b
  · exact b this.1
  · rw [this.2] at b; cases b

end Sys2Proof.Machine
end

