-- ==== Sys2Proof/Laws/Receipts.lean ====
section
/-! SUPPORT. The frame of answering a letter: what a receipt, its journal record and its counts can change, and nothing else. -/
namespace Sys2Proof.Machine

/-- `u` differs from `t` at most in the letterbox, the events with the hit of a waiting capture, the journal, and the error
marks of the memory words. -/
def AnswerFrame (t u : State) : Prop :=
  u = { t with
        lb := u.lb, ev := u.ev, loop := { t.loop with cap := u.loop.cap },
        lane := { t.lane with journal := u.lane.journal, jnext := u.lane.jnext, jtick := u.lane.jtick },
        mem := { t.mem with soft := u.mem.soft, hard := u.mem.hard, uncorr := u.mem.uncorr } }

/-- No change is within the frame. -/
theorem AnswerFrame.refl (t : State) : AnswerFrame t t := rfl

/-- Two changes within the frame, one after the other. -/
theorem AnswerFrame.trans {a b c : State} (h : AnswerFrame a b) (h' : AnswerFrame b c) : AnswerFrame a c := by
  unfold AnswerFrame at *
  rw [h', h]

/-- The bytes of memory are within the frame only as they were. -/
theorem AnswerFrame.cell {t u : State} (h : AnswerFrame t u) (a : Nat) : u.cell a = t.cell a := by
  unfold AnswerFrame at h
  rw [h]
  rfl

/-- A change of the letterbox alone. -/
theorem answerFrame_lb (s : State) (x : LetterSt) : AnswerFrame s { s with lb := x } := rfl

/-- An event. -/
theorem answerFrame_post (code d : Nat) (s : State) : AnswerFrame s (s.post code d) := rfl

/-- A dead letter counted. -/
theorem answerFrame_deadLetter (p : Fin 6) (st : Nat) (s : State) : AnswerFrame s (s.deadLetter p st) := rfl

/-- A journal record. -/
theorem answerFrame_journal (a b c d e f g) (s : State) : AnswerFrame s (s.journal a b c d e f g) := rfl

/-- A receipt sent. -/
theorem answerFrame_sendReceipt (p a r) (s : State) : AnswerFrame s (s.sendReceipt p a r) := by
  unfold State.sendReceipt
  split <;> rfl

/-- A letter counted in the port's session. -/
theorem answerFrame_sessionDone (a b) (s : State) : AnswerFrame s (s.sessionDone a b) := by
  unfold State.sessionDone
  (repeat' split) <;> rfl

/-- A letter answered. -/
theorem answerFrame_answer (opc k l gap st d f tl) (s : State) : AnswerFrame s (s.answer opc k l gap st d f tl) := by
  unfold State.answer
  extract_lets d' s1 sup s2 s3 s4
  have h1 : AnswerFrame s s1 := by
    simp only [s1]; split
    · exact AnswerFrame.refl _
    · exact answerFrame_journal ..
  have h2 : AnswerFrame s1 s2 := by
    simp only [s2]; split
    · exact AnswerFrame.refl _
    · exact answerFrame_sendReceipt ..
  have h3 : AnswerFrame s2 s3 := by
    simp only [s3]; split
    · exact AnswerFrame.refl _
    · exact answerFrame_lb ..
  have h4 : AnswerFrame s3 s4 := by
    simp only [s4]; split
    · exact answerFrame_deadLetter ..
    · exact AnswerFrame.refl _
  have h5 : AnswerFrame s4 (if st = .done then s4.sessionDone l.port (opWord opc l.toHead) else s4) := by
    split
    · exact answerFrame_sessionDone ..
    · exact AnswerFrame.refl _
  exact (((h1.trans h2).trans h3).trans h4).trans h5

end Sys2Proof.Machine
end

