-- ==== Sys2Proof/Laws/Registers.lean ====
section
/-! SUPPORT. What a REG_WRITE row can do: lemmas that a proof about such a row cites. -/
namespace Sys2Proof.Machine

/-- Four little-endian bytes read back. -/
theorem natLE_bytesLE4 {v : Nat} (h : v < 2 ^ 32) : natLE (bytesLE 4 v) = v := by
  simp only [bytesLE, natLE, BitVec.toNat_ofNat]
  omega

/-- The address of a register letter. -/
theorem u32_addr {a : Nat} (r : List Byte) (h : a < 2 ^ 32) : u32 (bytesLE 4 a ++ r) 0 = a := by
  have : slice (bytesLE 4 a ++ r) 0 4 = bytesLE 4 a := by simp [slice, bytesLE, List.range, List.range.loop]
  rw [u32, this, natLE_bytesLE4 h]

/-- The value of a register letter. -/
theorem u32_value {v : Nat} (a : Nat) (h : v < 2 ^ 32) : u32 (bytesLE 4 a ++ bytesLE 4 v) 4 = v := by
  have : slice (bytesLE 4 a ++ bytesLE 4 v) 4 4 = bytesLE 4 v := by simp [slice, bytesLE, List.range, List.range.loop]
  rw [u32, this, natLE_bytesLE4 h]

/-- A write that sets every bit leaves nothing of the old word. -/
theorem mixBits_full {v : Nat} (old : Nat) (h : v < 2 ^ 32) : mixBits old v 0xFFFFFFFF = v := by
  have e : word 0xFFFFFFFF = BitVec.allOnes 32 := by decide
  simp only [mixBits, e, BitVec.not_allOnes, BitVec.and_zero, BitVec.zero_or, BitVec.and_allOnes]
  exact Nat.mod_eq_of_lt h

/-- A REG_WRITE row completes with its effect, given what the write does. -/
theorem ServesWrite.of_write {row : Head → Word → Instr} {a : Nat} {ok : Word → State → Prop} {eff : Word → State → State}
    (he : ∀ h v s, exec (row h v) s = .next (s.writeRow h a v)) (ha : a < 0x100000)
    (hw : ∀ v t, ok v t → State.writeReg a v.toNat 0xFFFFFFFF t = (none, eff v t)) : ServesWrite row a ok eff := by
  intro h v s i q gap t had hp hok
  have hr : regWriteHandler.run q t = (.done 0 [], eff v t) := by
    simp only [regWriteHandler, hp, u32_addr (bytesLE 4 v.toNat) (by omega : a < 2 ^ 32), u32_value a v.isLt, State.writeAt, ha,
      if_true, hw v t hok, writeReply]
    rfl
  rw [he, State.writeRow, serve_of_admitted had, conclude_of_run hr rfl]
  rfl

/-- A write that no rule refuses has its effect. -/
theorem writeReg_allowed {a : Nat} {v : Word} {t : State} (h : Allowed a v t) :
    t.writeReg a v.toNat 0xFFFFFFFF = t.writeEffect a (written a v t) v.toNat 0xFFFFFFFF := by
  obtain ⟨h1, h2, h3, h4⟩ := h
  simp only [written] at h2 h3 h4
  simp [State.writeReg, h1, h2, h3, h4, written]

end Sys2Proof.Machine
end

