-- ==== Sys2Proof/Laws/State.lean ====
section
/-! SUPPORT. What each update of State leaves and sets, field by field: each true by rfl, so that no proof unfolds an update. -/
namespace Sys2Proof.Machine

/-! ### A ramp unit replaced -/

@[simp] theorem State.setRamp_pending (s : State) (u : Fin 4) (r : RampSt) : (s.setRamp u r).pending = s.pending := rfl
@[simp] theorem State.setRamp_now (s : State) (u : Fin 4) (r : RampSt) : (s.setRamp u r).now = s.now := rfl
@[simp] theorem State.setRamp_free (s : State) (u : Fin 4) (r : RampSt) : (s.setRamp u r).free = s.free := rfl
@[simp] theorem State.setRamp_sys (s : State) (u : Fin 4) (r : RampSt) : (s.setRamp u r).sys = s.sys := rfl
@[simp] theorem State.setRamp_regs (s : State) (u : Fin 4) (r : RampSt) : (s.setRamp u r).regs = s.regs := rfl
@[simp] theorem State.setRamp_half (s : State) (u : Fin 4) (r : RampSt) : (s.setRamp u r).half = s.half := rfl
@[simp] theorem State.setRamp_latch (s : State) (u : Fin 4) (r : RampSt) : (s.setRamp u r).latch = s.latch := rfl
@[simp] theorem State.setRamp_mem (s : State) (u : Fin 4) (r : RampSt) : (s.setRamp u r).mem = s.mem := rfl
@[simp] theorem State.setRamp_ev (s : State) (u : Fin 4) (r : RampSt) : (s.setRamp u r).ev = s.ev := rfl
@[simp] theorem State.setRamp_lb (s : State) (u : Fin 4) (r : RampSt) : (s.setRamp u r).lb = s.lb := rfl
@[simp] theorem State.setRamp_ramp (s : State) (u : Fin 4) (r : RampSt) : (s.setRamp u r).ramp = s.ramp.set u r := rfl
@[simp] theorem State.setRamp_lane (s : State) (u : Fin 4) (r : RampSt) : (s.setRamp u r).lane = s.lane := rfl
@[simp] theorem State.setRamp_pwr (s : State) (u : Fin 4) (r : RampSt) : (s.setRamp u r).pwr = s.pwr := rfl
@[simp] theorem State.setRamp_flash (s : State) (u : Fin 4) (r : RampSt) : (s.setRamp u r).flash = s.flash := rfl
@[simp] theorem State.setRamp_fio (s : State) (u : Fin 4) (r : RampSt) : (s.setRamp u r).fio = s.fio := rfl
@[simp] theorem State.setRamp_lock (s : State) (u : Fin 4) (r : RampSt) : (s.setRamp u r).lock = s.lock := rfl
@[simp] theorem State.setRamp_board (s : State) (u : Fin 4) (r : RampSt) : (s.setRamp u r).board = s.board := rfl
@[simp] theorem State.setRamp_sense (s : State) (u : Fin 4) (r : RampSt) : (s.setRamp u r).sense = s.sense := rfl
@[simp] theorem State.setRamp_loop (s : State) (u : Fin 4) (r : RampSt) : (s.setRamp u r).loop = s.loop := rfl
@[simp] theorem State.setRamp_door (s : State) (u : Fin 4) (r : RampSt) : (s.setRamp u r).door = s.door := rfl
@[simp] theorem State.setRamp_group (s : State) (u : Fin 4) (r : RampSt) : (s.setRamp u r).group = s.group := rfl
@[simp] theorem State.setRamp_mill (s : State) (u : Fin 4) (r : RampSt) : (s.setRamp u r).mill = s.mill := rfl
@[simp] theorem State.setRamp_can (s : State) (u : Fin 4) (r : RampSt) : (s.setRamp u r).can = s.can := rfl
@[simp] theorem State.setRamp_link (s : State) (u : Fin 4) (r : RampSt) : (s.setRamp u r).link = s.link := rfl

/-! ### The door units replaced -/

@[simp] theorem State.setDoor_pending (s : State) (d : DoorSt) : (s.setDoor d).pending = s.pending := rfl
@[simp] theorem State.setDoor_now (s : State) (d : DoorSt) : (s.setDoor d).now = s.now := rfl
@[simp] theorem State.setDoor_free (s : State) (d : DoorSt) : (s.setDoor d).free = s.free := rfl
@[simp] theorem State.setDoor_sys (s : State) (d : DoorSt) : (s.setDoor d).sys = s.sys := rfl
@[simp] theorem State.setDoor_regs (s : State) (d : DoorSt) : (s.setDoor d).regs = s.regs := rfl
@[simp] theorem State.setDoor_half (s : State) (d : DoorSt) : (s.setDoor d).half = s.half := rfl
@[simp] theorem State.setDoor_latch (s : State) (d : DoorSt) : (s.setDoor d).latch = s.latch := rfl
@[simp] theorem State.setDoor_mem (s : State) (d : DoorSt) : (s.setDoor d).mem = s.mem := rfl
@[simp] theorem State.setDoor_ev (s : State) (d : DoorSt) : (s.setDoor d).ev = s.ev := rfl
@[simp] theorem State.setDoor_lb (s : State) (d : DoorSt) : (s.setDoor d).lb = s.lb := rfl
@[simp] theorem State.setDoor_ramp (s : State) (d : DoorSt) : (s.setDoor d).ramp = s.ramp := rfl
@[simp] theorem State.setDoor_lane (s : State) (d : DoorSt) : (s.setDoor d).lane = s.lane := rfl
@[simp] theorem State.setDoor_pwr (s : State) (d : DoorSt) : (s.setDoor d).pwr = s.pwr := rfl
@[simp] theorem State.setDoor_flash (s : State) (d : DoorSt) : (s.setDoor d).flash = s.flash := rfl
@[simp] theorem State.setDoor_fio (s : State) (d : DoorSt) : (s.setDoor d).fio = s.fio := rfl
@[simp] theorem State.setDoor_lock (s : State) (d : DoorSt) : (s.setDoor d).lock = s.lock := rfl
@[simp] theorem State.setDoor_board (s : State) (d : DoorSt) : (s.setDoor d).board = s.board := rfl
@[simp] theorem State.setDoor_sense (s : State) (d : DoorSt) : (s.setDoor d).sense = s.sense := rfl
@[simp] theorem State.setDoor_loop (s : State) (d : DoorSt) : (s.setDoor d).loop = s.loop := rfl
@[simp] theorem State.setDoor_door (s : State) (d : DoorSt) : (s.setDoor d).door = d := rfl
@[simp] theorem State.setDoor_group (s : State) (d : DoorSt) : (s.setDoor d).group = s.group := rfl
@[simp] theorem State.setDoor_mill (s : State) (d : DoorSt) : (s.setDoor d).mill = s.mill := rfl
@[simp] theorem State.setDoor_can (s : State) (d : DoorSt) : (s.setDoor d).can = s.can := rfl
@[simp] theorem State.setDoor_link (s : State) (d : DoorSt) : (s.setDoor d).link = s.link := rfl

/-! ### The safety lock replaced -/

@[simp] theorem State.setLock_pending (s : State) (l : LockSt) : (s.setLock l).pending = s.pending := rfl
@[simp] theorem State.setLock_now (s : State) (l : LockSt) : (s.setLock l).now = s.now := rfl
@[simp] theorem State.setLock_free (s : State) (l : LockSt) : (s.setLock l).free = s.free := rfl
@[simp] theorem State.setLock_sys (s : State) (l : LockSt) : (s.setLock l).sys = s.sys := rfl
@[simp] theorem State.setLock_regs (s : State) (l : LockSt) : (s.setLock l).regs = s.regs := rfl
@[simp] theorem State.setLock_half (s : State) (l : LockSt) : (s.setLock l).half = s.half := rfl
@[simp] theorem State.setLock_latch (s : State) (l : LockSt) : (s.setLock l).latch = s.latch := rfl
@[simp] theorem State.setLock_mem (s : State) (l : LockSt) : (s.setLock l).mem = s.mem := rfl
@[simp] theorem State.setLock_ev (s : State) (l : LockSt) : (s.setLock l).ev = s.ev := rfl
@[simp] theorem State.setLock_lb (s : State) (l : LockSt) : (s.setLock l).lb = s.lb := rfl
@[simp] theorem State.setLock_ramp (s : State) (l : LockSt) : (s.setLock l).ramp = s.ramp := rfl
@[simp] theorem State.setLock_lane (s : State) (l : LockSt) : (s.setLock l).lane = s.lane := rfl
@[simp] theorem State.setLock_pwr (s : State) (l : LockSt) : (s.setLock l).pwr = s.pwr := rfl
@[simp] theorem State.setLock_flash (s : State) (l : LockSt) : (s.setLock l).flash = s.flash := rfl
@[simp] theorem State.setLock_fio (s : State) (l : LockSt) : (s.setLock l).fio = s.fio := rfl
@[simp] theorem State.setLock_lock (s : State) (l : LockSt) : (s.setLock l).lock = l := rfl
@[simp] theorem State.setLock_board (s : State) (l : LockSt) : (s.setLock l).board = s.board := rfl
@[simp] theorem State.setLock_sense (s : State) (l : LockSt) : (s.setLock l).sense = s.sense := rfl
@[simp] theorem State.setLock_loop (s : State) (l : LockSt) : (s.setLock l).loop = s.loop := rfl
@[simp] theorem State.setLock_door (s : State) (l : LockSt) : (s.setLock l).door = s.door := rfl
@[simp] theorem State.setLock_group (s : State) (l : LockSt) : (s.setLock l).group = s.group := rfl
@[simp] theorem State.setLock_mill (s : State) (l : LockSt) : (s.setLock l).mill = s.mill := rfl
@[simp] theorem State.setLock_can (s : State) (l : LockSt) : (s.setLock l).can = s.can := rfl
@[simp] theorem State.setLock_link (s : State) (l : LockSt) : (s.setLock l).link = s.link := rfl

/-! ### The lanes replaced -/

@[simp] theorem State.setLane_pending (s : State) (l : LaneSt) : (s.setLane l).pending = s.pending := rfl
@[simp] theorem State.setLane_now (s : State) (l : LaneSt) : (s.setLane l).now = s.now := rfl
@[simp] theorem State.setLane_free (s : State) (l : LaneSt) : (s.setLane l).free = s.free := rfl
@[simp] theorem State.setLane_sys (s : State) (l : LaneSt) : (s.setLane l).sys = s.sys := rfl
@[simp] theorem State.setLane_regs (s : State) (l : LaneSt) : (s.setLane l).regs = s.regs := rfl
@[simp] theorem State.setLane_half (s : State) (l : LaneSt) : (s.setLane l).half = s.half := rfl
@[simp] theorem State.setLane_latch (s : State) (l : LaneSt) : (s.setLane l).latch = s.latch := rfl
@[simp] theorem State.setLane_mem (s : State) (l : LaneSt) : (s.setLane l).mem = s.mem := rfl
@[simp] theorem State.setLane_ev (s : State) (l : LaneSt) : (s.setLane l).ev = s.ev := rfl
@[simp] theorem State.setLane_lb (s : State) (l : LaneSt) : (s.setLane l).lb = s.lb := rfl
@[simp] theorem State.setLane_ramp (s : State) (l : LaneSt) : (s.setLane l).ramp = s.ramp := rfl
@[simp] theorem State.setLane_lane (s : State) (l : LaneSt) : (s.setLane l).lane = l := rfl
@[simp] theorem State.setLane_pwr (s : State) (l : LaneSt) : (s.setLane l).pwr = s.pwr := rfl
@[simp] theorem State.setLane_flash (s : State) (l : LaneSt) : (s.setLane l).flash = s.flash := rfl
@[simp] theorem State.setLane_fio (s : State) (l : LaneSt) : (s.setLane l).fio = s.fio := rfl
@[simp] theorem State.setLane_lock (s : State) (l : LaneSt) : (s.setLane l).lock = s.lock := rfl
@[simp] theorem State.setLane_board (s : State) (l : LaneSt) : (s.setLane l).board = s.board := rfl
@[simp] theorem State.setLane_sense (s : State) (l : LaneSt) : (s.setLane l).sense = s.sense := rfl
@[simp] theorem State.setLane_loop (s : State) (l : LaneSt) : (s.setLane l).loop = s.loop := rfl
@[simp] theorem State.setLane_door (s : State) (l : LaneSt) : (s.setLane l).door = s.door := rfl
@[simp] theorem State.setLane_group (s : State) (l : LaneSt) : (s.setLane l).group = s.group := rfl
@[simp] theorem State.setLane_mill (s : State) (l : LaneSt) : (s.setLane l).mill = s.mill := rfl
@[simp] theorem State.setLane_can (s : State) (l : LaneSt) : (s.setLane l).can = s.can := rfl
@[simp] theorem State.setLane_link (s : State) (l : LaneSt) : (s.setLane l).link = s.link := rfl

/-! ### The power block replaced -/

@[simp] theorem State.setPwr_pending (s : State) (p : PwrSt) : (s.setPwr p).pending = s.pending := rfl
@[simp] theorem State.setPwr_now (s : State) (p : PwrSt) : (s.setPwr p).now = s.now := rfl
@[simp] theorem State.setPwr_free (s : State) (p : PwrSt) : (s.setPwr p).free = s.free := rfl
@[simp] theorem State.setPwr_sys (s : State) (p : PwrSt) : (s.setPwr p).sys = s.sys := rfl
@[simp] theorem State.setPwr_regs (s : State) (p : PwrSt) : (s.setPwr p).regs = s.regs := rfl
@[simp] theorem State.setPwr_half (s : State) (p : PwrSt) : (s.setPwr p).half = s.half := rfl
@[simp] theorem State.setPwr_latch (s : State) (p : PwrSt) : (s.setPwr p).latch = s.latch := rfl
@[simp] theorem State.setPwr_mem (s : State) (p : PwrSt) : (s.setPwr p).mem = s.mem := rfl
@[simp] theorem State.setPwr_ev (s : State) (p : PwrSt) : (s.setPwr p).ev = s.ev := rfl
@[simp] theorem State.setPwr_lb (s : State) (p : PwrSt) : (s.setPwr p).lb = s.lb := rfl
@[simp] theorem State.setPwr_ramp (s : State) (p : PwrSt) : (s.setPwr p).ramp = s.ramp := rfl
@[simp] theorem State.setPwr_lane (s : State) (p : PwrSt) : (s.setPwr p).lane = s.lane := rfl
@[simp] theorem State.setPwr_pwr (s : State) (p : PwrSt) : (s.setPwr p).pwr = p := rfl
@[simp] theorem State.setPwr_flash (s : State) (p : PwrSt) : (s.setPwr p).flash = s.flash := rfl
@[simp] theorem State.setPwr_fio (s : State) (p : PwrSt) : (s.setPwr p).fio = s.fio := rfl
@[simp] theorem State.setPwr_lock (s : State) (p : PwrSt) : (s.setPwr p).lock = s.lock := rfl
@[simp] theorem State.setPwr_board (s : State) (p : PwrSt) : (s.setPwr p).board = s.board := rfl
@[simp] theorem State.setPwr_sense (s : State) (p : PwrSt) : (s.setPwr p).sense = s.sense := rfl
@[simp] theorem State.setPwr_loop (s : State) (p : PwrSt) : (s.setPwr p).loop = s.loop := rfl
@[simp] theorem State.setPwr_door (s : State) (p : PwrSt) : (s.setPwr p).door = s.door := rfl
@[simp] theorem State.setPwr_group (s : State) (p : PwrSt) : (s.setPwr p).group = s.group := rfl
@[simp] theorem State.setPwr_mill (s : State) (p : PwrSt) : (s.setPwr p).mill = s.mill := rfl
@[simp] theorem State.setPwr_can (s : State) (p : PwrSt) : (s.setPwr p).can = s.can := rfl
@[simp] theorem State.setPwr_link (s : State) (p : PwrSt) : (s.setPwr p).link = s.link := rfl

/-! ### The flash die replaced -/

@[simp] theorem State.setFlash_pending (s : State) (f : FlashSt) : (s.setFlash f).pending = s.pending := rfl
@[simp] theorem State.setFlash_now (s : State) (f : FlashSt) : (s.setFlash f).now = s.now := rfl
@[simp] theorem State.setFlash_free (s : State) (f : FlashSt) : (s.setFlash f).free = s.free := rfl
@[simp] theorem State.setFlash_sys (s : State) (f : FlashSt) : (s.setFlash f).sys = s.sys := rfl
@[simp] theorem State.setFlash_regs (s : State) (f : FlashSt) : (s.setFlash f).regs = s.regs := rfl
@[simp] theorem State.setFlash_half (s : State) (f : FlashSt) : (s.setFlash f).half = s.half := rfl
@[simp] theorem State.setFlash_latch (s : State) (f : FlashSt) : (s.setFlash f).latch = s.latch := rfl
@[simp] theorem State.setFlash_mem (s : State) (f : FlashSt) : (s.setFlash f).mem = s.mem := rfl
@[simp] theorem State.setFlash_ev (s : State) (f : FlashSt) : (s.setFlash f).ev = s.ev := rfl
@[simp] theorem State.setFlash_lb (s : State) (f : FlashSt) : (s.setFlash f).lb = s.lb := rfl
@[simp] theorem State.setFlash_ramp (s : State) (f : FlashSt) : (s.setFlash f).ramp = s.ramp := rfl
@[simp] theorem State.setFlash_lane (s : State) (f : FlashSt) : (s.setFlash f).lane = s.lane := rfl
@[simp] theorem State.setFlash_pwr (s : State) (f : FlashSt) : (s.setFlash f).pwr = s.pwr := rfl
@[simp] theorem State.setFlash_flash (s : State) (f : FlashSt) : (s.setFlash f).flash = f := rfl
@[simp] theorem State.setFlash_fio (s : State) (f : FlashSt) : (s.setFlash f).fio = s.fio := rfl
@[simp] theorem State.setFlash_lock (s : State) (f : FlashSt) : (s.setFlash f).lock = s.lock := rfl
@[simp] theorem State.setFlash_board (s : State) (f : FlashSt) : (s.setFlash f).board = s.board := rfl
@[simp] theorem State.setFlash_sense (s : State) (f : FlashSt) : (s.setFlash f).sense = s.sense := rfl
@[simp] theorem State.setFlash_loop (s : State) (f : FlashSt) : (s.setFlash f).loop = s.loop := rfl
@[simp] theorem State.setFlash_door (s : State) (f : FlashSt) : (s.setFlash f).door = s.door := rfl
@[simp] theorem State.setFlash_group (s : State) (f : FlashSt) : (s.setFlash f).group = s.group := rfl
@[simp] theorem State.setFlash_mill (s : State) (f : FlashSt) : (s.setFlash f).mill = s.mill := rfl
@[simp] theorem State.setFlash_can (s : State) (f : FlashSt) : (s.setFlash f).can = s.can := rfl
@[simp] theorem State.setFlash_link (s : State) (f : FlashSt) : (s.setFlash f).link = s.link := rfl

/-! ### The group block replaced -/

@[simp] theorem State.setGroup_pending (s : State) (g : GroupSt) : (s.setGroup g).pending = s.pending := rfl
@[simp] theorem State.setGroup_now (s : State) (g : GroupSt) : (s.setGroup g).now = s.now := rfl
@[simp] theorem State.setGroup_free (s : State) (g : GroupSt) : (s.setGroup g).free = s.free := rfl
@[simp] theorem State.setGroup_sys (s : State) (g : GroupSt) : (s.setGroup g).sys = s.sys := rfl
@[simp] theorem State.setGroup_regs (s : State) (g : GroupSt) : (s.setGroup g).regs = s.regs := rfl
@[simp] theorem State.setGroup_half (s : State) (g : GroupSt) : (s.setGroup g).half = s.half := rfl
@[simp] theorem State.setGroup_latch (s : State) (g : GroupSt) : (s.setGroup g).latch = s.latch := rfl
@[simp] theorem State.setGroup_mem (s : State) (g : GroupSt) : (s.setGroup g).mem = s.mem := rfl
@[simp] theorem State.setGroup_ev (s : State) (g : GroupSt) : (s.setGroup g).ev = s.ev := rfl
@[simp] theorem State.setGroup_lb (s : State) (g : GroupSt) : (s.setGroup g).lb = s.lb := rfl
@[simp] theorem State.setGroup_ramp (s : State) (g : GroupSt) : (s.setGroup g).ramp = s.ramp := rfl
@[simp] theorem State.setGroup_lane (s : State) (g : GroupSt) : (s.setGroup g).lane = s.lane := rfl
@[simp] theorem State.setGroup_pwr (s : State) (g : GroupSt) : (s.setGroup g).pwr = s.pwr := rfl
@[simp] theorem State.setGroup_flash (s : State) (g : GroupSt) : (s.setGroup g).flash = s.flash := rfl
@[simp] theorem State.setGroup_fio (s : State) (g : GroupSt) : (s.setGroup g).fio = s.fio := rfl
@[simp] theorem State.setGroup_lock (s : State) (g : GroupSt) : (s.setGroup g).lock = s.lock := rfl
@[simp] theorem State.setGroup_board (s : State) (g : GroupSt) : (s.setGroup g).board = s.board := rfl
@[simp] theorem State.setGroup_sense (s : State) (g : GroupSt) : (s.setGroup g).sense = s.sense := rfl
@[simp] theorem State.setGroup_loop (s : State) (g : GroupSt) : (s.setGroup g).loop = s.loop := rfl
@[simp] theorem State.setGroup_door (s : State) (g : GroupSt) : (s.setGroup g).door = s.door := rfl
@[simp] theorem State.setGroup_group (s : State) (g : GroupSt) : (s.setGroup g).group = g := rfl
@[simp] theorem State.setGroup_mill (s : State) (g : GroupSt) : (s.setGroup g).mill = s.mill := rfl
@[simp] theorem State.setGroup_can (s : State) (g : GroupSt) : (s.setGroup g).can = s.can := rfl
@[simp] theorem State.setGroup_link (s : State) (g : GroupSt) : (s.setGroup g).link = s.link := rfl

/-! ### Group time replaced -/

@[simp] theorem State.setGt_pending (s : State) (g : GtSt) : (s.setGt g).pending = s.pending := rfl
@[simp] theorem State.setGt_now (s : State) (g : GtSt) : (s.setGt g).now = s.now := rfl
@[simp] theorem State.setGt_free (s : State) (g : GtSt) : (s.setGt g).free = s.free := rfl
@[simp] theorem State.setGt_sys (s : State) (g : GtSt) : (s.setGt g).sys = s.sys := rfl
@[simp] theorem State.setGt_regs (s : State) (g : GtSt) : (s.setGt g).regs = s.regs := rfl
@[simp] theorem State.setGt_half (s : State) (g : GtSt) : (s.setGt g).half = s.half := rfl
@[simp] theorem State.setGt_latch (s : State) (g : GtSt) : (s.setGt g).latch = s.latch := rfl
@[simp] theorem State.setGt_mem (s : State) (g : GtSt) : (s.setGt g).mem = s.mem := rfl
@[simp] theorem State.setGt_ev (s : State) (g : GtSt) : (s.setGt g).ev = s.ev := rfl
@[simp] theorem State.setGt_lb (s : State) (g : GtSt) : (s.setGt g).lb = s.lb := rfl
@[simp] theorem State.setGt_ramp (s : State) (g : GtSt) : (s.setGt g).ramp = s.ramp := rfl
@[simp] theorem State.setGt_lane (s : State) (g : GtSt) : (s.setGt g).lane = s.lane := rfl
@[simp] theorem State.setGt_pwr (s : State) (g : GtSt) : (s.setGt g).pwr = s.pwr := rfl
@[simp] theorem State.setGt_flash (s : State) (g : GtSt) : (s.setGt g).flash = s.flash := rfl
@[simp] theorem State.setGt_fio (s : State) (g : GtSt) : (s.setGt g).fio = s.fio := rfl
@[simp] theorem State.setGt_lock (s : State) (g : GtSt) : (s.setGt g).lock = s.lock := rfl
@[simp] theorem State.setGt_board (s : State) (g : GtSt) : (s.setGt g).board = s.board := rfl
@[simp] theorem State.setGt_sense (s : State) (g : GtSt) : (s.setGt g).sense = s.sense := rfl
@[simp] theorem State.setGt_loop (s : State) (g : GtSt) : (s.setGt g).loop = s.loop := rfl
@[simp] theorem State.setGt_door (s : State) (g : GtSt) : (s.setGt g).door = s.door := rfl
@[simp] theorem State.setGt_mill (s : State) (g : GtSt) : (s.setGt g).mill = s.mill := rfl
@[simp] theorem State.setGt_can (s : State) (g : GtSt) : (s.setGt g).can = s.can := rfl
@[simp] theorem State.setGt_link (s : State) (g : GtSt) : (s.setGt g).link = s.link := rfl

/-! ### A CAN controller replaced -/

@[simp] theorem State.setCan_pending (s : State) (c : Fin 3) (q : CanSt) : (s.setCan c q).pending = s.pending := rfl
@[simp] theorem State.setCan_now (s : State) (c : Fin 3) (q : CanSt) : (s.setCan c q).now = s.now := rfl
@[simp] theorem State.setCan_free (s : State) (c : Fin 3) (q : CanSt) : (s.setCan c q).free = s.free := rfl
@[simp] theorem State.setCan_sys (s : State) (c : Fin 3) (q : CanSt) : (s.setCan c q).sys = s.sys := rfl
@[simp] theorem State.setCan_regs (s : State) (c : Fin 3) (q : CanSt) : (s.setCan c q).regs = s.regs := rfl
@[simp] theorem State.setCan_half (s : State) (c : Fin 3) (q : CanSt) : (s.setCan c q).half = s.half := rfl
@[simp] theorem State.setCan_latch (s : State) (c : Fin 3) (q : CanSt) : (s.setCan c q).latch = s.latch := rfl
@[simp] theorem State.setCan_mem (s : State) (c : Fin 3) (q : CanSt) : (s.setCan c q).mem = s.mem := rfl
@[simp] theorem State.setCan_ev (s : State) (c : Fin 3) (q : CanSt) : (s.setCan c q).ev = s.ev := rfl
@[simp] theorem State.setCan_lb (s : State) (c : Fin 3) (q : CanSt) : (s.setCan c q).lb = s.lb := rfl
@[simp] theorem State.setCan_ramp (s : State) (c : Fin 3) (q : CanSt) : (s.setCan c q).ramp = s.ramp := rfl
@[simp] theorem State.setCan_lane (s : State) (c : Fin 3) (q : CanSt) : (s.setCan c q).lane = s.lane := rfl
@[simp] theorem State.setCan_pwr (s : State) (c : Fin 3) (q : CanSt) : (s.setCan c q).pwr = s.pwr := rfl
@[simp] theorem State.setCan_flash (s : State) (c : Fin 3) (q : CanSt) : (s.setCan c q).flash = s.flash := rfl
@[simp] theorem State.setCan_fio (s : State) (c : Fin 3) (q : CanSt) : (s.setCan c q).fio = s.fio := rfl
@[simp] theorem State.setCan_lock (s : State) (c : Fin 3) (q : CanSt) : (s.setCan c q).lock = s.lock := rfl
@[simp] theorem State.setCan_board (s : State) (c : Fin 3) (q : CanSt) : (s.setCan c q).board = s.board := rfl
@[simp] theorem State.setCan_sense (s : State) (c : Fin 3) (q : CanSt) : (s.setCan c q).sense = s.sense := rfl
@[simp] theorem State.setCan_loop (s : State) (c : Fin 3) (q : CanSt) : (s.setCan c q).loop = s.loop := rfl
@[simp] theorem State.setCan_door (s : State) (c : Fin 3) (q : CanSt) : (s.setCan c q).door = s.door := rfl
@[simp] theorem State.setCan_group (s : State) (c : Fin 3) (q : CanSt) : (s.setCan c q).group = s.group := rfl
@[simp] theorem State.setCan_mill (s : State) (c : Fin 3) (q : CanSt) : (s.setCan c q).mill = s.mill := rfl
@[simp] theorem State.setCan_can (s : State) (c : Fin 3) (q : CanSt) : (s.setCan c q).can = s.can.set c q := rfl
@[simp] theorem State.setCan_link (s : State) (c : Fin 3) (q : CanSt) : (s.setCan c q).link = s.link := rfl

/-! ### A mill replaced -/

@[simp] theorem State.setMill_pending (s : State) (m : Fin 4) (q : MillSt) : (s.setMill m q).pending = s.pending := rfl
@[simp] theorem State.setMill_now (s : State) (m : Fin 4) (q : MillSt) : (s.setMill m q).now = s.now := rfl
@[simp] theorem State.setMill_free (s : State) (m : Fin 4) (q : MillSt) : (s.setMill m q).free = s.free := rfl
@[simp] theorem State.setMill_sys (s : State) (m : Fin 4) (q : MillSt) : (s.setMill m q).sys = s.sys := rfl
@[simp] theorem State.setMill_regs (s : State) (m : Fin 4) (q : MillSt) : (s.setMill m q).regs = s.regs := rfl
@[simp] theorem State.setMill_half (s : State) (m : Fin 4) (q : MillSt) : (s.setMill m q).half = s.half := rfl
@[simp] theorem State.setMill_latch (s : State) (m : Fin 4) (q : MillSt) : (s.setMill m q).latch = s.latch := rfl
@[simp] theorem State.setMill_mem (s : State) (m : Fin 4) (q : MillSt) : (s.setMill m q).mem = s.mem := rfl
@[simp] theorem State.setMill_ev (s : State) (m : Fin 4) (q : MillSt) : (s.setMill m q).ev = s.ev := rfl
@[simp] theorem State.setMill_lb (s : State) (m : Fin 4) (q : MillSt) : (s.setMill m q).lb = s.lb := rfl
@[simp] theorem State.setMill_ramp (s : State) (m : Fin 4) (q : MillSt) : (s.setMill m q).ramp = s.ramp := rfl
@[simp] theorem State.setMill_lane (s : State) (m : Fin 4) (q : MillSt) : (s.setMill m q).lane = s.lane := rfl
@[simp] theorem State.setMill_pwr (s : State) (m : Fin 4) (q : MillSt) : (s.setMill m q).pwr = s.pwr := rfl
@[simp] theorem State.setMill_flash (s : State) (m : Fin 4) (q : MillSt) : (s.setMill m q).flash = s.flash := rfl
@[simp] theorem State.setMill_fio (s : State) (m : Fin 4) (q : MillSt) : (s.setMill m q).fio = s.fio := rfl
@[simp] theorem State.setMill_lock (s : State) (m : Fin 4) (q : MillSt) : (s.setMill m q).lock = s.lock := rfl
@[simp] theorem State.setMill_board (s : State) (m : Fin 4) (q : MillSt) : (s.setMill m q).board = s.board := rfl
@[simp] theorem State.setMill_sense (s : State) (m : Fin 4) (q : MillSt) : (s.setMill m q).sense = s.sense := rfl
@[simp] theorem State.setMill_loop (s : State) (m : Fin 4) (q : MillSt) : (s.setMill m q).loop = s.loop := rfl
@[simp] theorem State.setMill_door (s : State) (m : Fin 4) (q : MillSt) : (s.setMill m q).door = s.door := rfl
@[simp] theorem State.setMill_group (s : State) (m : Fin 4) (q : MillSt) : (s.setMill m q).group = s.group := rfl
@[simp] theorem State.setMill_can (s : State) (m : Fin 4) (q : MillSt) : (s.setMill m q).can = s.can := rfl
@[simp] theorem State.setMill_link (s : State) (m : Fin 4) (q : MillSt) : (s.setMill m q).link = s.link := rfl

/-! ### A loop slot replaced -/

@[simp] theorem State.setSlot_pending (s : State) (i : Fin 16) (q : SlotSt) : (s.setSlot i q).pending = s.pending := rfl
@[simp] theorem State.setSlot_now (s : State) (i : Fin 16) (q : SlotSt) : (s.setSlot i q).now = s.now := rfl
@[simp] theorem State.setSlot_free (s : State) (i : Fin 16) (q : SlotSt) : (s.setSlot i q).free = s.free := rfl
@[simp] theorem State.setSlot_sys (s : State) (i : Fin 16) (q : SlotSt) : (s.setSlot i q).sys = s.sys := rfl
@[simp] theorem State.setSlot_regs (s : State) (i : Fin 16) (q : SlotSt) : (s.setSlot i q).regs = s.regs := rfl
@[simp] theorem State.setSlot_half (s : State) (i : Fin 16) (q : SlotSt) : (s.setSlot i q).half = s.half := rfl
@[simp] theorem State.setSlot_latch (s : State) (i : Fin 16) (q : SlotSt) : (s.setSlot i q).latch = s.latch := rfl
@[simp] theorem State.setSlot_mem (s : State) (i : Fin 16) (q : SlotSt) : (s.setSlot i q).mem = s.mem := rfl
@[simp] theorem State.setSlot_ev (s : State) (i : Fin 16) (q : SlotSt) : (s.setSlot i q).ev = s.ev := rfl
@[simp] theorem State.setSlot_lb (s : State) (i : Fin 16) (q : SlotSt) : (s.setSlot i q).lb = s.lb := rfl
@[simp] theorem State.setSlot_ramp (s : State) (i : Fin 16) (q : SlotSt) : (s.setSlot i q).ramp = s.ramp := rfl
@[simp] theorem State.setSlot_lane (s : State) (i : Fin 16) (q : SlotSt) : (s.setSlot i q).lane = s.lane := rfl
@[simp] theorem State.setSlot_pwr (s : State) (i : Fin 16) (q : SlotSt) : (s.setSlot i q).pwr = s.pwr := rfl
@[simp] theorem State.setSlot_flash (s : State) (i : Fin 16) (q : SlotSt) : (s.setSlot i q).flash = s.flash := rfl
@[simp] theorem State.setSlot_fio (s : State) (i : Fin 16) (q : SlotSt) : (s.setSlot i q).fio = s.fio := rfl
@[simp] theorem State.setSlot_lock (s : State) (i : Fin 16) (q : SlotSt) : (s.setSlot i q).lock = s.lock := rfl
@[simp] theorem State.setSlot_board (s : State) (i : Fin 16) (q : SlotSt) : (s.setSlot i q).board = s.board := rfl
@[simp] theorem State.setSlot_sense (s : State) (i : Fin 16) (q : SlotSt) : (s.setSlot i q).sense = s.sense := rfl
@[simp] theorem State.setSlot_door (s : State) (i : Fin 16) (q : SlotSt) : (s.setSlot i q).door = s.door := rfl
@[simp] theorem State.setSlot_group (s : State) (i : Fin 16) (q : SlotSt) : (s.setSlot i q).group = s.group := rfl
@[simp] theorem State.setSlot_mill (s : State) (i : Fin 16) (q : SlotSt) : (s.setSlot i q).mill = s.mill := rfl
@[simp] theorem State.setSlot_can (s : State) (i : Fin 16) (q : SlotSt) : (s.setSlot i q).can = s.can := rfl
@[simp] theorem State.setSlot_link (s : State) (i : Fin 16) (q : SlotSt) : (s.setSlot i q).link = s.link := rfl

/-! ### The field block replaced -/

@[simp] theorem State.setFio_pending (s : State) (f : FioSt) : (s.setFio f).pending = s.pending := rfl
@[simp] theorem State.setFio_now (s : State) (f : FioSt) : (s.setFio f).now = s.now := rfl
@[simp] theorem State.setFio_free (s : State) (f : FioSt) : (s.setFio f).free = s.free := rfl
@[simp] theorem State.setFio_sys (s : State) (f : FioSt) : (s.setFio f).sys = s.sys := rfl
@[simp] theorem State.setFio_regs (s : State) (f : FioSt) : (s.setFio f).regs = s.regs := rfl
@[simp] theorem State.setFio_half (s : State) (f : FioSt) : (s.setFio f).half = s.half := rfl
@[simp] theorem State.setFio_latch (s : State) (f : FioSt) : (s.setFio f).latch = s.latch := rfl
@[simp] theorem State.setFio_mem (s : State) (f : FioSt) : (s.setFio f).mem = s.mem := rfl
@[simp] theorem State.setFio_ev (s : State) (f : FioSt) : (s.setFio f).ev = s.ev := rfl
@[simp] theorem State.setFio_lb (s : State) (f : FioSt) : (s.setFio f).lb = s.lb := rfl
@[simp] theorem State.setFio_ramp (s : State) (f : FioSt) : (s.setFio f).ramp = s.ramp := rfl
@[simp] theorem State.setFio_lane (s : State) (f : FioSt) : (s.setFio f).lane = s.lane := rfl
@[simp] theorem State.setFio_pwr (s : State) (f : FioSt) : (s.setFio f).pwr = s.pwr := rfl
@[simp] theorem State.setFio_flash (s : State) (f : FioSt) : (s.setFio f).flash = s.flash := rfl
@[simp] theorem State.setFio_fio (s : State) (f : FioSt) : (s.setFio f).fio = f := rfl
@[simp] theorem State.setFio_lock (s : State) (f : FioSt) : (s.setFio f).lock = s.lock := rfl
@[simp] theorem State.setFio_board (s : State) (f : FioSt) : (s.setFio f).board = s.board := rfl
@[simp] theorem State.setFio_sense (s : State) (f : FioSt) : (s.setFio f).sense = s.sense := rfl
@[simp] theorem State.setFio_loop (s : State) (f : FioSt) : (s.setFio f).loop = s.loop := rfl
@[simp] theorem State.setFio_door (s : State) (f : FioSt) : (s.setFio f).door = s.door := rfl
@[simp] theorem State.setFio_group (s : State) (f : FioSt) : (s.setFio f).group = s.group := rfl
@[simp] theorem State.setFio_mill (s : State) (f : FioSt) : (s.setFio f).mill = s.mill := rfl
@[simp] theorem State.setFio_can (s : State) (f : FioSt) : (s.setFio f).can = s.can := rfl
@[simp] theorem State.setFio_link (s : State) (f : FioSt) : (s.setFio f).link = s.link := rfl

/-! ### The car link replaced -/

@[simp] theorem State.setLink_pending (s : State) (k : LinkSt) : (s.setLink k).pending = s.pending := rfl
@[simp] theorem State.setLink_now (s : State) (k : LinkSt) : (s.setLink k).now = s.now := rfl
@[simp] theorem State.setLink_free (s : State) (k : LinkSt) : (s.setLink k).free = s.free := rfl
@[simp] theorem State.setLink_sys (s : State) (k : LinkSt) : (s.setLink k).sys = s.sys := rfl
@[simp] theorem State.setLink_regs (s : State) (k : LinkSt) : (s.setLink k).regs = s.regs := rfl
@[simp] theorem State.setLink_half (s : State) (k : LinkSt) : (s.setLink k).half = s.half := rfl
@[simp] theorem State.setLink_latch (s : State) (k : LinkSt) : (s.setLink k).latch = s.latch := rfl
@[simp] theorem State.setLink_mem (s : State) (k : LinkSt) : (s.setLink k).mem = s.mem := rfl
@[simp] theorem State.setLink_ev (s : State) (k : LinkSt) : (s.setLink k).ev = s.ev := rfl
@[simp] theorem State.setLink_lb (s : State) (k : LinkSt) : (s.setLink k).lb = s.lb := rfl
@[simp] theorem State.setLink_ramp (s : State) (k : LinkSt) : (s.setLink k).ramp = s.ramp := rfl
@[simp] theorem State.setLink_lane (s : State) (k : LinkSt) : (s.setLink k).lane = s.lane := rfl
@[simp] theorem State.setLink_pwr (s : State) (k : LinkSt) : (s.setLink k).pwr = s.pwr := rfl
@[simp] theorem State.setLink_flash (s : State) (k : LinkSt) : (s.setLink k).flash = s.flash := rfl
@[simp] theorem State.setLink_fio (s : State) (k : LinkSt) : (s.setLink k).fio = s.fio := rfl
@[simp] theorem State.setLink_lock (s : State) (k : LinkSt) : (s.setLink k).lock = s.lock := rfl
@[simp] theorem State.setLink_board (s : State) (k : LinkSt) : (s.setLink k).board = s.board := rfl
@[simp] theorem State.setLink_sense (s : State) (k : LinkSt) : (s.setLink k).sense = s.sense := rfl
@[simp] theorem State.setLink_loop (s : State) (k : LinkSt) : (s.setLink k).loop = s.loop := rfl
@[simp] theorem State.setLink_door (s : State) (k : LinkSt) : (s.setLink k).door = s.door := rfl
@[simp] theorem State.setLink_group (s : State) (k : LinkSt) : (s.setLink k).group = s.group := rfl
@[simp] theorem State.setLink_mill (s : State) (k : LinkSt) : (s.setLink k).mill = s.mill := rfl
@[simp] theorem State.setLink_can (s : State) (k : LinkSt) : (s.setLink k).can = s.can := rfl
@[simp] theorem State.setLink_link (s : State) (k : LinkSt) : (s.setLink k).link = k := rfl

/-! ### A stored register written -/

@[simp] theorem State.setReg_pending (s : State) (a v : Nat) : (s.setReg a v).pending = s.pending := rfl
@[simp] theorem State.setReg_now (s : State) (a v : Nat) : (s.setReg a v).now = s.now := rfl
@[simp] theorem State.setReg_free (s : State) (a v : Nat) : (s.setReg a v).free = s.free := rfl
@[simp] theorem State.setReg_sys (s : State) (a v : Nat) : (s.setReg a v).sys = s.sys := rfl
@[simp] theorem State.setReg_regs (s : State) (a v : Nat) : (s.setReg a v).regs = aset regDelivered a (word v) s.regs := rfl
@[simp] theorem State.setReg_half (s : State) (a v : Nat) : (s.setReg a v).half = s.half := rfl
@[simp] theorem State.setReg_latch (s : State) (a v : Nat) : (s.setReg a v).latch = s.latch := rfl
@[simp] theorem State.setReg_mem (s : State) (a v : Nat) : (s.setReg a v).mem = s.mem := rfl
@[simp] theorem State.setReg_ev (s : State) (a v : Nat) : (s.setReg a v).ev = s.ev := rfl
@[simp] theorem State.setReg_lb (s : State) (a v : Nat) : (s.setReg a v).lb = s.lb := rfl
@[simp] theorem State.setReg_ramp (s : State) (a v : Nat) : (s.setReg a v).ramp = s.ramp := rfl
@[simp] theorem State.setReg_lane (s : State) (a v : Nat) : (s.setReg a v).lane = s.lane := rfl
@[simp] theorem State.setReg_pwr (s : State) (a v : Nat) : (s.setReg a v).pwr = s.pwr := rfl
@[simp] theorem State.setReg_flash (s : State) (a v : Nat) : (s.setReg a v).flash = s.flash := rfl
@[simp] theorem State.setReg_fio (s : State) (a v : Nat) : (s.setReg a v).fio = s.fio := rfl
@[simp] theorem State.setReg_lock (s : State) (a v : Nat) : (s.setReg a v).lock = s.lock := rfl
@[simp] theorem State.setReg_board (s : State) (a v : Nat) : (s.setReg a v).board = s.board := rfl
@[simp] theorem State.setReg_sense (s : State) (a v : Nat) : (s.setReg a v).sense = s.sense := rfl
@[simp] theorem State.setReg_loop (s : State) (a v : Nat) : (s.setReg a v).loop = s.loop := rfl
@[simp] theorem State.setReg_door (s : State) (a v : Nat) : (s.setReg a v).door = s.door := rfl
@[simp] theorem State.setReg_group (s : State) (a v : Nat) : (s.setReg a v).group = s.group := rfl
@[simp] theorem State.setReg_mill (s : State) (a v : Nat) : (s.setReg a v).mill = s.mill := rfl
@[simp] theorem State.setReg_can (s : State) (a v : Nat) : (s.setReg a v).can = s.can := rfl
@[simp] theorem State.setReg_link (s : State) (a v : Nat) : (s.setReg a v).link = s.link := rfl

/-! ### A field of a stored register written -/

@[simp] theorem State.setFld_pending (s : State) (a lo len v : Nat) : (s.setFld a lo len v).pending = s.pending := rfl
@[simp] theorem State.setFld_now (s : State) (a lo len v : Nat) : (s.setFld a lo len v).now = s.now := rfl
@[simp] theorem State.setFld_free (s : State) (a lo len v : Nat) : (s.setFld a lo len v).free = s.free := rfl
@[simp] theorem State.setFld_sys (s : State) (a lo len v : Nat) : (s.setFld a lo len v).sys = s.sys := rfl
@[simp] theorem State.setFld_half (s : State) (a lo len v : Nat) : (s.setFld a lo len v).half = s.half := rfl
@[simp] theorem State.setFld_latch (s : State) (a lo len v : Nat) : (s.setFld a lo len v).latch = s.latch := rfl
@[simp] theorem State.setFld_mem (s : State) (a lo len v : Nat) : (s.setFld a lo len v).mem = s.mem := rfl
@[simp] theorem State.setFld_ev (s : State) (a lo len v : Nat) : (s.setFld a lo len v).ev = s.ev := rfl
@[simp] theorem State.setFld_lb (s : State) (a lo len v : Nat) : (s.setFld a lo len v).lb = s.lb := rfl
@[simp] theorem State.setFld_ramp (s : State) (a lo len v : Nat) : (s.setFld a lo len v).ramp = s.ramp := rfl
@[simp] theorem State.setFld_lane (s : State) (a lo len v : Nat) : (s.setFld a lo len v).lane = s.lane := rfl
@[simp] theorem State.setFld_pwr (s : State) (a lo len v : Nat) : (s.setFld a lo len v).pwr = s.pwr := rfl
@[simp] theorem State.setFld_flash (s : State) (a lo len v : Nat) : (s.setFld a lo len v).flash = s.flash := rfl
@[simp] theorem State.setFld_fio (s : State) (a lo len v : Nat) : (s.setFld a lo len v).fio = s.fio := rfl
@[simp] theorem State.setFld_lock (s : State) (a lo len v : Nat) : (s.setFld a lo len v).lock = s.lock := rfl
@[simp] theorem State.setFld_board (s : State) (a lo len v : Nat) : (s.setFld a lo len v).board = s.board := rfl
@[simp] theorem State.setFld_sense (s : State) (a lo len v : Nat) : (s.setFld a lo len v).sense = s.sense := rfl
@[simp] theorem State.setFld_loop (s : State) (a lo len v : Nat) : (s.setFld a lo len v).loop = s.loop := rfl
@[simp] theorem State.setFld_door (s : State) (a lo len v : Nat) : (s.setFld a lo len v).door = s.door := rfl
@[simp] theorem State.setFld_group (s : State) (a lo len v : Nat) : (s.setFld a lo len v).group = s.group := rfl
@[simp] theorem State.setFld_mill (s : State) (a lo len v : Nat) : (s.setFld a lo len v).mill = s.mill := rfl
@[simp] theorem State.setFld_can (s : State) (a lo len v : Nat) : (s.setFld a lo len v).can = s.can := rfl
@[simp] theorem State.setFld_link (s : State) (a lo len v : Nat) : (s.setFld a lo len v).link = s.link := rfl

/-! ### A byte of memory written -/

@[simp] theorem State.putCell_pending (s : State) (a : Nat) (b : Byte) : (s.putCell a b).pending = s.pending := rfl
@[simp] theorem State.putCell_now (s : State) (a : Nat) (b : Byte) : (s.putCell a b).now = s.now := rfl
@[simp] theorem State.putCell_free (s : State) (a : Nat) (b : Byte) : (s.putCell a b).free = s.free := rfl
@[simp] theorem State.putCell_sys (s : State) (a : Nat) (b : Byte) : (s.putCell a b).sys = s.sys := rfl
@[simp] theorem State.putCell_regs (s : State) (a : Nat) (b : Byte) : (s.putCell a b).regs = s.regs := rfl
@[simp] theorem State.putCell_half (s : State) (a : Nat) (b : Byte) : (s.putCell a b).half = s.half := rfl
@[simp] theorem State.putCell_latch (s : State) (a : Nat) (b : Byte) : (s.putCell a b).latch = s.latch := rfl
@[simp] theorem State.putCell_ev (s : State) (a : Nat) (b : Byte) : (s.putCell a b).ev = s.ev := rfl
@[simp] theorem State.putCell_lb (s : State) (a : Nat) (b : Byte) : (s.putCell a b).lb = s.lb := rfl
@[simp] theorem State.putCell_ramp (s : State) (a : Nat) (b : Byte) : (s.putCell a b).ramp = s.ramp := rfl
@[simp] theorem State.putCell_lane (s : State) (a : Nat) (b : Byte) : (s.putCell a b).lane = s.lane := rfl
@[simp] theorem State.putCell_pwr (s : State) (a : Nat) (b : Byte) : (s.putCell a b).pwr = s.pwr := rfl
@[simp] theorem State.putCell_flash (s : State) (a : Nat) (b : Byte) : (s.putCell a b).flash = s.flash := rfl
@[simp] theorem State.putCell_fio (s : State) (a : Nat) (b : Byte) : (s.putCell a b).fio = s.fio := rfl
@[simp] theorem State.putCell_lock (s : State) (a : Nat) (b : Byte) : (s.putCell a b).lock = s.lock := rfl
@[simp] theorem State.putCell_board (s : State) (a : Nat) (b : Byte) : (s.putCell a b).board = s.board := rfl
@[simp] theorem State.putCell_sense (s : State) (a : Nat) (b : Byte) : (s.putCell a b).sense = s.sense := rfl
@[simp] theorem State.putCell_loop (s : State) (a : Nat) (b : Byte) : (s.putCell a b).loop = s.loop := rfl
@[simp] theorem State.putCell_door (s : State) (a : Nat) (b : Byte) : (s.putCell a b).door = s.door := rfl
@[simp] theorem State.putCell_group (s : State) (a : Nat) (b : Byte) : (s.putCell a b).group = s.group := rfl
@[simp] theorem State.putCell_mill (s : State) (a : Nat) (b : Byte) : (s.putCell a b).mill = s.mill := rfl
@[simp] theorem State.putCell_can (s : State) (a : Nat) (b : Byte) : (s.putCell a b).can = s.can := rfl
@[simp] theorem State.putCell_link (s : State) (a : Nat) (b : Byte) : (s.putCell a b).link = s.link := rfl

/-! ### The symbol code renewed -/

@[simp] theorem State.eccClear_pending (s : State) (a n : Nat) : (s.eccClear a n).pending = s.pending := rfl
@[simp] theorem State.eccClear_now (s : State) (a n : Nat) : (s.eccClear a n).now = s.now := rfl
@[simp] theorem State.eccClear_free (s : State) (a n : Nat) : (s.eccClear a n).free = s.free := rfl
@[simp] theorem State.eccClear_sys (s : State) (a n : Nat) : (s.eccClear a n).sys = s.sys := rfl
@[simp] theorem State.eccClear_regs (s : State) (a n : Nat) : (s.eccClear a n).regs = s.regs := rfl
@[simp] theorem State.eccClear_half (s : State) (a n : Nat) : (s.eccClear a n).half = s.half := rfl
@[simp] theorem State.eccClear_latch (s : State) (a n : Nat) : (s.eccClear a n).latch = s.latch := rfl
@[simp] theorem State.eccClear_ev (s : State) (a n : Nat) : (s.eccClear a n).ev = s.ev := rfl
@[simp] theorem State.eccClear_lb (s : State) (a n : Nat) : (s.eccClear a n).lb = s.lb := rfl
@[simp] theorem State.eccClear_ramp (s : State) (a n : Nat) : (s.eccClear a n).ramp = s.ramp := rfl
@[simp] theorem State.eccClear_lane (s : State) (a n : Nat) : (s.eccClear a n).lane = s.lane := rfl
@[simp] theorem State.eccClear_pwr (s : State) (a n : Nat) : (s.eccClear a n).pwr = s.pwr := rfl
@[simp] theorem State.eccClear_flash (s : State) (a n : Nat) : (s.eccClear a n).flash = s.flash := rfl
@[simp] theorem State.eccClear_fio (s : State) (a n : Nat) : (s.eccClear a n).fio = s.fio := rfl
@[simp] theorem State.eccClear_lock (s : State) (a n : Nat) : (s.eccClear a n).lock = s.lock := rfl
@[simp] theorem State.eccClear_board (s : State) (a n : Nat) : (s.eccClear a n).board = s.board := rfl
@[simp] theorem State.eccClear_sense (s : State) (a n : Nat) : (s.eccClear a n).sense = s.sense := rfl
@[simp] theorem State.eccClear_loop (s : State) (a n : Nat) : (s.eccClear a n).loop = s.loop := rfl
@[simp] theorem State.eccClear_door (s : State) (a n : Nat) : (s.eccClear a n).door = s.door := rfl
@[simp] theorem State.eccClear_group (s : State) (a n : Nat) : (s.eccClear a n).group = s.group := rfl
@[simp] theorem State.eccClear_mill (s : State) (a n : Nat) : (s.eccClear a n).mill = s.mill := rfl
@[simp] theorem State.eccClear_can (s : State) (a n : Nat) : (s.eccClear a n).can = s.can := rfl
@[simp] theorem State.eccClear_link (s : State) (a n : Nat) : (s.eccClear a n).link = s.link := rfl

/-! ### A word marked in MEM_UNCORR -/

@[simp] theorem State.memUncorr_pending (s : State) (w : Nat) : (s.memUncorr w).pending = s.pending := rfl
@[simp] theorem State.memUncorr_now (s : State) (w : Nat) : (s.memUncorr w).now = s.now := rfl
@[simp] theorem State.memUncorr_free (s : State) (w : Nat) : (s.memUncorr w).free = s.free := rfl
@[simp] theorem State.memUncorr_sys (s : State) (w : Nat) : (s.memUncorr w).sys = s.sys := rfl
@[simp] theorem State.memUncorr_regs (s : State) (w : Nat) : (s.memUncorr w).regs = s.regs := rfl
@[simp] theorem State.memUncorr_half (s : State) (w : Nat) : (s.memUncorr w).half = s.half := rfl
@[simp] theorem State.memUncorr_latch (s : State) (w : Nat) : (s.memUncorr w).latch = s.latch := rfl
@[simp] theorem State.memUncorr_ev (s : State) (w : Nat) : (s.memUncorr w).ev = s.ev := rfl
@[simp] theorem State.memUncorr_lb (s : State) (w : Nat) : (s.memUncorr w).lb = s.lb := rfl
@[simp] theorem State.memUncorr_ramp (s : State) (w : Nat) : (s.memUncorr w).ramp = s.ramp := rfl
@[simp] theorem State.memUncorr_lane (s : State) (w : Nat) : (s.memUncorr w).lane = s.lane := rfl
@[simp] theorem State.memUncorr_pwr (s : State) (w : Nat) : (s.memUncorr w).pwr = s.pwr := rfl
@[simp] theorem State.memUncorr_flash (s : State) (w : Nat) : (s.memUncorr w).flash = s.flash := rfl
@[simp] theorem State.memUncorr_fio (s : State) (w : Nat) : (s.memUncorr w).fio = s.fio := rfl
@[simp] theorem State.memUncorr_lock (s : State) (w : Nat) : (s.memUncorr w).lock = s.lock := rfl
@[simp] theorem State.memUncorr_board (s : State) (w : Nat) : (s.memUncorr w).board = s.board := rfl
@[simp] theorem State.memUncorr_sense (s : State) (w : Nat) : (s.memUncorr w).sense = s.sense := rfl
@[simp] theorem State.memUncorr_loop (s : State) (w : Nat) : (s.memUncorr w).loop = s.loop := rfl
@[simp] theorem State.memUncorr_door (s : State) (w : Nat) : (s.memUncorr w).door = s.door := rfl
@[simp] theorem State.memUncorr_group (s : State) (w : Nat) : (s.memUncorr w).group = s.group := rfl
@[simp] theorem State.memUncorr_mill (s : State) (w : Nat) : (s.memUncorr w).mill = s.mill := rfl
@[simp] theorem State.memUncorr_can (s : State) (w : Nat) : (s.memUncorr w).can = s.can := rfl
@[simp] theorem State.memUncorr_link (s : State) (w : Nat) : (s.memUncorr w).link = s.link := rfl

/-! ### Time passed -/

@[simp] theorem State.advance_pending (s : State) (dt : Nat) : (s.advance dt).pending = s.pending := rfl
@[simp] theorem State.advance_now (s : State) (dt : Nat) : (s.advance dt).now = s.later dt := rfl
/-- Outside SLEEP the postmark advances by the time that passes. -/
theorem State.later_awake {s : State} (dt : Nat) (h : s.pwr.mode ≠ .sleep) : s.later dt = s.now + dt := by
  unfold State.later
  rw [if_neg h]
@[simp] theorem State.advance_free (s : State) (dt : Nat) : (s.advance dt).free = s.free := rfl
@[simp] theorem State.advance_sys (s : State) (dt : Nat) : (s.advance dt).sys = s.sys := rfl
@[simp] theorem State.advance_regs (s : State) (dt : Nat) : (s.advance dt).regs = s.regs := rfl
@[simp] theorem State.advance_half (s : State) (dt : Nat) : (s.advance dt).half = s.half := rfl
@[simp] theorem State.advance_latch (s : State) (dt : Nat) : (s.advance dt).latch = s.latch := rfl
@[simp] theorem State.advance_mem (s : State) (dt : Nat) : (s.advance dt).mem = s.mem := rfl
@[simp] theorem State.advance_ev (s : State) (dt : Nat) : (s.advance dt).ev = s.ev := rfl
@[simp] theorem State.advance_ramp (s : State) (dt : Nat) : (s.advance dt).ramp = s.ramp := rfl
@[simp] theorem State.advance_lane (s : State) (dt : Nat) : (s.advance dt).lane = s.lane := rfl
@[simp] theorem State.advance_pwr (s : State) (dt : Nat) : (s.advance dt).pwr = s.pwr := rfl
@[simp] theorem State.advance_flash (s : State) (dt : Nat) : (s.advance dt).flash = s.flash := rfl
@[simp] theorem State.advance_fio (s : State) (dt : Nat) : (s.advance dt).fio = s.fio := rfl
@[simp] theorem State.advance_lock (s : State) (dt : Nat) : (s.advance dt).lock = s.lock := rfl
@[simp] theorem State.advance_board (s : State) (dt : Nat) : (s.advance dt).board = s.board := rfl
@[simp] theorem State.advance_sense (s : State) (dt : Nat) : (s.advance dt).sense = s.sense := rfl
@[simp] theorem State.advance_loop (s : State) (dt : Nat) : (s.advance dt).loop = s.loop := rfl
@[simp] theorem State.advance_door (s : State) (dt : Nat) : (s.advance dt).door = s.door := rfl
@[simp] theorem State.advance_group (s : State) (dt : Nat) : (s.advance dt).group = s.group := rfl
@[simp] theorem State.advance_mill (s : State) (dt : Nat) : (s.advance dt).mill = s.mill := rfl
@[simp] theorem State.advance_can (s : State) (dt : Nat) : (s.advance dt).can = s.can := rfl
@[simp] theorem State.advance_link (s : State) (dt : Nat) : (s.advance dt).link = s.link := rfl

/-! ### An event posted -/

@[simp] theorem State.post_pending (s : State) (code d : Nat) : (s.post code d).pending = s.pending := rfl
@[simp] theorem State.post_now (s : State) (code d : Nat) : (s.post code d).now = s.now := rfl
@[simp] theorem State.post_free (s : State) (code d : Nat) : (s.post code d).free = s.free := rfl
@[simp] theorem State.post_sys (s : State) (code d : Nat) : (s.post code d).sys = s.sys := rfl
@[simp] theorem State.post_regs (s : State) (code d : Nat) : (s.post code d).regs = s.regs := rfl
@[simp] theorem State.post_half (s : State) (code d : Nat) : (s.post code d).half = s.half := rfl
@[simp] theorem State.post_latch (s : State) (code d : Nat) : (s.post code d).latch = s.latch := rfl
@[simp] theorem State.post_mem (s : State) (code d : Nat) : (s.post code d).mem = s.mem := rfl
@[simp] theorem State.post_ev (s : State) (code d : Nat) : (s.post code d).ev = s.ev.post s.now code (word d) := rfl
@[simp] theorem State.post_lb (s : State) (code d : Nat) : (s.post code d).lb = s.lb := rfl
@[simp] theorem State.post_ramp (s : State) (code d : Nat) : (s.post code d).ramp = s.ramp := rfl
@[simp] theorem State.post_lane (s : State) (code d : Nat) : (s.post code d).lane = s.lane := rfl
@[simp] theorem State.post_pwr (s : State) (code d : Nat) : (s.post code d).pwr = s.pwr := rfl
@[simp] theorem State.post_flash (s : State) (code d : Nat) : (s.post code d).flash = s.flash := rfl
@[simp] theorem State.post_fio (s : State) (code d : Nat) : (s.post code d).fio = s.fio := rfl
@[simp] theorem State.post_lock (s : State) (code d : Nat) : (s.post code d).lock = s.lock := rfl
@[simp] theorem State.post_board (s : State) (code d : Nat) : (s.post code d).board = s.board := rfl
@[simp] theorem State.post_sense (s : State) (code d : Nat) : (s.post code d).sense = s.sense := rfl
@[simp] theorem State.post_door (s : State) (code d : Nat) : (s.post code d).door = s.door := rfl
@[simp] theorem State.post_group (s : State) (code d : Nat) : (s.post code d).group = s.group := rfl
@[simp] theorem State.post_mill (s : State) (code d : Nat) : (s.post code d).mill = s.mill := rfl
@[simp] theorem State.post_can (s : State) (code d : Nat) : (s.post code d).can = s.can := rfl
@[simp] theorem State.post_link (s : State) (code d : Nat) : (s.post code d).link = s.link := rfl

/-! ### An uncorrectable word found -/

@[simp] theorem State.eccFound_pending (s : State) (w : Nat) : (s.eccFound w).pending = s.pending := rfl
@[simp] theorem State.eccFound_now (s : State) (w : Nat) : (s.eccFound w).now = s.now := rfl
@[simp] theorem State.eccFound_free (s : State) (w : Nat) : (s.eccFound w).free = s.free := rfl
@[simp] theorem State.eccFound_regs (s : State) (w : Nat) : (s.eccFound w).regs = s.regs := rfl
@[simp] theorem State.eccFound_half (s : State) (w : Nat) : (s.eccFound w).half = s.half := rfl
@[simp] theorem State.eccFound_latch (s : State) (w : Nat) : (s.eccFound w).latch = s.latch := rfl
@[simp] theorem State.eccFound_mem (s : State) (w : Nat) : (s.eccFound w).mem = s.mem := rfl
@[simp] theorem State.eccFound_lb (s : State) (w : Nat) : (s.eccFound w).lb = s.lb := rfl
@[simp] theorem State.eccFound_ramp (s : State) (w : Nat) : (s.eccFound w).ramp = s.ramp := rfl
@[simp] theorem State.eccFound_lane (s : State) (w : Nat) : (s.eccFound w).lane = s.lane := rfl
@[simp] theorem State.eccFound_pwr (s : State) (w : Nat) : (s.eccFound w).pwr = s.pwr := rfl
@[simp] theorem State.eccFound_flash (s : State) (w : Nat) : (s.eccFound w).flash = s.flash := rfl
@[simp] theorem State.eccFound_fio (s : State) (w : Nat) : (s.eccFound w).fio = s.fio := rfl
@[simp] theorem State.eccFound_lock (s : State) (w : Nat) : (s.eccFound w).lock = s.lock := rfl
@[simp] theorem State.eccFound_board (s : State) (w : Nat) : (s.eccFound w).board = s.board := rfl
@[simp] theorem State.eccFound_sense (s : State) (w : Nat) : (s.eccFound w).sense = s.sense := rfl
@[simp] theorem State.eccFound_door (s : State) (w : Nat) : (s.eccFound w).door = s.door := rfl
@[simp] theorem State.eccFound_group (s : State) (w : Nat) : (s.eccFound w).group = s.group := rfl
@[simp] theorem State.eccFound_mill (s : State) (w : Nat) : (s.eccFound w).mill = s.mill := rfl
@[simp] theorem State.eccFound_can (s : State) (w : Nat) : (s.eccFound w).can = s.can := rfl
@[simp] theorem State.eccFound_link (s : State) (w : Nat) : (s.eccFound w).link = s.link := rfl

/-! ### A word corrected -/

@[simp] theorem State.eccCorrect_pending (s : State) (w : Nat) : (s.eccCorrect w).pending = s.pending := rfl
@[simp] theorem State.eccCorrect_now (s : State) (w : Nat) : (s.eccCorrect w).now = s.now := rfl
@[simp] theorem State.eccCorrect_free (s : State) (w : Nat) : (s.eccCorrect w).free = s.free := rfl
@[simp] theorem State.eccCorrect_regs (s : State) (w : Nat) : (s.eccCorrect w).regs = s.regs := rfl
@[simp] theorem State.eccCorrect_half (s : State) (w : Nat) : (s.eccCorrect w).half = s.half := rfl
@[simp] theorem State.eccCorrect_latch (s : State) (w : Nat) : (s.eccCorrect w).latch = s.latch := rfl
@[simp] theorem State.eccCorrect_lb (s : State) (w : Nat) : (s.eccCorrect w).lb = s.lb := rfl
@[simp] theorem State.eccCorrect_ramp (s : State) (w : Nat) : (s.eccCorrect w).ramp = s.ramp := rfl
@[simp] theorem State.eccCorrect_lane (s : State) (w : Nat) : (s.eccCorrect w).lane = s.lane := rfl
@[simp] theorem State.eccCorrect_pwr (s : State) (w : Nat) : (s.eccCorrect w).pwr = s.pwr := rfl
@[simp] theorem State.eccCorrect_flash (s : State) (w : Nat) : (s.eccCorrect w).flash = s.flash := rfl
@[simp] theorem State.eccCorrect_fio (s : State) (w : Nat) : (s.eccCorrect w).fio = s.fio := rfl
@[simp] theorem State.eccCorrect_lock (s : State) (w : Nat) : (s.eccCorrect w).lock = s.lock := rfl
@[simp] theorem State.eccCorrect_board (s : State) (w : Nat) : (s.eccCorrect w).board = s.board := rfl
@[simp] theorem State.eccCorrect_sense (s : State) (w : Nat) : (s.eccCorrect w).sense = s.sense := rfl
@[simp] theorem State.eccCorrect_door (s : State) (w : Nat) : (s.eccCorrect w).door = s.door := rfl
@[simp] theorem State.eccCorrect_group (s : State) (w : Nat) : (s.eccCorrect w).group = s.group := rfl
@[simp] theorem State.eccCorrect_mill (s : State) (w : Nat) : (s.eccCorrect w).mill = s.mill := rfl
@[simp] theorem State.eccCorrect_can (s : State) (w : Nat) : (s.eccCorrect w).can = s.can := rfl
@[simp] theorem State.eccCorrect_link (s : State) (w : Nat) : (s.eccCorrect w).link = s.link := rfl

/-! ### A dead letter counted -/

@[simp] theorem State.deadLetter_pending (s : State) (p : Fin 6) (st : Nat) : (s.deadLetter p st).pending = s.pending := rfl
@[simp] theorem State.deadLetter_now (s : State) (p : Fin 6) (st : Nat) : (s.deadLetter p st).now = s.now := rfl
@[simp] theorem State.deadLetter_free (s : State) (p : Fin 6) (st : Nat) : (s.deadLetter p st).free = s.free := rfl
@[simp] theorem State.deadLetter_sys (s : State) (p : Fin 6) (st : Nat) : (s.deadLetter p st).sys = s.sys := rfl
@[simp] theorem State.deadLetter_regs (s : State) (p : Fin 6) (st : Nat) : (s.deadLetter p st).regs = s.regs := rfl
@[simp] theorem State.deadLetter_half (s : State) (p : Fin 6) (st : Nat) : (s.deadLetter p st).half = s.half := rfl
@[simp] theorem State.deadLetter_latch (s : State) (p : Fin 6) (st : Nat) : (s.deadLetter p st).latch = s.latch := rfl
@[simp] theorem State.deadLetter_mem (s : State) (p : Fin 6) (st : Nat) : (s.deadLetter p st).mem = s.mem := rfl
@[simp] theorem State.deadLetter_ramp (s : State) (p : Fin 6) (st : Nat) : (s.deadLetter p st).ramp = s.ramp := rfl
@[simp] theorem State.deadLetter_lane (s : State) (p : Fin 6) (st : Nat) : (s.deadLetter p st).lane = s.lane := rfl
@[simp] theorem State.deadLetter_pwr (s : State) (p : Fin 6) (st : Nat) : (s.deadLetter p st).pwr = s.pwr := rfl
@[simp] theorem State.deadLetter_flash (s : State) (p : Fin 6) (st : Nat) : (s.deadLetter p st).flash = s.flash := rfl
@[simp] theorem State.deadLetter_fio (s : State) (p : Fin 6) (st : Nat) : (s.deadLetter p st).fio = s.fio := rfl
@[simp] theorem State.deadLetter_lock (s : State) (p : Fin 6) (st : Nat) : (s.deadLetter p st).lock = s.lock := rfl
@[simp] theorem State.deadLetter_board (s : State) (p : Fin 6) (st : Nat) : (s.deadLetter p st).board = s.board := rfl
@[simp] theorem State.deadLetter_sense (s : State) (p : Fin 6) (st : Nat) : (s.deadLetter p st).sense = s.sense := rfl
@[simp] theorem State.deadLetter_door (s : State) (p : Fin 6) (st : Nat) : (s.deadLetter p st).door = s.door := rfl
@[simp] theorem State.deadLetter_group (s : State) (p : Fin 6) (st : Nat) : (s.deadLetter p st).group = s.group := rfl
@[simp] theorem State.deadLetter_mill (s : State) (p : Fin 6) (st : Nat) : (s.deadLetter p st).mill = s.mill := rfl
@[simp] theorem State.deadLetter_can (s : State) (p : Fin 6) (st : Nat) : (s.deadLetter p st).can = s.can := rfl
@[simp] theorem State.deadLetter_link (s : State) (p : Fin 6) (st : Nat) : (s.deadLetter p st).link = s.link := rfl

/-! ### A wake source noted -/

@[simp] theorem State.noteWake_pending (s : State) (k : Nat) : (s.noteWake k).pending = s.pending := by
  unfold State.noteWake; split <;> rfl
@[simp] theorem State.noteWake_now (s : State) (k : Nat) : (s.noteWake k).now = s.now := by
  unfold State.noteWake; split <;> rfl
@[simp] theorem State.noteWake_free (s : State) (k : Nat) : (s.noteWake k).free = s.free := by
  unfold State.noteWake; split <;> rfl
@[simp] theorem State.noteWake_sys (s : State) (k : Nat) : (s.noteWake k).sys = s.sys := by
  unfold State.noteWake; split <;> rfl
@[simp] theorem State.noteWake_regs (s : State) (k : Nat) : (s.noteWake k).regs = s.regs := by
  unfold State.noteWake; split <;> rfl
@[simp] theorem State.noteWake_half (s : State) (k : Nat) : (s.noteWake k).half = s.half := by
  unfold State.noteWake; split <;> rfl
@[simp] theorem State.noteWake_latch (s : State) (k : Nat) : (s.noteWake k).latch = s.latch := by
  unfold State.noteWake; split <;> rfl
@[simp] theorem State.noteWake_mem (s : State) (k : Nat) : (s.noteWake k).mem = s.mem := by
  unfold State.noteWake; split <;> rfl
@[simp] theorem State.noteWake_ev (s : State) (k : Nat) : (s.noteWake k).ev = s.ev := by
  unfold State.noteWake; split <;> rfl
@[simp] theorem State.noteWake_lb (s : State) (k : Nat) : (s.noteWake k).lb = s.lb := by
  unfold State.noteWake; split <;> rfl
@[simp] theorem State.noteWake_ramp (s : State) (k : Nat) : (s.noteWake k).ramp = s.ramp := by
  unfold State.noteWake; split <;> rfl
@[simp] theorem State.noteWake_lane (s : State) (k : Nat) : (s.noteWake k).lane = s.lane := by
  unfold State.noteWake; split <;> rfl
@[simp] theorem State.noteWake_flash (s : State) (k : Nat) : (s.noteWake k).flash = s.flash := by
  unfold State.noteWake; split <;> rfl
@[simp] theorem State.noteWake_fio (s : State) (k : Nat) : (s.noteWake k).fio = s.fio := by
  unfold State.noteWake; split <;> rfl
@[simp] theorem State.noteWake_lock (s : State) (k : Nat) : (s.noteWake k).lock = s.lock := by
  unfold State.noteWake; split <;> rfl
@[simp] theorem State.noteWake_board (s : State) (k : Nat) : (s.noteWake k).board = s.board := by
  unfold State.noteWake; split <;> rfl
@[simp] theorem State.noteWake_sense (s : State) (k : Nat) : (s.noteWake k).sense = s.sense := by
  unfold State.noteWake; split <;> rfl
@[simp] theorem State.noteWake_door (s : State) (k : Nat) : (s.noteWake k).door = s.door := by
  unfold State.noteWake; split <;> rfl
@[simp] theorem State.noteWake_group (s : State) (k : Nat) : (s.noteWake k).group = s.group := by
  unfold State.noteWake; split <;> rfl
@[simp] theorem State.noteWake_mill (s : State) (k : Nat) : (s.noteWake k).mill = s.mill := by
  unfold State.noteWake; split <;> rfl
@[simp] theorem State.noteWake_can (s : State) (k : Nat) : (s.noteWake k).can = s.can := by
  unfold State.noteWake; split <;> rfl
@[simp] theorem State.noteWake_link (s : State) (k : Nat) : (s.noteWake k).link = s.link := by
  unfold State.noteWake; split <;> rfl
@[simp] theorem State.noteWake_loop (s : State) (k : Nat) : (s.noteWake k).loop = s.loop := by
  unfold State.noteWake; split <;> rfl
@[simp] theorem State.noteIf_pending (s : State) (b : Bool) (k : Nat) : (s.noteIf b k).pending = s.pending := by
  unfold State.noteIf; split <;> simp
@[simp] theorem State.noteIf_now (s : State) (b : Bool) (k : Nat) : (s.noteIf b k).now = s.now := by
  unfold State.noteIf; split <;> simp
@[simp] theorem State.noteIf_free (s : State) (b : Bool) (k : Nat) : (s.noteIf b k).free = s.free := by
  unfold State.noteIf; split <;> simp
@[simp] theorem State.noteIf_sys (s : State) (b : Bool) (k : Nat) : (s.noteIf b k).sys = s.sys := by
  unfold State.noteIf; split <;> simp
@[simp] theorem State.noteIf_regs (s : State) (b : Bool) (k : Nat) : (s.noteIf b k).regs = s.regs := by
  unfold State.noteIf; split <;> simp
@[simp] theorem State.noteIf_half (s : State) (b : Bool) (k : Nat) : (s.noteIf b k).half = s.half := by
  unfold State.noteIf; split <;> simp
@[simp] theorem State.noteIf_latch (s : State) (b : Bool) (k : Nat) : (s.noteIf b k).latch = s.latch := by
  unfold State.noteIf; split <;> simp
@[simp] theorem State.noteIf_mem (s : State) (b : Bool) (k : Nat) : (s.noteIf b k).mem = s.mem := by
  unfold State.noteIf; split <;> simp
@[simp] theorem State.noteIf_ev (s : State) (b : Bool) (k : Nat) : (s.noteIf b k).ev = s.ev := by
  unfold State.noteIf; split <;> simp
@[simp] theorem State.noteIf_lb (s : State) (b : Bool) (k : Nat) : (s.noteIf b k).lb = s.lb := by
  unfold State.noteIf; split <;> simp
@[simp] theorem State.noteIf_ramp (s : State) (b : Bool) (k : Nat) : (s.noteIf b k).ramp = s.ramp := by
  unfold State.noteIf; split <;> simp
@[simp] theorem State.noteIf_lane (s : State) (b : Bool) (k : Nat) : (s.noteIf b k).lane = s.lane := by
  unfold State.noteIf; split <;> simp
@[simp] theorem State.noteIf_flash (s : State) (b : Bool) (k : Nat) : (s.noteIf b k).flash = s.flash := by
  unfold State.noteIf; split <;> simp
@[simp] theorem State.noteIf_fio (s : State) (b : Bool) (k : Nat) : (s.noteIf b k).fio = s.fio := by
  unfold State.noteIf; split <;> simp
@[simp] theorem State.noteIf_lock (s : State) (b : Bool) (k : Nat) : (s.noteIf b k).lock = s.lock := by
  unfold State.noteIf; split <;> simp
@[simp] theorem State.noteIf_board (s : State) (b : Bool) (k : Nat) : (s.noteIf b k).board = s.board := by
  unfold State.noteIf; split <;> simp
@[simp] theorem State.noteIf_sense (s : State) (b : Bool) (k : Nat) : (s.noteIf b k).sense = s.sense := by
  unfold State.noteIf; split <;> simp
@[simp] theorem State.noteIf_door (s : State) (b : Bool) (k : Nat) : (s.noteIf b k).door = s.door := by
  unfold State.noteIf; split <;> simp
@[simp] theorem State.noteIf_group (s : State) (b : Bool) (k : Nat) : (s.noteIf b k).group = s.group := by
  unfold State.noteIf; split <;> simp
@[simp] theorem State.noteIf_mill (s : State) (b : Bool) (k : Nat) : (s.noteIf b k).mill = s.mill := by
  unfold State.noteIf; split <;> simp
@[simp] theorem State.noteIf_can (s : State) (b : Bool) (k : Nat) : (s.noteIf b k).can = s.can := by
  unfold State.noteIf; split <;> simp
@[simp] theorem State.noteIf_link (s : State) (b : Bool) (k : Nat) : (s.noteIf b k).link = s.link := by
  unfold State.noteIf; split <;> simp
@[simp] theorem State.noteIf_loop (s : State) (b : Bool) (k : Nat) : (s.noteIf b k).loop = s.loop := by
  unfold State.noteIf; split <;> simp

end Sys2Proof.Machine
end

