-- ==== Sys2Proof/WellFormed.lean ====
section
/-! DEFINITION. When the operands of a command are values that its letter, frame or signal can carry: field widths, counts and
lengths. No meaning depends on it; it says which terms of Instr stand for something that can come from outside. -/
namespace Sys2Proof

/-- A letter's header: the tag of a letter that is not of class 3 is 0 (R55). -/
def Head.wf (h : Head) : Bool := h.cls = 3 || h.tag = 0

/-- A letter: its header, and at most 4,096 bytes with header and tag (R55, R72). -/
def Letter.wf (l : Letter) : Bool :=
  l.toHead.wf && decide (16 + l.payload.length + (if l.cls = 3 then 8 else 0) ≤ 4096)

/-- Samples in the order in which they are taken, oldest first. -/
def samplesWf : List EncSample → Bool
  | x :: y :: l => decide (y.age < x.age) && samplesWf (y :: l)
  | _ => true

/-- An encoder channel at a tick instant. -/
def EncIn.wf (x : EncIn) : Bool := samplesWf x.samples

/-- What a tick instant brings (R192). -/
def TickIn.wf (x : TickIn) : Bool := x.enc.toList.all EncIn.wf

/-- A tape frame: at most 48 data bits and 3 status bits (R203). -/
def SsiIn.wf (x : SsiIn) : Bool := decide (x.data < 2 ^ 48 ∧ x.status < 8)

/-- Field diagnostics as the field link carries them: 16-bit currents (R450). -/
def DiagIn.wf (x : DiagIn) : Bool :=
  x.amps.toList.all (fun n => decide (n < 2 ^ 16)) && decide (x.groupA < 2 ^ 16 ∧ x.groupB < 2 ^ 16)

/-- Tap voltages of 16 bits (R325). -/
def EvalIn.wf (x : EvalIn) : Bool := x.taps.toList.all fun n => decide (n < 2 ^ 16)

/-- A current sample's samples of ENC0. -/
def CurIn.wf (x : CurIn) : Bool := samplesWf x.enc

/-- A door modulator update: VDOOR in 16 bits of 10 mV (DOOR_SUPPLY). -/
def DoorIn.wf (x : DoorIn) : Bool := decide (x.vdoor < 655360) && samplesWf x.enc

/-- The own status slot's fields (R271, R272). -/
def CarIn.wf (x : CarIn) : Bool :=
  decide (x.state < 256 ∧ x.landing < 256 ∧ x.dir < 256 ∧ x.pos < 2 ^ 24 ∧ x.load < 256)

/-- A bell stroke's fields (R268). -/
def StrokeIn.wf (x : StrokeIn) : Bool :=
  decide (1 ≤ x.sender ∧ x.sender ≤ 63 ∧ x.round < 2 ^ 32 ∧ x.tRound < 2 ^ 16 ∧ x.tBell < 2 ^ 16 ∧ x.tSlot < 2 ^ 16 ∧
    x.slots < 256 ∧ x.time < 2 ^ 64)

/-- A CAN frame (R459): identifier, length code and data fit its format. -/
def CanFrame.wf (f : CanFrame) : Bool :=
  decide (f.id < 2 ^ 29) && (f.xtd || decide (f.id < 2 ^ 11)) && decide (f.dlc < 16) && decide (f.data.length ≤ 64) &&
    (f.fdf || (decide (f.data.length ≤ 8) && !f.brs)) && !(f.fdf && f.rtr)

/-- The error counters and the loop delay of a controller (CANx_ERR). -/
def BusIn.wf (x : BusIn) : Bool := decide (x.txc < 512 ∧ x.rxc < 512 ∧ x.loopDly < 128)

/-- A frame on the car link: no longer than an IEEE 802.3 frame (R488). -/
def linkFrameWf (b : List Byte) : Bool := decide (b.length ≤ 1518)

/-- A tail that the lane composes: whole segments, at most 4,096 (R103). -/
def segsWf (b : List Byte) : Bool := decide (b.length % 32 = 0 ∧ b.length ≤ 131072)

/-- Data bytes of one CAN FD frame. -/
def frameDataWf (b : List Byte) : Bool := decide (b.length ≤ 64)

/-- The operands of a command are values that it can carry. One arm per command. -/
def Instr.wf : Instr → Bool
  | .powerOnReset _ => true
  | .brownOut _ _ _ => true
  | .resetPin _ => true
  | .supplyStable _ _ => true
  | .moduleResetSequence _ _ => true
  | .boot _ _ _ => true
  | .bootDone _ => true
  | .servoTick _ x => x.wf
  | .parcelSeal _ _ => true
  | .currentSample _ x => x.wf
  | .overcurrent _ _ _ => true
  | .loopSat _ _ => true
  | .brakePickEnd _ _ => true
  | .letterArrival _ _ _ => true
  | .hpPost _ _ => true
  | .hpTake _ _ => true
  | .hpEvidxWrite _ _ => true
  | .canLetterSegment _ _ _ _ data => frameDataWf data
  | .canReassemblyTimeout _ _ _ => true
  | .uartLetter _ _ => true
  | .uartGapTimeout _ => true
  | .nop l => l.wf
  | .identify l => l.wf
  | .regRead l => l.wf
  | .regWrite l => l.wf
  | .regModify l => l.wf
  | .moduleReset l => l.wf
  | .moduleResetLane l => l.wf
  | .configSave l => l.wf
  | .tableWrite l => l.wf
  | .tableRead l => l.wf
  | .tableCheck l => l.wf
  | .tableFill l => l.wf
  | .moveRun l => l.wf
  | .moveTrap l => l.wf
  | .moveTail l => l.wf
  | .moveStop l => l.wf
  | .setLimits l => l.wf
  | .home l => l.wf
  | .gearSet l => l.wf
  | .doorMode l => l.wf
  | .doorOpen l => l.wf
  | .doorClose l => l.wf
  | .doorStop l => l.wf
  | .doorLimits l => l.wf
  | .loopConfig l => l.wf
  | .loopMode l => l.wf
  | .coefBank l => l.wf
  | .schedSet l => l.wf
  | .inject l => l.wf
  | .capture l => l.wf
  | .groupJoin l => l.wf
  | .groupLeave l => l.wf
  | .policySet l => l.wf
  | .flightSet l => l.wf
  | .callEnter l => l.wf
  | .callCancel l => l.wf
  | .lockLoad l => l.wf
  | .lockCommit l => l.wf
  | .lockTestBridge l => l.wf
  | .lockTestSto l => l.wf
  | .watchChange l => l.wf
  | .watchSet l => l.wf
  | .millStartTick l => l.wf
  | .millStartOnce l => l.wf
  | .millStop l => l.wf
  | .millFetch l => l.wf
  | .outSet l => l.wf
  | .inRead l => l.wf
  | .outRestoreGroup l => l.wf
  | .outRestoreChannel l => l.wf
  | .counterConfig l => l.wf
  | .canMode l => l.wf
  | .canFilter l => l.wf
  | .canTx l => l.wf
  | .canCancel l => l.wf
  | .canRead l => l.wf
  | .linkModeStart l => l.wf
  | .linkModeStop l => l.wf
  | .powerMode l => l.wf
  | .rescueStart l => l.wf
  | .imageWrite l => l.wf
  | .imageVerify l => l.wf
  | .imageActivate l => l.wf
  | .lcTransition l => l.wf
  | .abort l => l.wf
  | .abortTakesEffect _ => true
  | .sessionOpenChallenge l => l.wf
  | .sessionOpenProve l => l.wf
  | .sessionOpenClose l => l.wf
  | .sessionTimeout _ => true
  | .sessionLockoutEnd _ => true
  | .sysBgenWrite h _ => h.wf
  | .sysTickWrite h _ => h.wf
  | .letterBudgetWrite h _ => h.wf
  | .letterShareWrite h _ _ => h.wf
  | .positionHiWrite h _ _ => h.wf
  | .encFaultClear h _ _ => h.wf
  | .ssi0ConfigWrite h _ _ => h.wf
  | .senseLandCountWrite h _ => h.wf
  | .loopBankWrite h _ _ => h.wf
  | .coefWrite h _ _ _ _ => h.wf
  | .notchEnWrite h _ => h.wf
  | .hoistKWrite h _ => h.wf
  | .hoistTripClear h _ => h.wf
  | .cogAddrWrite h _ => h.wf
  | .loopMillWrite h _ _ => h.wf
  | .loopCapselWrite h _ _ => h.wf
  | .doorFaultClear h _ => h.wf
  | .doorPositionWrite h _ _ => h.wf
  | .lockCauseClear h _ => h.wf
  | .laneTkstopWrite h _ => h.wf
  | .millFlagsClear h _ _ => h.wf
  | .millSigWrite h _ _ => h.wf
  | .millEvvecWrite h _ _ => h.wf
  | .fioLinkoffClear h _ => h.wf
  | .canLockWrite h _ _ _ => h.wf
  | .canBitTimingWrite h _ _ _ => h.wf
  | .groupCfgWrite h _ _ => h.wf
  | .sysKeyctlWrite h _ => h.wf
  | .encPwrRestore h _ => h.wf
  | .limitStop _ _ _ => true
  | .homeRearmEnd _ _ => true
  | .homeCapture _ _ _ => true
  | .homeAdjust _ _ => true
  | .homeSearchExhausted _ _ => true
  | .homeLimit _ _ _ => true
  | .encFault _ _ samples _ => samplesWf samples
  | .encAbsAngleSet _ _ _ => true
  | .encZSync _ _ l => samplesWf l
  | .ssiRead _ x => x.wf
  | .sdFault _ _ => true
  | .positionMismatch _ => true
  | .doorModulatorUpdate _ x => x.wf
  | .legacyStep _ _ => true
  | .doorObstructed _ _ => true
  | .doorStall _ => true
  | .doorOpenTimeout _ => true
  | .doorCloseTimeout _ => true
  | .doorReopen _ => true
  | .doorHoldExpiry _ => true
  | .doorNudge _ => true
  | .stageFault _ _ _ => true
  | .interlockEvaluation _ x => x.wf
  | .bridgeFail _ => true
  | .lockDiscrepancy _ _ => true
  | .delayElementExpiry _ _ => true
  | .lockDisagree _ => true
  | .safetyChainOpen _ _ => true
  | .lockImageCheck _ _ _ => true
  | .lockCommitted _ _ => true
  | .stoTestStep _ => true
  | .stoTestDue _ => true
  | .laneFault _ _ => true
  | .wdogExpired _ => true
  | .takeover _ _ _ _ => true
  | .parcelStale _ => true
  | .standbyReady _ _ _ => true
  | .stileFault _ => true
  | .watchDue _ => true
  | .watchChangeStart _ => true
  | .watchChanged _ => true
  | .watchSkipped _ => true
  | .millTickStart _ => true
  | .millEventEntry _ => true
  | .millNop _ _ => true
  | .millHalt _ _ => true
  | .millMov _ _ => true
  | .millAdd _ _ => true
  | .millSub _ _ => true
  | .millNeg _ _ => true
  | .millAbs _ _ => true
  | .millMin _ _ => true
  | .millMax _ _ => true
  | .millAnd _ _ => true
  | .millOr _ _ => true
  | .millXor _ _ => true
  | .millNot _ _ => true
  | .millShl _ _ => true
  | .millAsr _ _ => true
  | .millLsr _ _ => true
  | .millCmp _ _ => true
  | .millMovi _ _ => true
  | .millMovu _ _ => true
  | .millLdx _ _ => true
  | .millLdy _ _ => true
  | .millStx _ _ => true
  | .millSty _ _ => true
  | .millMovai _ _ => true
  | .millSetb _ _ => true
  | .millSetl _ _ => true
  | .millMovda _ _ => true
  | .millMovad _ _ => true
  | .millMpy _ _ => true
  | .millMac _ _ => true
  | .millMsu _ _ => true
  | .millMacxy _ _ => true
  | .millMsuxy _ _ => true
  | .millClra _ _ => true
  | .millAccld _ _ => true
  | .millAccadd _ _ => true
  | .millExt _ _ => true
  | .millB _ _ => true
  | .millCall _ _ => true
  | .millRet _ _ => true
  | .millLoop _ _ => true
  | .millEndl _ _ => true
  | .millRte _ _ => true
  | .millClrf _ _ => true
  | .millMovl _ _ => true
  | .millAddl _ _ => true
  | .millAndl _ _ => true
  | .millCmpl _ _ => true
  | .millLdxa _ _ => true
  | .millLdya _ _ => true
  | .millStxa _ _ => true
  | .millStya _ _ => true
  | .bellStrokeTx _ => true
  | .bellStroke _ x => x.wf
  | .statusSlotTx _ x => x.wf
  | .slotLateCancel _ => true
  | .statusSlotRx _ _ _ _ data => decide (data.length ≤ 64)
  | .carNumberTwin _ _ => true
  | .referenceDigest _ => true
  | .requestFrame _ _ _ _ _ => true
  | .cancelFrame _ _ _ _ _ => true
  | .callFrameTxDrop _ => true
  | .joinListenTimeout _ => true
  | .joinClaim _ => true
  | .bellMissing _ => true
  | .bellYielded _ x => x.wf
  | .groupBusLost _ _ => true
  | .resyncRequest _ _ => true
  | .resyncData _ _ _ data => frameDataWf data
  | .resyncReplay _ => true
  | .canFrameRx _ _ f _ _ x => f.wf && x.wf
  | .canTxChoice _ _ => true
  | .canTxEnd _ _ _ x => x.wf
  | .twin _ _ _ => true
  | .busOff _ _ x => x.wf
  | .busOffRecoveryStart _ _ => true
  | .busRecovered _ _ _ => true
  | .canIntegrationDone _ _ => true
  | .carLinkCycle _ => true
  | .carLinkFrameRx _ x => linkFrameWf x.frame
  | .carLinkDown _ => true
  | .phyStatusPoll _ _ => true
  | .linkPhyTimeout _ => true
  | .linkSyncTimeout _ => true
  | .blindLevelling _ _ _ segs => segsWf segs
  | .linkOpenOnLoss _ => true
  | .linkDoorHoldExpiry _ => true
  | .fieldLinkFrame _ _ _ x => x.wf
  | .fieldLinkFault _ => true
  | .inputSample _ _ _ => true
  | .counterEdge _ _ _ => true
  | .counterGateEnd _ _ => true
  | .outputDiagCheck _ _ _ _ => true
  | .overload _ _ => true
  | .driverOvertemp _ _ _ => true
  | .groupOvercurrent _ _ => true
  | .vfieldSample _ _ => true
  | .fieldShed _ => true
  | .fieldRestored _ => true
  | .standbyIdleExpiry _ => true
  | .scrubberPass _ addr _ => decide (addr < 2 ^ 32)
  | .evtLost _ => true
  | .mainsLoss _ _ _ _ => true
  | .mainsRestored _ _ _ => true
  | .vkeepLow _ _ => true
  | .rescueAutoStart _ => true
  | .rescueLevelCheck _ => true
  | .powerModeEntry _ => true
  | .wake _ _ => true
  | .idleTimeout _ => true
  | .clockFault _ _ => true
  | .encPwrFault _ _ => true
  | .overtemp _ _ _ => true
  | .flashProgramDone _ => true
  | .sdValid _ _ => true
  | .vkeepRecovered _ _ => true
  | .inboxWrite _ _ _ => true
  | .configSaveDone _ _ => true
  | .imageVerifyDone _ => true
  | .lcRecordWritten _ => true

end Sys2Proof
end

