-- ==== Sys2Proof/Tests/Slice0.lean ====
section
/-! SUPPORT. Tests: what WellFormed refuses, and for each statement of Certificates/Slice0/Obligations.lean a state and operands
that meet its hypotheses together, clause by clause. -/
namespace Sys2Proof.Tests
open Sys2Proof Sys2Proof.Machine

set_option Elab.async false

/-! ### Small states -/

/-- A machine station in service: lane A active, letters served. -/
def up : State := { State.reset with pwr := { PwrSt.init with phase := .run } }

/-- A car station in service. -/
def car : State := { up with sys := { SysSt.init with role := 2#2, strap := 2#2 } }

/-- A letter that is not queued. -/
def let0 (cls : Fin 4) (p : List Byte) : Letter :=
  { dt := 0, port := 0, cls := cls, seq := 1, quiet := false, finalOnly := false, deadline := 0, tag := 0, payload := p }

/-- A letter of port 5, which is in the privileged view. -/
def let5 (cls : Fin 4) (p : List Byte) : Letter := { let0 cls p with port := 5 }

/-- The letter alone in the queue, at the instant inside the letter window at which its charge is used up. -/
def ready (opc : Nat) (l : Letter) (s : State) : State :=
  let q : Queued := { letter := l, opc := opc, arrival := s.now, gap := false }
  { s with now := s.now + 801, sys := { s.sys with tickAt := s.now }, lb := { s.lb with queue := [q], charged := q.cost } }

/-- The letter, once its charge is used up, is admitted, and `ok` holds of the letter and of the state in which its effect is
tried. -/
def admits (opc : Nat) (h : Handler) (l : Letter) (s : State) (ok : Letter → State → Bool) : Bool :=
  match State.admitted opc h l (ready opc l s) with
  | some (_, q, _, t) => ok q t
  | none => false

/-- Words as bytes. -/
def w4 (l : List Nat) : List Byte := l.flatMap (bytesLE 4)

/-- Bytes from numbers. -/
def bs (l : List Nat) : List Byte := l.map (BitVec.ofNat 8)

/-- Stored registers from a list. -/
def regsOf (l : List (Nat × Nat)) : List (Nat × Word) := l.foldl (fun r x => aput x.1 (word x.2) r) []

/-- Memory that holds the bytes from an address up. -/
def memOf (l : List (Nat × Nat)) : MemSt :=
  { MemSt.init with cells := l.foldl (fun r x => aset memDefault x.1 (BitVec.ofNat 8 x.2) r) [] }

/-- The conditions of an event command: after `dt` counts the state is out of reset and `ok` holds of it. -/
def out (s : State) (dt : Nat) (ok : State → Bool) : Bool := !(s.advance dt).inReset && ok (s.advance dt)

/-- The same with the letterbox up. -/
def boxed (s : State) (dt : Nat) (ok : State → Bool) : Bool := (s.advance dt).boxUp && ok (s.advance dt)

/-- The head of a class 1 letter. -/
def head1 : Head := (let0 1 []).toHead

/-- The head of a class 1 letter from port 5, in the privileged view. -/
def head5 : Head := (let5 1 []).toHead

/-- The rows that carry a REG_WRITE: the letter is admitted with its payload, no rule refuses it, and `ok` holds of the state. -/
def writes (h : Head) (a v : Nat) (s : State) (ok : State → Bool) : Bool :=
  admits 0x003 regWriteHandler (writeLetter h a v) s fun q t =>
    q.payload = bytesLE 4 a ++ bytesLE 4 v && !t.foreign a && !outOfRange a (written a (word v) t) 0xFFFFFFFF &&
      !t.valueBad a (written a (word v) t) 0xFFFFFFFF &&
      (t.blockRefused a (written a (word v) t) 0xFFFFFFFF (v &&& 0xFFFFFFFF)).isNone && ok t

/-- Nothing further. -/
def any : State → Bool := fun _ => true

/-! ### Letters -/

theorem test_GeneralLettersComplete :
    (admits 0x000 nopHandler (let0 0 []) up fun _ _ => true) = true ∧
    (admits 0x001 identifyHandler (let0 0 []) up fun _ _ => true) = true ∧
    (admits 0x021 tableReadHandler (let0 0 (w4 [0x10078000, 8])) up fun _ t => (t.eccRead 0x10078000 8).1.isNone) = true ∧
    (admits 0x022 tableCheckHandler (let0 0 (w4 [0x11000000, 8])) up fun _ t => (t.eccRead 0x11000000 8).1.isNone) = true ∧
    (admits 0x020 tableWriteHandler (let0 2 (w4 [0x10078000, 8, 1, 2])) up fun q t =>
      slice q.payload 8 (u32 q.payload 4) = w4 [1, 2] && (t.firstUsed 0x10078000 8).isNone && !t.progInUse 0x10078000 8 &&
      (t.eccPartial 0x10078000 8).isNone) = true ∧
    (admits 0x023 tableFillHandler (let0 2 (w4 [0x100B0000, 8, 7])) up fun q t =>
      fillBytes (u32 q.payload 8) (u32 q.payload 4 / 4) = w4 [7, 7] && (t.firstUsed 0x100B0000 8).isNone &&
      !t.progInUse 0x100B0000 8 && (t.eccPartial 0x100B0000 8).isNone) = true ∧
    (admits 0x020 tableWriteHandler (let0 2 (w4 [0x10078000, 0])) up fun q _ => slice q.payload 8 (u32 q.payload 4) = []) = true ∧
    (admits 0x023 tableFillHandler (let0 2 (w4 [0x10078000, 0, 7])) up fun q _ => u32 q.payload 4 = 0) = true ∧
    (admits 0x0F0 abortHandler (let0 1 (bs [0, 0, 1, 0])) up fun _ _ => true) = true := by
  decide +kernel

theorem test_RegisterLettersComplete :
    (admits 0x002 regReadHandler (let0 0 (w4 [0x14])) up fun q t => decide (u32 q.payload 0 < 0x100000) && !t.viewBusy 0x14) = true ∧
    (admits 0x002 regReadHandler (let0 0 (w4 [0x10078000])) up fun _ t => (t.eccRead 0x10078000 4).1.isNone) = true ∧
    ((!pairAddrs.contains 0xA0014 && !pairAddrs.contains (0xA0014 - 4) && !(regFields 0xA0014).isEmpty) = true ∧
      (admits 0x003 regWriteHandler (let0 1 (w4 [0xA0014, 3])) up fun _ t =>
        !t.foreign 0xA0014 && !outOfRange 0xA0014 (newWord 0xA0014 (t.reg 0xA0014) 3 0xFFFFFFFF) 0xFFFFFFFF &&
        !t.valueBad 0xA0014 (newWord 0xA0014 (t.reg 0xA0014) 3 0xFFFFFFFF) 0xFFFFFFFF &&
        (t.blockRefused 0xA0014 (newWord 0xA0014 (t.reg 0xA0014) 3 0xFFFFFFFF) 0xFFFFFFFF 3).isNone &&
        (t.writeSpecial 0xA0014 3 0xFFFFFFFF).isNone) = true ∧
      (admits 0x004 regModifyHandler (let0 1 (w4 [0xA0014, 1, 3])) up fun _ t =>
        !t.viewBusy 0xA0014 && !(t.readReg 0xA0014).2.foreign 0xA0014 &&
        !outOfRange 0xA0014 (newWord 0xA0014 ((t.readReg 0xA0014).2.reg 0xA0014) 3 1) 1 &&
        !(t.readReg 0xA0014).2.valueBad 0xA0014 (newWord 0xA0014 ((t.readReg 0xA0014).2.reg 0xA0014) 3 1) 1 &&
        ((t.readReg 0xA0014).2.blockRefused 0xA0014 (newWord 0xA0014 ((t.readReg 0xA0014).2.reg 0xA0014) 3 1) 1 1).isNone &&
        ((t.readReg 0xA0014).2.writeSpecial 0xA0014 3 1).isNone) = true) ∧
    (admits 0x003 regWriteHandler (let0 1 (w4 [0x10078000, 3])) up fun _ t =>
      (t.captureAt 0x10078000 4).isNone && (t.eccPartial 0x10078000 4).isNone) = true := by
  decide +kernel

/-- A station with a privileged key in force, a challenge outstanding on port 0 and a session open there. -/
def keyed : State :=
  { up with flash := { FlashSt.init with keyForce := some (List.replicate 32 1#8) },
            lb := { LetterSt.init with challenges := LetterSt.init.challenges.set 0 (some ⟨5, 0⟩) } }
/-- The same with a session open on port 0. -/
def opened : State := { keyed with lb := { keyed.lb with session := some ⟨0, 5, 0, 0⟩ } }
/-- A letter with its tag over the challenge 5. -/
def tagged (k : Nat) (opc : Nat) (p : List Byte) : Letter :=
  { let0 3 p with tag := BitVec.ofNat 64 (keyed.tagFor 5 opc k (let0 3 p)) }

theorem test_SessionLettersComplete :
    (admits 0x0F1 sessionHandler (let0 3 (bs [1, 0, 0, 0])) up fun q t =>
      u32 q.payload 0 = 1 && !t.lockedOut && (t.otherSession q.port).isNone) = true ∧
    (admits 0x0F1 sessionHandler (tagged 4 0x0F1 (bs [2, 0, 0, 0])) keyed fun q t =>
      u32 q.payload 0 = 2 && !t.lockedOut && (t.otherSession q.port).isNone && t.lb.challenges[q.port] = some ⟨5, 0⟩ &&
      decide (t.now ≤ 800000000) && t.tagFor 5 0x0F1 4 q = q.tag.toNat) = true ∧
    (admits 0x0F1 sessionHandler (tagged 4 0x0F1 (bs [3, 0, 0, 0])) opened fun q t =>
      u32 q.payload 0 = 3 && t.lb.session = some ⟨0, 5, 1, 0⟩ && q.port = 0) = true := by
  decide +kernel

/-- A NOP letter of a port as it arrives. -/
def nopBytes (p : Fin 6) : List Byte := headFull 0x000 0 { let0 0 [] with port := p }
/-- A NOP letter as queued. -/
def nopQueued (p : Fin 6) : Queued :=
  { letter := { let0 0 [] with port := p }, opc := 0, arrival := 0, gap := false }
/-- The opcode row of NOP. -/
def nopInfo : OpInfo := ⟨0x000, [0], .fixed 0, 0, .a, 1⟩

theorem test_LetterboxEventsComplete_arrival :
    (up.advance 0).boxUp = true ∧ (up.advance 0).inboxReady = true ∧ Arrives 0 ⟨0, 0⟩ 16 (nopBytes 0) nopInfo (nopQueued 0) (up.advance 0) ∧
    up.lb.uart = [] ∧ Arrives 3 ⟨0, 0⟩ 16 (nopBytes 3) nopInfo (nopQueued 3)
      { up.advance 0 with lb := { (up.advance 0).lb with uartAt := (up.advance 0).now } } := by
  unfold Arrives Fits lateBy; dsimp only; decide +kernel

/-! ### Register writes -/

/-- A key that is staged. -/
def staged : State := { up with flash := { FlashSt.init with stage := List.replicate 32 7#8 } }
/-- A lane stopped by TAKEOVER. -/
def taken : State := { up with lane := { LaneSt.init with tkstop := true } }

/-- GEN_NEXT 1 is in range whatever the free bound GEN_MAX is. -/
theorem test_SysBgenWriteCompletes :
    admits 0x003 regWriteHandler (writeLetter head5 0x14 0x100) up (fun _ t => t.reg 0x14 = up.reg 0x14) = true ∧
      Allowed 0x14 0x100#32 up := by
  have h : written 0x14 0x100#32 up = 0x100 := by decide +kernel
  have hv : up.valueBad 0x14 0x100 0xFFFFFFFF = false := by
    have hb : bitsAt 0x100 8 8 = 1 := by decide +kernel
    simp [State.valueBad, hb, Config.genMax]
  refine ⟨by decide +kernel, ?_, ?_, ?_, ?_⟩
  · decide +kernel
  · rw [h]; decide +kernel
  · rw [h]; exact hv
  · rw [h]; decide +kernel

theorem test_SystemRegisterWritesComplete :
    writes head5 0x20 0x2800 up any = true ∧ writes head5 0x10000 0x102800 up any = true ∧
    (∀ p : Fin 6, writes head5 (0x10010 + 4 * p.val) 1 up any = true) ∧
    writes head5 0x80 (crc32c (List.replicate 32 7#8)).toNat staged
      (fun t => decide (crc32c t.flash.stage = word (crc32c (List.replicate 32 7#8)).toNat)) = true ∧
    writes head5 0x8003C 0 taken (fun t => t.lane.tkstop) = true ∧ writes head1 0xF0004 0x6E01 up any = true ∧
    writes head1 0xF0004 0x6E05 up any = true := by
  decide +kernel

/-- A car station whose door travel is the least that is allowed, 10 mm. -/
def carDoor : State := { car with regs := aput 0x50028 10000#32 [] }
/-- A station of the given role. -/
def ofRole (car' : Bool) : State := if car' then carDoor else up

/-- An encoder fault, a trip and a door stage fault whose causes are absent. -/
def faulty : State :=
  { up with sense := { SenseSt.init with fault := Vector.replicate 3 true }, loop := { LoopSt.init with trip := true } }
/-- A station whose landing table stands in memory: two landings, rising. -/
def landed : State :=
  { up with mem := { MemSt.init with cells := [(0x10078008, 5#8)] }, regs := aput 0x40820 0x10078000#32 [] }

theorem test_MotionRegisterWritesComplete_pairs :
    (∀ n : Fin 18, writes head5 (pairAddrs.getD n.val 0 + 4) 0 (ofRole (decide (n = 14 ∨ n = 15))) (fun t =>
      (plainPairs.contains (pairAddrs.getD n.val 0) || posOk (t.halfLo (pairAddrs.getD n.val 0))) &&
        (!decide (n = 14 ∨ n = 15) || t.doorTravelOk (pairAddrs.getD n.val 0)
          (sext 64 (t.halfLo (pairAddrs.getD n.val 0))))) = true) ∧
    (∀ o : Bool, writes head5 (0x50024 + 8 * b2n o) 0 carDoor (fun t =>
      posOk (t.halfLo (0x50020 + 8 * b2n o)) && t.doorTravelOk (0x50020 + 8 * b2n o)
        (sext 64 (t.halfLo (0x50020 + 8 * b2n o)))) = true) := by
  decide +kernel

theorem test_MotionRegisterWritesComplete_rest :
    (∀ k : Fin 3, writes head5 (0x40128 + 0x100 * k.val) 1 faulty (fun t => t.sense.fault[k] && t.encCauseAbsent k) = true) ∧
    writes head5 0x40404 0x14000A up any = true ∧ writes head5 0x40400 0x20008 up any = true ∧
    writes head5 0x40400 0x28008 { up with regs := aput 0x40404 0x140064#32 [] } any = true ∧
    writes head5 0x40824 0x100 up (fun t => bitsAt (written 0x40824 0x100#32 t) 0 8 = 0) = true ∧
    writes head5 0x40824 0x102 landed (fun t => bitsAt (written 0x40824 0x102#32 t) 0 8 = 2 && t.reg 0x40820 = 0x10078000 &&
      tableRange 0x10078000 16 && (t.eccRead 0x10078000 16).1.isNone &&
      posOk (t.cell32 0x10078000) && posOk (t.cell32 0x10078008) && t.cell32 0x10078000 = 0 && t.cell32 0x10078008 = 5) = true ∧
    (∀ n : Fin 16, writes head5 (slotBase n.val) 8 up any = true ∧ writes head5 (slotBase n.val) 0 up (fun t =>
      bitAt (t.reg (slotBase n.val)) 3 = bitAt (written (slotBase n.val) 0#32 t) 3) = true) ∧
    writes head5 0x35000 0x1000 up any = true ∧ writes head5 0x34000 2 up any = true ∧
    writes head5 0x34014 1 faulty (fun t => t.loop.trip && t.curOff) = true ∧
    writes head5 0x36004 0x10078000 up any = true ∧ (∀ k : Fin 16, writes head5 (0x37000 + 4 * k.val) 0 up any = true) ∧
    writes head5 0x50000 0x100 { car with door := { DoorSt.init with fault := true } } (fun t => t.door.fault && t.stageCauseAbsent)
      = true := by
  decide +kernel

theorem test_MotionRegisterWritesComplete_coefficients :
    ∀ n ∈ [(0 : Fin 16), 15], ∀ (b : Fin 2), ∀ k ∈ [(0 : Fin 42), 3, 39, 41],
      writes head5 (0x31000 + 0x200 * n.val + 0x100 * b.val + 4 * k.val) 0 up (fun t => !t.scheduled n.val &&
        decide (t.loop.slots[n].queue.length < 16) && sectionStable (t.loop.slots[n].integ (k.val / 5))
          (coefAt ((t.bankAhead n (decide (b = 1))).set k.val 0) (5 * (k.val / 5) + 3))
          (coefAt ((t.bankAhead n (decide (b = 1))).set k.val 0) (5 * (k.val / 5) + 4))) = true := by
  decide +kernel

theorem test_UnitRegisterWritesComplete :
    writes head5 0x70000 (2 ^ 4) { up with lock := { LockSt.init with bridge := true }, flash := { FlashSt.init with lc := 1 } } (fun t => t.causeBits 16 ≠ 0) = true ∧
    (∀ m : Fin 4, writes head5 (0x90004 + 0x100 * m.val) 1 up any = true ∧
      writes head5 (0x90010 + 0x100 * m.val) 1 { up with mill := { MillsSt.init with
        mill := Vector.replicate 4 { MillSt.init with state := 2 } } } (fun t => (t.mill.mill[m]).executes) = true ∧
      writes head5 (0x9000C + 0x100 * m.val) 0 up any = true) ∧
    writes head5 0xA0000 8 up any = true ∧
    (∀ c : Fin 3, (∀ w : Fin 8, writes head5 (canBase c.val + 0x20 + 4 * w.val) 1 up any = true) ∧
      writes head5 (canBase c.val + 8) 67637185 up any = true ∧ writes head5 (canBase c.val + 12) 8982977 up any = true) ∧
    writes head5 0x60004 54460736 up any = true ∧ writes head5 0x60008 1052692 up any = true := by
  decide +kernel

/-- A NOP letter that stands in the inbox. -/
def inboxed : State :=
  { up with lb := { LetterSt.init with inbox := putInbox 0 (nopBytes 0) [] } }

theorem test_LetterboxEventsComplete_post :
    (inboxed.advance 0).boxUp = true ∧ (inboxed.advance 0).inboxReady = true ∧
    Arrives 0 ⟨0, 0⟩ 16 ((List.range (min 16 4096)).map fun k => aget inboxDefault k inboxed.lb.inbox) nopInfo (nopQueued 0)
      { inboxed.advance 0 with free := inboxed.free + 1, lb := { (inboxed.advance 0).lb with
          inboxBusy := (inboxed.advance 0).now + Config.freeNat inboxed.free % (80 + 16 / 5 + 1) } } := by
  unfold Arrives Fits lateBy; dsimp only; decide +kernel

theorem test_LetterboxEventsComplete_ring :
    boxed up 0 any = true ∧ (up.ev.wr + 512 - 256) % 512 ≤ 256 ∧ (up.ev.wr + 512 - 0) % 512 ≤ 256 := by
  decide +kernel

/-- A station on CANA that takes letters from the bus, its own number 1, with the letter of a sender half received. -/
def canBox (half : List Byte) : State :=
  { up with can := Vector.replicate 3 { CanSt.init with state := 1, integ := false }, regs := aput 0xB0004 0x10200#32 [],
            lb := { LetterSt.init with reasm := if half = [] then [] else [⟨0, 9, 1, half, 0⟩] } }

theorem test_LetterboxEventsComplete_segments :
    boxed (canBox []) 0 (fun t => t.canActive 0 && t.canCfg 0 9 1 = 1 && t.ownNumber 0 = 1 &&
      bitAt (u8 (bs [0x80, 0]) 0) 7 && !bitAt (u8 (bs [0x80, 0]) 0) 6 && u8 (bs [0x80, 0]) 0 % 64 = 0 &&
      (t.reasmOf 0 9).isNone && decide ((t.lb.reasm.filter (·.ctrl = 0)).length < 4) &&
      t.lb.reasm.all (fun r => !(r.ctrl = 0 && r.sender = 9))) = true ∧
    boxed (canBox [1#8]) 800000 (fun t => t.canActive 0 && t.canCfg 0 9 1 = 1 && t.ownNumber 0 = 1 &&
      (canBox [1#8]).reasmOf 0 9 = some ⟨0, 9, 1, [1#8], 0⟩ && decide (t.now ≤ 0 + 800000) &&
      !bitAt (u8 (bs [1, 0]) 0) 7 && !bitAt (u8 (bs [1, 0]) 0) 6 && u8 (bs [1, 0]) 0 % 64 = 1) = true ∧
    boxed (canBox ((nopBytes 2).take 8)) 0 (fun t => t.canActive 0 && t.canCfg 0 9 1 = 1 && t.ownNumber 0 = 1 &&
      (canBox ((nopBytes 2).take 8)).reasmOf 0 9 = some ⟨0, 9, 1, (nopBytes 2).take 8, 0⟩ && decide (t.now ≤ 0 + 800000) &&
      !bitAt (u8 (0x41#8 :: (nopBytes 2).drop 8) 0) 7 && bitAt (u8 (0x41#8 :: (nopBytes 2).drop 8) 0) 6 &&
      u8 (0x41#8 :: (nopBytes 2).drop 8) 0 % 64 = 1) = true := by
  decide +kernel

theorem test_LetterboxEventsComplete_lastSegment :
    Arrives (canPort 0) ⟨0, 9⟩ (trimPad ((nopBytes 2).take 8 ++ (nopBytes 2).drop 8)).length
      (trimPad ((nopBytes 2).take 8 ++ (nopBytes 2).drop 8)) nopInfo
      { nopQueued 2 with letter := { (nopQueued 2).letter with src := ⟨0, 9⟩ } }
      (((canBox ((nopBytes 2).take 8)).advance 0).reasmDrop 0 9) := by
  unfold Arrives Fits lateBy; dsimp only; decide +kernel

/-- A station with a session, and with a lockout, whose times run. -/
def timed : State :=
  { up with lb := { LetterSt.init with session := some ⟨0, 5, 0, 0⟩, lockEnd := some 4800000000 } }

theorem test_LetterboxEventsComplete_times :
    out (canBox [1#8]) 800001 (fun t => (canBox [1#8]).reasmOf 0 9 = some ⟨0, 9, 1, [1#8], 0⟩ && decide (800000 < t.now)) = true ∧
    out timed (timed.fld 0x10050 16 16 * 80000000) (fun t => timed.lb.session = some ⟨0, 5, 0, 0⟩ &&
      decide (timed.fld 0x10050 16 16 * 80000000 ≤ t.now)) = true ∧
    out timed 4800000000 (fun t => timed.lb.lockEnd = some 4800000000 && decide (4800000000 ≤ t.now)) = true := by
  decide +kernel

/-! ### Ramp units -/

/-- Unit 0 with a source, no permit, a search limit and limits: it can move. Two records of 4 ticks at rest stand in memory. -/
def still : State :=
  { up with
    regs := regsOf [(0x20004, 0xF1), (0x20078, 1)], mem := memOf [(0x10078000, 4), (0x10078020, 4)],
    ramp := Vector.replicate 4 { RampSt.init with next := some ⟨1000, 1000, 1000, 1000, 1000⟩ } }
/-- A record of 4 ticks at rest. -/
def rest : Seg := ⟨4, 0, 0, 0, 0⟩
/-- Unit 0 in the record. -/
def inRun : SegRun := ⟨[⟨0, 0x10078000, 2⟩], 0, 2, some rest⟩
/-- Unit 0 in a run of that record. -/
def running : State :=
  { still with ramp := Vector.replicate 4 { RampSt.init with
      next := some ⟨1000, 1000, 1000, 1000, 1000⟩, motion := .run inRun } }
/-- The payload of MOVE_TRAP unit 0. -/
def trapTo (p : Nat) : List Byte := w4 [0, 0, p, 0]

theorem test_MoveLettersComplete :
    admits 0x030 moveRunHandler (let0 1 (w4 [0, 0x10078000, 1])) still (fun q t =>
      unitOf (u32 q.payload 0) = 0 && u32 q.payload 4 = 0x10078000 && u32 q.payload 8 = 1 && (t.moveRefused 0).isNone &&
      (t.eccRead 0x10078000 32).1.isNone &&
      (let u := (t.eccRead 0x10078000 32).2
       (tableBad (fun g => decide ((g.p0 * 65536 - u.ramp[(0 : Fin 4)].pos).natAbs ≤ 65536) && g.v0 = 0 && g.a0 = 0)
         (u.limitsLane 0) u.sys.period (u.segBytes 0x10078000 1)).isNone &&
       ((u.segBytes 0x10078000 1).map segOf).getLast? = some rest && !u.limitGuards 0 true && !u.limitGuards 0 false)) = true ∧
    admits 0x031 moveTrapHandler (let0 1 (trapTo 1)) still (fun q t =>
      unitOf (u8 q.payload 0) = 0 && (t.moveRefused 0).isNone && decide (t.reg 0x20030 ≤ (t.limitsLane 0).speed) &&
      decide (t.reg 0x20034 ≤ (t.limitsLane 0).speed) && decide (t.reg 0x20038 ≤ (t.limitsLane 0).speed) &&
      decide (t.reg 0x20030 < t.reg 0x20038 → t.reg 0x2003C ≠ 0) &&
      sext 64 (u64 q.payload 8) * 65536 = 65536 && u8 q.payload 1 = 0 && t.ramp[(0 : Fin 4)].pos = 0 &&
      !t.limitGuards 0 true && !trapTooShort 65536 (t.reg 0x20030) (t.reg 0x20034) (t.limitsLane 0).dec t.sys.period) = true ∧
    admits 0x031 moveTrapHandler (let0 1 (trapTo 0)) still (fun q t => (t.moveRefused 0).isNone &&
      sext 64 (u64 q.payload 8) * 65536 = t.ramp[(0 : Fin 4)].pos) = true ∧
    admits 0x032 moveTailHandler (let0 1 (w4 [0x10000, 0x10078020, 1])) running (fun q t =>
      unitOf (u16 q.payload 0) = 0 && u16 q.payload 2 = 1 && u32 q.payload 4 = 0x10078020 && u32 q.payload 8 = 1 &&
      !t.doorOwns 0 && t.ramp[(0 : Fin 4)].motion = .run inRun && t.ramp[(0 : Fin 4)].stopReq.isNone &&
      t.ramp[(0 : Fin 4)].tail.isNone && t.permit (t.fld (rampBase 0 + 4) 4 4) && !(t.limitsLane 0).unset &&
      decide (2 ≤ t.ticksTo inRun 1) && (t.eccRead 0x10078020 32).1.isNone &&
      (let u := (t.eccRead 0x10078020 32).2
       (segOf (u.cellsFrom 0x10078000 32)).fin u.sys.period = (0, 0, 0) &&
        (tableBad (fun g => statesNear (0, 0, 0) g.start) (u.limitsLane 0) u.sys.period (u.segBytes 0x10078020 1)).isNone)) = true ∧
    admits 0x033 moveStopHandler (let0 1 (w4 [0])) running (fun q t =>
      unitOf (u8 q.payload 0) = 0 && !t.doorOwns 0 && t.moving 0) = true ∧
    admits 0x033 moveStopHandler (let0 1 (w4 [0])) still (fun q t =>
      unitOf (u8 q.payload 0) = 0 && !t.doorOwns 0 && !t.moving 0) = true := by
  decide +kernel

/-- A trapezoid run of unit 0 upwards. -/
def trapRun : TrapRun := trapNew 65536 none
/-- Input 0 with an edge to on at the postmark 100, input 5 too. -/
def edges (n : Fin 48) : FioSt := { FioSt.init with view := FioSt.init.view.set n ⟨true, true, some 100, none⟩ }
/-- Unit 0 in a trapezoid run at the velocity v, its limit input 0 enabled in the direction that `neg` gives. -/
def limited (neg : Bool) (v : Int) : State :=
  { still with
    regs := aput 0x20060 (word (64 + 128 * b2n neg)) still.regs
    fio := edges 0
    ramp := Vector.replicate 4 { RampSt.init with motion := .trap trapRun, vel := v } }
/-- A homing of unit 0 in a step. -/
def homingAt (x : HomeStep) : HomeSt := ⟨false, 0, 20, 100, 50, 5, x, 0, 0, none, 0, 0⟩
/-- Unit 0 at home in that step. -/
def homing (x : HomeStep) (m : Motion) (n : Fin 48) : State :=
  { still with fio := edges n, ramp := Vector.replicate 4 { RampSt.init with homing := some (homingAt x), motion := m } }

theorem test_LimitsHomingAndGearComplete_letters :
    admits 0x034 setLimitsHandler (let0 1 (w4 [0, 1000, 1000, 1000, 1000, 1000])) still (fun q t =>
      unitOf (u32 q.payload 0) = 0 && !t.doorOwns 0) = true ∧
    admits 0x035 homeHandler (let0 1 (w4 [0, 100, 50, 255])) still (fun q t =>
      unitOf (u8 q.payload 0) = 0 && (t.moveRefused 0).isNone && t.fld (rampBase 0 + 4) 0 4 ≠ 0 && t.reg (rampBase 0 + 0x78) ≠ 0)
      = true ∧
    admits 0x036 gearSetHandler (let0 1 (w4 [0, 0x10078000, 0])) still (fun q t =>
      unitOf (u8 q.payload 0) = 0 && !t.moving 0 && u32 q.payload 8 = 0) = true ∧
    admits 0x036 gearSetHandler (let0 1 (w4 [0x300, 0x10078030, 2])) { still with mem := memOf [(0x10078040, 1)] } (fun q t =>
      unitOf (u8 q.payload 0) = 0 && u32 q.payload 4 = 0x10078030 && u32 q.payload 8 = 2 && !t.moving 0 &&
      (t.eccRead 0x10078030 32).1.isNone) = true := by
  decide +kernel

theorem test_LimitsHomingAndGearComplete_events :
    (∀ neg : Bool, out (limited neg (if neg then -1 else 1)) 0 (fun t =>
      (t.view (bitsAt (t.reg 0x20060) 0 6)).edgeOn = some 100 && bitAt (t.reg 0x20060) 6 &&
      edgeAccepted t.ramp[(0 : Fin 4)].limLast[(0 : Fin 4)] 100 (rearmCounts (bitsAt (t.reg 0x20060) 16 8)) &&
      t.ramp[(0 : Fin 4)].homing.isNone && t.ramp[(0 : Fin 4)].moving &&
      (if bitAt (t.reg 0x20060) 7 then decide (t.ramp[(0 : Fin 4)].vel < 0) else decide (0 < t.ramp[(0 : Fin 4)].vel))) = true) ∧
    out (homing (.backStop 0) .still 0) 1600000 (fun t => t.ramp[(0 : Fin 4)].homing = some (homingAt (.backStop 0)) &&
      t.ramp[(0 : Fin 4)].motion = .still && decide (0 + 20 * 80000 ≤ t.now)) = true ∧
    out (homing .search (.trap trapRun) 0) 0 (fun t => t.ramp[(0 : Fin 4)].homing = some (homingAt .search) &&
      (t.view 0).edgeOn = some 100 && t.inActive 0 && decide ((homingAt .search).since ≤ 100) &&
      (List.range 48).all fun n => decide (t.homeEdge 0 (homingAt .search) n ≠ some 100)) = true ∧
    out (homing .captured .still 0) 0 (fun t => t.ramp[(0 : Fin 4)].homing = some (homingAt .captured) &&
      t.ramp[(0 : Fin 4)].motion = .still) = true ∧
    out (homing .search (.trap trapRun) 0) 0 (fun t =>
      !t.searchOver 0 (homingAt .search) 65535 trapRun.v trapRun.up && t.searchOver 0 (homingAt .search) 65536 trapRun.v trapRun.up)
      = true ∧
    out { homing .search (.trap trapRun) 0 with ramp := Vector.replicate 4 { RampSt.init with
        homing := some (homingAt .search), motion := .trap trapRun, pos := 65536 } } 0 (fun t =>
      t.ramp[(0 : Fin 4)].homing = some (homingAt .search) && t.ramp[(0 : Fin 4)].motion = .trap trapRun &&
      t.searchOver 0 (homingAt .search) t.ramp[(0 : Fin 4)].pos trapRun.v trapRun.up) = true ∧
    out (homing .search (.trap trapRun) 5) 0 (fun t => t.ramp[(0 : Fin 4)].homing = some (homingAt .search) &&
      t.homeEdge 0 (homingAt .search) 5 = some 100 && !(homingAt .search).step.ended) = true := by
  decide +kernel

/-! ### Loop slots -/

/-- The bytes of a descriptor of a tick-rate slot without destination, at an address. -/
def descAt (a : Nat) : List (Nat × Nat) := [(a + 1, 1), (a + 8, 1), (a + 24, 1), (a + 28, 1), (a + 36, 1), (a + 44, 1), (a + 48, 1)]
/-- A station with a descriptor in memory, and a region table of two regions at 0x10079000. -/
def withDesc : State :=
  { up with mem := memOf (descAt 0x10078000 ++
      [(0x10079009, 0x80), (0x1007900A, 0x07), (0x1007900B, 0x10), (0x10079019, 0x80), (0x1007901A, 0x07), (0x1007901B, 0x10)]) }
/-- The bytes of that descriptor. -/
def desc0 : List Byte := withDesc.cellsFrom 0x10078000 64
/-- Slot 0 configured, in a mode. -/
def slotIn (mode : Nat) : State :=
  { withDesc with loop := { LoopSt.init with slots := LoopSt.init.slots.set 0 { SlotSt.init with desc := desc0, mode := mode } } }

theorem test_LoopLettersComplete_slots :
    admits 0x050 loopConfigHandler (let0 1 (w4 [0, 0])) withDesc (fun q t =>
      slotIdx (u32 q.payload 0) = 0 && t.loop.slots[(0 : Fin 16)].off && u32 q.payload 4 = 0) = true ∧
    admits 0x050 loopConfigHandler (let0 1 (w4 [15, 0x10078000])) withDesc (fun q t =>
      slotIdx (u32 q.payload 0) = 15 && u32 q.payload 4 = 0x10078000 && t.loop.slots[(15 : Fin 16)].off &&
      (t.eccRead 0x10078000 64).1.isNone && (let u := (t.eccRead 0x10078000 64).2
        (descBad (u.cellsFrom 0x10078000 64)).isNone && !u.descRole (u.cellsFrom 0x10078000 64) &&
        (u.descRefused 15 (u.cellsFrom 0x10078000 64)).isNone)) = true ∧
    (∀ m : Fin 5, admits 0x051 loopModeHandler (let0 1 (bs [0, m.val, 0, 0])) (slotIn 0) (fun q t =>
      slotIdx (u8 q.payload 0) = 0 && decide (u8 q.payload 1 ≤ 4) && t.loop.slots[(0 : Fin 16)].configured &&
      decide (t.loop.slots[(0 : Fin 16)].d 0 = 1 → t.loop.trip = false ∧ t.loop.kbad = false)) = true) ∧
    (∀ b : Fin 2, admits 0x052 coefBankHandler (let0 1 (w4 [256 * b.val, 0x100B0000])) (slotIn 1) (fun q t =>
      slotIdx (u8 q.payload 0) = 0 && u32 q.payload 4 = 0x100B0000 && u8 q.payload 1 = b.val &&
      t.loop.slots[(0 : Fin 16)].configured && !t.scheduled 0 && (t.eccRead 0x100B0000 192).1.isNone &&
      (let u := (t.eccRead 0x100B0000 192).2
       (firstNonzero (u.cellsFrom 0x100B0000 192) 168 24).isNone &&
       (t.loop.slots[(0 : Fin 16)].unstable (coefSet (u.cellsFrom 0x100B0000 192))).isNone)) = true) ∧
    admits 0x054 injectHandler (let0 1 (w4 [0, 0x10078000, 1])) (slotIn 1) (fun q t =>
      slotIdx (u8 q.payload 0) = 0 && t.loop.slots[(0 : Fin 16)].configured && t.loop.slots[(0 : Fin 16)].mode ≠ 0 &&
      t.loop.slots[(0 : Fin 16)].inj.isNone && t.fld (slotBase 0) 10 3 = 0) = true ∧
    admits 0x055 captureHandler (let0 1 (w4 [0x10001, 0, 1])) up (fun q t =>
      t.loop.cap.isNone && decide (bitsAt (u32 q.payload 4) 4 1 = 1 → t.carStation = false)) = true := by
  decide +kernel

theorem test_LoopLettersComplete_schedule :
    admits 0x053 schedSetHandler (let0 1 (w4 [0, 0, 0])) withDesc (fun q t =>
      u16 q.payload 0 = 0 && (List.finRange 16).all fun n => !t.scheduled n.val || t.loop.slots[n].off) = true ∧
    admits 0x053 schedSetHandler (let0 1 (w4 [0x02000001, 0x10079000, 0])) withDesc (fun q t =>
      u16 q.payload 0 = 1 && u8 q.payload 3 = 2 && u32 q.payload 4 = 0x10079000 &&
      ((List.finRange 16).all fun n => !(t.scheduled n.val || (1 : Nat).testBit n.val) || t.loop.slots[n].off) &&
      (t.eccRead 0x10079000 32).1.isNone && (let u := (t.eccRead 0x10079000 32).2
        (u.regionsBad 0x10079000 2 ((List.range 16).filter (1 : Nat).testBit).length).isNone &&
        (u.regionSets 1 (u.regionTable 0x10079000 2)).1.isNone)) = true := by
  decide +kernel

/-- A saturated slot, and a brake that picks. -/
def busyLoop : State :=
  { slotIn 1 with loop := { (slotIn 1).loop with
      slots := (slotIn 1).loop.slots.set 1 { SlotSt.init with desc := desc0, mode := 1, satAt := some (true, 0) }
      brake := Vector.replicate 2 1 } }

theorem test_LoopEventsComplete :
    out up 0 (fun t => t.machine && !t.loop.kbad && t.sampleDue) = true ∧
    out { up with regs := regsOf [(0x40500, 0x80), (0x40510, 0x2001), (0x40514, 11), (0x3400C, 1)] } 0 (fun t => t.machine &&
      t.sdOn 0 && (let q := SdCh.push (t.sdLen 0) true t.sense.sd[(0 : Fin 3)]
        let w : State := { t with sense := { t.sense with sd := t.sense.sd.set 0 q } }
        decide (q.same ≠ 512) && decide (q.good < 3 * t.sdLen 0) && q.clk = 0 &&
          decide (w.fld 0x3400C 0 20 * 10 < (w.sdCurrent 0).natAbs))) = true ∧
    out busyLoop (u16 desc0 48 * 80000) (fun t => t.loop.slots[(1 : Fin 16)].satAt = some (true, 0) &&
      !t.loop.slots[(1 : Fin 16)].satPosted && decide (0 + u16 t.loop.slots[(1 : Fin 16)].desc 48 * 80000 ≤ t.now)) = true ∧
    (∀ b : Fin 2, out busyLoop (busyLoop.fld (0x34020 + 0x10 * b.val) 16 16 * 80000) (fun t => t.loop.brake[b] = 1 &&
      decide (t.loop.brakeAt[b] + t.fld (0x34020 + 0x10 * b.val) 16 16 * 80000 ≤ t.now)) = true) := by
  decide +kernel

/-! ### Position sensing -/

/-- A station with the SSI interface on, one good read counted, and two bad ones to come. -/
def ssi : State := { up with regs := regsOf [(0x40400, 0x28008), (0x40404, 0x140190)],
                             sense := { SenseSt.init with ssiGood := 1, ssiBad := 1 } }
/-- A frame that reads 5, with the line high after it or not. -/
def ssiIn (high : Bool) : SsiIn := ⟨high, 5, 0, false⟩
/-- Encoder 0 a sine encoder of one period per revolution with a Z mark (SYNC 2) and the amplitude window 100 to 2000 mV. -/
def sine (z : Nat) (q : SenseSt) : State :=
  { up with regs := regsOf [(0x40100, 0x22 + 64 * z), (0x40104, 1), (0x40130, 0x07D00064)], sense := q }

/-- The start of an SSI read that ends now. -/
def ssiStart (t : State) : Postmark := t.now - ssiFrameNs (t.reg 0x40400) (t.reg 0x40404) * 8 / 100

theorem test_SenseEventsComplete_ssi :
    (∀ k ∈ [1, 2], out ssi (k * ssi.tickLen - 80) (fun t => t.ssiOn && t.ssiDue (ssiStart t) &&
      (let u : State := { t with sense := { t.sense with ssiStart := some (ssiStart t) } }
       u.ssiBadKind (ssiIn true) 5 (ssiStart t) = none && u.ssiBadKind (ssiIn false) 5 (ssiStart t) = some 3) &&
      decide (2 ≤ t.sense.ssiGood + 1) && t.sense.ssiBad + 1 = t.fld 0x40400 16 4) = true) ∧
    out { ssi with sense := SenseSt.init } (ssi.tickLen - 80) (fun t => t.ssiOn && t.ssiDue (ssiStart t) &&
      decide (t.sense.ssiGood + 1 < 2) && decide (t.sense.ssiBad + 1 < t.fld 0x40400 16 4)) = true := by
  decide +kernel

theorem test_SenseEventsComplete_encoders :
    out (sine 0 SenseSt.init) 4000 (fun t => t.encMode 0 = 2 && t.fld 0x40100 4 2 ≠ 0 && !t.sense.angleValid &&
      t.now = t.sense.encOn + 4000 && (let q (c d : Int) := (c * c + d * d).toNat
        decide (t.fld 0x40130 0 16 ^ 2 ≤ q 100 0 ∧ q 0 (-2000) ≤ t.fld 0x40130 16 16 ^ 2 ∧ q 99 0 < t.fld 0x40130 0 16 ^ 2 ∧
          t.fld 0x40130 16 16 ^ 2 < q 0 2001))) = true ∧
    out (sine 1 SenseSt.init) 0 (fun t => t.encMode 0 ≠ 0 && t.encMode 0 ≠ 3 && t.fld (encBase 0) 6 1 = 1 &&
      t.encMode 0 = 2 && t.fld 0x40100 4 2 = 2 && !t.sense.angleValid && t.sense.refz[(0 : Fin 3)].isNone) = true ∧
    (∀ c ∈ [(65 : Int), 4031], out (sine 1 { SenseSt.init with
        refz := SenseSt.init.refz.set 0 (some 0), cnt := SenseSt.init.cnt.set 0 c }) 0 (fun t =>
      t.sense.refz[(0 : Fin 3)] = some 0 && t.encCpr 0 ≠ 0 && decide (64 < (t.sense.cnt[(0 : Fin 3)] - 0) % (t.encCpr 0 : Int)) &&
      decide ((t.sense.cnt[(0 : Fin 3)] - 0) % (t.encCpr 0 : Int) < (t.encCpr 0 : Int) - 64)) = true) ∧
    out (sine 0 { SenseSt.init with angleValid := true }) 0 (fun t => t.encMode 0 = 2 && t.fld 0x40100 4 2 = 2 &&
      t.fld (encBase 0) 6 1 = 0 && t.sense.angleValid && !t.sense.zsync) = true ∧
    out { up with regs := regsOf [(0x40200, 1), (0x40300, 4)] } 0 (fun t =>
      t.encMode 1 = 1 && t.encMode 2 = 4 && !t.sense.fault[(1 : Fin 3)] && !t.sense.fault[(2 : Fin 3)]) = true ∧
    (∀ q ∈ [(⟨[true], 511, 0, 0, false⟩ : SdCh), ⟨[true], 5, 11, 0, false⟩],
      out { up with regs := regsOf [(0x40500, 0x80), (0x40510, 0x2004)], sense := { SenseSt.init with
        sd := SenseSt.init.sd.set 0 q } } 0 (fun t => t.sdOn 0 && !t.sense.sdValid[(0 : Fin 3)] &&
          (let p := SdCh.push (t.sdLen 0) true t.sense.sd[(0 : Fin 3)]
           p.clk ≠ 0 && (p.same = 512 || decide (3 * t.sdLen 0 ≤ p.good)))) = true) ∧
    out { up with regs := regsOf [(0x40800, 0x10001)], sense := { SenseSt.init with cmpCnt := 1 } } 0 (fun t =>
      t.fld 0x40800 0 1 = 1 && !t.sense.mismatch && decide (t.fld 0x40800 16 16 ≤ t.sense.cmpCnt) && t.sense.cmpCnt ≠ 0)
      = true := by
  decide +kernel

/-! ### The door -/

/-- The stored registers of a door on unit 1 of a car station: no permit, contact input 2, lock input 3, profile 0 with every
word 1, obstruction input 0 enabled. -/
def doorRegs : List (Nat × Nat) :=
  [(0x50004, 0xFF1 + 0x2000 + 0xC0000), (0x50010, 0x40), (0x20104, 0xF1)] ++ (List.range 7).map fun w => (0x50100 + 4 * w, 1)
/-- A car station with a door in a state; `obst`: the obstruction input is active. -/
def door (q : DoorSt) (obst : Bool) : State :=
  { car with
    regs := regsOf doorRegs
    door := q
    sense := { SenseSt.init with lvalid := SenseSt.init.lvalid.set 5 true }
    flash := { FlashSt.init with lc := 1 }
    lock := { LockSt.init with image1 := some (List.replicate 2640 15#8), image2 := some (List.replicate 2640 15#8) }
    fio := if obst then edges 0 else FioSt.init }
/-- The door in mode 1 with its stage on. -/
def doorIn (st : Nat) : DoorSt :=
  { DoorSt.init with mode := 1, state := st, on := true, use := ⟨Vector.replicate 4 0x40, 0x10001, 1⟩ }

/-- What DOOR_OPEN asks of every state. -/
def opens (t : State) : Bool :=
  t.door.mode ≠ 0 && t.door.mode ≠ 4 && !t.door.fault && t.openPermit && t.door.state ≠ 1 && t.door.state ≠ 2 && !t.profileBad 0
/-- What DOOR_CLOSE asks of every state. -/
def closes (t : State) : Bool := t.door.mode ≠ 0 && t.door.mode ≠ 4 && !t.door.fault && !t.profileBad 0

theorem test_DoorLettersComplete_open :
    (∀ st ∈ [0, 3, 4, 6, 7, 8, 9, 10, 11, 12], admits 0x041 doorOpenHandler (let0 1 (w4 [0])) (door (doorIn st) false) (fun q t =>
      u16 q.payload 0 = 0 && u16 q.payload 2 = 0 && t.door.state = st && opens t) = true) ∧
    admits 0x041 doorOpenHandler (let0 1 (w4 [0])) (door (doorIn 5) false) (fun _ t =>
      opens t && t.door.state = 5 && t.door.next = none) = true ∧
    admits 0x041 doorOpenHandler (let0 1 (w4 [0])) (door { doorIn 5 with next := some (.closeMove 0 false) } false) (fun _ t =>
      opens t && t.door.state = 5 && t.door.next ≠ none) = true := by
  decide +kernel

theorem test_DoorLettersComplete_close :
    (∀ n : Fin 2, ∀ st ∈ [0, 1, 2, 3, 4, 5, 6, 7, 8, 9, 10, 11, 12],
      admits 0x042 doorCloseHandler (let0 1 (bs [0, n.val, 0, 0])) (door (doorIn st) false) (fun q t =>
        u8 q.payload 0 = 0 && u8 q.payload 1 = n.val && t.door.state = st && closes t &&
          (t.obstInput (decide (n = 1))).isNone) = true) := by
  decide +kernel

theorem test_DoorLettersComplete_rest :
    (∀ m ∈ [0, 2], admits 0x040 doorModeHandler (let0 1 (w4 [m])) (door DoorSt.init false) (fun q t =>
      u32 q.payload 0 = m && !t.doorMoving && !t.door.fault && (t.destSlot 5).isNone) = true) ∧
    admits 0x040 doorModeHandler (let0 1 (w4 [4])) { door DoorSt.init false with regs := regsOf [(0x50008, 0x10)] } (fun _ t =>
      !t.doorMoving && !t.door.fault && (t.destSlot 5).isNone && bitsAt (t.reg 0x50008) 0 3 ≠ bitsAt (t.reg 0x50008) 4 3 &&
      t.fio.ctr[(0 : Fin 8)].mode = 0 && t.fio.ctr[(0 : Fin 8)].next.isNone && t.fio.ctr[(1 : Fin 8)].mode = 0 &&
      t.fio.ctr[(1 : Fin 8)].next.isNone) = true ∧
    (∀ x ∈ [(1, 3), (3, 1)], admits 0x040 doorModeHandler (let0 1 (w4 [x.1])) { door DoorSt.init false with
        regs := regsOf [(0x40300, x.2)]
        loop := { LoopSt.init with slots := LoopSt.init.slots.set 0 { SlotSt.init with desc := bs [0, 1, 0, 0, 0, 0, 0, 5] } } }
      (fun _ t => !t.doorMoving && !t.door.fault && t.encMode 2 = x.2 && (t.destSlot 5).isSome) = true) ∧
    admits 0x044 doorLimitsHandler (let5 3 (w4 [0x640064])) (door DoorSt.init false) (fun _ t => !t.doorMoving) = true ∧
    admits 0x043 doorStopHandler (let0 1 []) { door (doorIn 7) false with
        ramp := Vector.replicate 4 { RampSt.init with motion := .trap trapRun } } (fun _ t => t.doorActs) = true ∧
    admits 0x043 doorStopHandler (let0 1 []) (door (doorIn 9) false) (fun _ t => t.doorActs) = true ∧
    admits 0x043 doorStopHandler (let0 1 []) (door (doorIn 6) false) (fun _ t => !t.doorActs) = true := by
  decide +kernel

theorem test_DoorEventsComplete_moves :
    (∀ st ∈ [2, 7, 8], out (door (doorIn st) true) 0 (fun t => t.carStation && t.door.on && t.stageOk &&
      t.obstOf t.door.use (decide (t.door.state = 8)) 0 && !t.closesNow && t.door.state = st && !t.contact && !t.door.found)
      = true) ∧
    (∀ st ∈ [2, 7, 8, 5, 11], out (door { doorIn st with stallAt := some 0 } false) ((door DoorSt.init false).fld 0x50070 0 8 * 80000)
      (fun t => t.carStation && t.door.mode = 1 && t.door.on && t.stageOk && t.door.stallAt = some 0 && t.door.state = st &&
        decide (0 + t.fld 0x50070 0 8 * 80000 ≤ t.now) && !t.closesNow && (List.finRange 4).all fun k => !t.obstStops k) = true) ∧
    out (door { doorIn 5 with openAt := some 0 } false) 80000 (fun t =>
      t.carStation && t.door.state = 5 && t.door.on && t.stageOk && t.door.openAt = some 0 &&
      decide (0 + bitsAt t.door.use.time 16 16 * 80000 ≤ t.now) && !t.endsNow t.doorUnit) = true ∧
    (∀ st ∈ [2, 7], out (door { doorIn st with close := some ⟨0, false, 0⟩ } false) 80000
      (fun t => t.carStation && t.door.close = some ⟨0, false, 0⟩ && t.door.on && t.stageOk &&
        decide (0 + bitsAt t.door.use.time 0 16 * 80000 ≤ t.now) && !t.closesNow) = true) ∧
    out (door (doorIn 9) false) 0 (fun t => t.carStation && t.serving && t.door.on && t.door.state = 9 && t.door.next = none &&
      !t.moving t.doorUnit && t.openPermit) = true ∧
    (∀ b : Bool, out (door { doorIn 6 with holdAt := some 0, hold := 1 } b) 8000000 (fun t => t.carStation && t.serving && t.door.on &&
      t.door.state = 6 && t.door.holdAt = some 0 && decide (0 + t.door.hold * 8000000 ≤ t.now) &&
      (t.obstructed t.door.nudge = b) && !t.profileBad t.door.openProfile) = true) ∧
    out (door { doorIn 6 with firstHold := some 0 } false) 80000000 (fun t =>
      t.carStation && t.serving && t.door.firstHold = some 0 && bitsAt t.door.use.seq 0 8 ≠ 0 && !t.door.nudge &&
      decide (0 + bitsAt t.door.use.seq 0 8 * 80000000 ≤ t.now)) = true := by
  decide +kernel

theorem test_DoorEventsComplete_stage :
    out (door { doorIn 6 with i2t := 216000000000 } false) 0 (fun t => t.carStation && t.stageFaultMet 1 18001 &&
      t.stageFaultMet 2 0 && t.stageFaultMet 3 151 && t.stageFaultMet 4 17999 && t.stageFaultMet 5 66001 &&
      !t.stageFaultMet 1 18000 && !t.stageFaultMet 3 150 && !t.stageFaultMet 4 18000 && !t.stageFaultMet 5 66000) = true ∧
    out (door { DoorSt.init with mode := 4 } false) 0 (fun t => t.carStation && t.door.mode = 4 && !t.door.stepIgnore &&
      t.fld 0x50008 13 1 = 0) = true := by
  decide +kernel

/-! ### The group -/

/-- A machine station in a state of the group, car 1 on both buses, both controllers active. -/
def group (q : GroupSt) : State :=
  { up with can := Vector.replicate 3 { CanSt.init with state := 1, integ := false }
            group := { q with car := 1, mask := 3 } }
/-- A policy table at 0x10078000 and a flight-time table of one landing and one curve of two points at 0x10079000. -/
def tables : MemSt :=
  memOf [(0x10078014, 1), (0x10078016, 1), (0x10079000, 1), (0x10079002, 1), (0x10079003, 2), (0x1007901C, 1)]
/-- A group state number. -/
def inState (n : Nat) : GroupSt := { GroupSt.init with state := n }
/-- A car that does nothing. -/
def idleCar : CarIn := ⟨0, 0, 0, 0, 0, false⟩
/-- A status slot of a round with no entries. -/
def slotOf (r : Nat) : SlotMsg := ⟨r, 0, false, true, false, false, true, true, 0, 0, 0, 0, 0, [], 0, 0, 0, 0⟩

theorem test_GroupLettersComplete :
    (∀ m ∈ [1, 2, 3], admits 0x060 groupJoinHandler (let0 1 (bs [1, m, 0, 0])) (group GroupSt.init) (fun q t =>
      t.group.state = 0 && u8 q.payload 1 = m && t.can[(0 : Fin 3)].state = 1 && t.can[(1 : Fin 3)].state = 1 &&
      (t.timingNeeded 0).isNone && (t.timingNeeded 1).isNone) = true) ∧
    admits 0x061 groupLeaveHandler (let0 1 []) (group (inState 5)) (fun _ t => t.group.state = 5) = true ∧
    (∀ n ∈ [3, 4, 6], admits 0x061 groupLeaveHandler (let0 1 []) (group (inState n)) (fun _ t => t.group.state = n) = true) ∧
    admits 0x064 (callHandler 0x064 false) (let0 1 (w4 [0x100, 1])) (group { inState 3 with flight := some (bs [2, 0, 1, 2]) }) (fun _ t =>
      t.machine && decide (3 ≤ t.group.state)) = true ∧
    admits 0x065 (callHandler 0x065 true) (let0 1 (w4 [0x100, 1])) (group { inState 3 with flight := some (bs [2, 0, 1, 2]) }) (fun _ t =>
      t.machine && decide (3 ≤ t.group.state)) = true ∧
    admits 0x064 (callHandler 0x064 false) (let0 1 (w4 [0, 1])) { car with link := { LinkSt.init with state := 3 } } (fun _ t =>
      !t.machine && t.link.state = 3 && decide (t.lb.rcpt4.length < 16)) = true ∧
    admits 0x065 (callHandler 0x065 true) (let0 1 (w4 [0, 1])) { car with link := { LinkSt.init with state := 3 } } (fun _ t =>
      !t.machine && t.link.state = 3 && decide (t.lb.rcpt4.length < 16)) = true := by
  decide +kernel

theorem test_GroupLettersComplete_policy :
    admits 0x062 policySetHandler (let0 1 (w4 [0x10078000, 2048])) { up with mem := tables } (fun q t =>
      u32 q.payload 0 = 0x10078000 && u32 q.payload 4 = 2048 && (t.eccRead 0x10078000 2048).1.isNone) = true ∧
    policyBad (State.cellsFrom { up with mem := tables } 0x10078000 2048) = none := by
  refine ⟨by decide +kernel, ?_⟩
  simp only [policyBad, lowestBad, firstNonzero, u16, u8, slice, State.cellsFrom_getD]
  decide +kernel

theorem test_GroupLettersComplete_flight :
    admits 0x063 flightSetHandler (let0 1 (w4 [0x10079000, 36])) { up with mem := tables } (fun q t =>
      u32 q.payload 0 = 0x10079000 && u32 q.payload 4 = 36 && (t.eccRead 0x10079000 36).1.isNone &&
      flightLen (t.cellsFrom 0x10079000 36) = 36 && (flightBad (t.cellsFrom 0x10079000 36)).isNone) = true := by
  decide +kernel

/-- The data bytes of a status slot of a round below 256 with a number of entries, all zeros else. -/
def slotRaw (r n : Nat) : List Byte :=
  let b := bs [r, 0, 0, 0, 0, 0, 0, 0, n] ++ List.replicate 47 0#8
  b ++ bytesLE 4 (crc32c b).toNat ++ List.replicate 4 0#8

/-- A member in round 7, whose slots are open. -/
def member : GroupSt := { GroupSt.init with state := 3, round := 7, cur := 7, p := 1 }
/-- The end of car 1's slot. -/
def slotEnd : Nat := (group member).bellLen + (group member).slotLen

theorem test_GroupRoundEventsComplete :
    (∀ d ∈ [0, 1000], out (group { inState 3 with bell := true }) ((group (inState 3)).roundLen + d) (fun t => t.machine &&
      t.group.state ≠ 0 && t.group.bell &&
      decide (t.group.t0 + t.group.gt.missed * t.roundLen + t.roundLen / 2 < t.now - t.now % t.roundLen) &&
      t.busSends 0 && t.busSends 1 && t.spacingOk t.now && t.lateClose.group.bell) = true) ∧
    (∀ m ∈ [0, 1], out (group { member with gt := { member.gt with missed := m, state := 2 } })
        ((m + 1) * (group member).roundLen + 40000) (fun t =>
      t.group.state ≠ 0 && t.group.state ≠ 6 && !t.group.bell && t.group.cur ≠ 0 && t.group.gt.missed = m &&
      decide (t.group.t0 + (m + 1) * t.roundLen + 40000 ≤ t.now)) = true) ∧
    (∀ d ∈ [0, (group member).slotLen - 1], out (group member) ((group member).bellLen + d) (fun t => t.machine && t.group.sends &&
      !t.group.slotLoaded && t.pwr.mode ≠ .sleep && decide (t.ownSlotAt ≤ t.now ∧ t.now < t.ownSlotAt + t.slotLen) &&
      t.busSends 0 && t.serving) = true) ∧
    out (group { member with ownSlot := some (slotOf 7) }) (slotEnd - 10000) (fun t => t.group.ownSlot.isSome && !t.group.refDone &&
      decide (t.ownSlotAt + t.slotLen ≤ t.now + 10000)) = true ∧
    out (group { member with p := 3 }) 0 (fun t => t.machine && t.group.state = 3 && t.busJoined 0 && t.busJoined 1 &&
      t.group.car = 1 && decide (3 ≤ t.slots) && t.group.cur = 7 && !t.group.refDone && t.group.knowsP &&
      t.group.p.getLsbD 1 && !t.group.p.getLsbD 2) = true ∧
    (let x (r n : Nat) : SlotMsg := SlotMsg.ofBytes (slotRaw r n)
     (∀ n ∈ [0, 1], (slotRaw 7 n).length = 64 ∧ u32 (slotRaw 7 n) 56 = (crc32c ((slotRaw 7 n).take 56)).toNat) ∧
     (x 7 0).round = 7 ∧ (x 6 0).round = 6 ∧ (x 7 0).count = 0 ∧ (x 7 1).count = 1 ∧ (x 7 1).mute = false ∧
     u32 (List.replicate 64 0#8) 56 ≠ (crc32c ((List.replicate 64 0#8).take 56)).toNat) ∧
    out (group member) ((group member).bellLen + (group member).slots * (group member).slotLen) (fun t =>
      t.group.state ≠ 0 && t.group.state ≠ 5 && !t.group.refDone && t.group.cur ≠ 0 &&
      decide (t.group.t0 + t.bellLen + t.slots * t.slotLen ≤ t.now)) = true := by
  decide +kernel

/-- A join in progress that has heard some strokes. -/
def joining (n : Nat) (heard : List Nat) (claimed : Bool) : GroupSt :=
  { GroupSt.init with state := if claimed then 2 else 1, join := some ⟨0, n, heard, decide (n ≠ 0), claimed, 0⟩ }
/-- A resync in progress. -/
def resync : ResyncSt := ⟨2, 1, 0, none, [], none, false, 0⟩

theorem test_GroupEventsComplete :
    out (group (joining 2 [] true)) 0 (fun t => t.group.state = 2 && t.busSends 0 && t.busSends 1) = true ∧
    (∀ n ∈ [3, 4, 6], out (group { inState n with ownSlot := some (slotOf 7) }) 0 (fun t => t.group.state = n &&
      t.group.ownSlot.isSome && t.busSends 0 && t.busSends 1) = true) ∧
    out (group (inState 3)) 0 (fun t => t.machine && t.group.state ≠ 0 && t.busJoined 0 && t.busJoined 1) = true ∧
    out (group (inState 3)) ((group (inState 3)).roundLen - 24000) (fun t => decide (t.group.t0 + t.roundLen ≤ t.now + 24000)) = true ∧
    out { group (joining 0 [] false) with regs := regsOf [(0xB0204, 1)] } (3 * (group (inState 1)).roundLen) (fun t =>
      t.group.state = 1 && t.group.join = some ⟨0, 0, [], false, false, 0⟩ && !t.group.bell && t.fld 0xB0204 0 1 = 1 &&
      decide (0 + 3 * t.roundLen ≤ t.now)) = true ∧
    (∀ heard ∈ [[], [1]], out (group (joining 2 heard false))
        ((group member).bellLen + (group member).slots * (group member).slotLen) (fun t => t.group.state = 1 &&
      t.group.join = some ⟨0, 2, heard, true, false, 0⟩ && t.group.car = 1 &&
      decide (t.group.t0 + t.bellLen + t.slots * t.slotLen ≤ t.now ∧ t.now + 24000 < t.group.t0 + t.roundLen)) = true) ∧
    (∀ b : Fin 2, out (group { inState 3 with missBus := Vector.replicate 2 2 }) 0 (fun t => t.group.state ≠ 0 &&
      t.group.mask.getLsbD b.val && !t.group.lost.getLsbD b.val && decide (2 ≤ t.group.missBus[b])) = true) ∧
    out (group { inState 4 with p := 3 }) 0 (fun t => t.group.state = 4 && !t.group.mute && t.group.car = 1 &&
      (carsOf (if t.group.refDone then t.group.pNext else t.group.p)).head? = some 1) = true ∧
    out (group { inState 3 with resync := some resync }) 0 (fun t => t.machine && t.group.state ≠ 0 &&
      t.group.resync = some resync && resync.source = 2 && resync.core.isNone && !resync.caught && t.group.car = 1) = true ∧
    out (group { inState 3 with resync := some { resync with core := some (7, GroupCore.init), left := 1 }, refDone := true }) 0
      (fun t => t.group.resync = some { resync with core := some (7, GroupCore.init), left := 1 } && t.group.refDone) = true := by
  decide +kernel

/-! ### The CAN controllers -/

/-- A controller state for all three controllers, with stored registers. -/
def cans (q : CanSt) (regs : List (Nat × Nat)) : State :=
  { up with can := Vector.replicate 3 { q with integ := false }, regs := regsOf regs }
/-- Buffer 9 pending. -/
def pend9 : CanPend := txRequest 9 true false
/-- An active controller with buffer 9 pending. -/
def sending (q : CanPend) (bus : Option (Fin 256)) : CanSt := { CanSt.init with state := 1, pend := [q], onBus := bus }
/-- Buffers 0 and 9 of each controller for transmission, buffer 8 for reception, 3 and 4 in the FIFOs. -/
def uses : List (Nat × Nat) :=
  (List.range 3).flatMap fun c => [(canBase c + 0x1000, 1), (canBase c + 0x1000 + 36, 1), (canBase c + 0x1000 + 32, 2),
    (canBase c + 0x1000 + 12, 3), (canBase c + 0x1000 + 16, 7)]
/-- What the bus shows. -/
def quiet : BusIn := ⟨0, 0, 0, 0⟩
/-- A classic frame with a standard identifier. -/
def frame0 : CanFrame := ⟨0x123, false, false, false, false, false, 0, []⟩

theorem test_CanLettersComplete :
    (∀ c : Fin 3, ∀ m ∈ [0, 1, 2, 3], admits 0x0B0 canModeHandler (let0 1 (bs [c.val, m, 0, 0])) up (fun q t =>
      canOf q.payload = c && u8 q.payload 1 = m && t.can[c].state ≠ 1) = true) ∧
    (∀ c : Fin 3, admits 0x0B1 canFilterHandler (let0 1 (w4 [c.val, 0, 0, 0])) up (fun q t => canOf q.payload = c &&
        t.can[c].state = 0 && bitsAt (u32 q.payload 12) 4 3 ≠ 3) = true ∧
      admits 0x0B1 canFilterHandler (let0 1 (w4 [c.val, 0, 0, 0x830])) (cans CanSt.init uses) (fun q t => canOf q.payload = c &&
        t.can[c].state = 0 && bitsAt (u32 q.payload 12) 4 3 = 3 && t.bufUse c (bitsAt (u32 q.payload 12) 8 8) = 2) = true ∧
      (∀ b ∈ [(0 : Fin 256), 9], admits 0x0B2 canTxHandler (let0 1 (w4 [c.val + 256 * b.val, 0, 0]))
        (cans { CanSt.init with state := 1 } uses) (fun q t => canOf q.payload = c && fidx 255 (u8 q.payload 1) = b &&
          !t.canOwned c b.val && t.bufUse c b.val = 1 && !t.can[c].pend.any (·.buf = b) && t.can[c].state = 1) = true) ∧
      (∀ bus ∈ [some (9 : Fin 256), none], admits 0x0B3 canCancelHandler (let0 1 (w4 [c.val + 0x90000]))
        (cans (sending pend9 bus) uses) (fun q t => canOf q.payload = c && u16 q.payload 2 = 9 && !t.canOwned c 9 &&
          t.can[c].pend.any (fun p => decide (p.buf = 9) && !p.ended) && t.can[c].onBus = bus) = true) ∧
      (∀ b ∈ [8, 9], admits 0x0B4 canReadHandler (let0 0 (w4 [c.val + 0x10000 * b])) (cans CanSt.init uses) (fun q t =>
        canOf q.payload = c && u16 q.payload 2 = b && !t.canOwned c b) = true) ∧
      (∀ f ∈ [0x100, 0x101], admits 0x0B4 canReadHandler (let0 0 (w4 [c.val + 0x10000 * f]))
        (cans { CanSt.init with fifo0 := [3], fifo1 := [4] } uses) (fun q t => canOf q.payload = c && u16 q.payload 2 = f &&
          !t.canOwned c f && t.can[c].fifo0 = [3] && t.can[c].fifo1 = [4]) = true)) := by
  decide +kernel

theorem test_CanEventsComplete :
    (∀ c : Fin 3, out (cans { CanSt.init with state := 3 } [(canBase c.val + 0x90, 1)]) 0 (fun t =>
        t.wakeReceiver c && !frame0.fdf) = true ∧
      out (cans { CanSt.init with state := 1 } []) 0 (fun t => !t.wakeReceiver c && t.canActive c) = true ∧
      (∀ fifo ∈ [0, 8], out (cans (sending pend9 none) [(canBase c.val + 4, 0x1000000 + fifo)]) 0 (fun t => t.canActive c &&
        t.can[c].state = 1 && t.can[c].onBus.isNone &&
        leastBy (fun p : CanPend => if t.canCfg c 3 1 = 1 then p.buf.val else arbKey (t.can[c].buf p.buf.val).frame * 256 + p.buf.val)
          (t.can[c].pend.filter fun p => !p.late && !p.ended && decide (p.twinCnt < t.canCfg c 24 4)) = some pend9) = true) ∧
      out (cans (sending pend9 (some 9)) []) 0 (fun t => t.can[c].onBus = some 9 && t.can[c].state = 1 &&
        t.can[c].pend.find? (·.buf = 9) = some pend9 && !pend9.late && !pend9.ended && !pend9.single) = true ∧
      (∀ stop : Bool, out (cans (sending { txRequest 9 stop false with twinCnt := 1 } none) [(canBase c.val + 4, 0x1000000)]) 0
        (fun t => t.can[c].pend.find? (·.buf = 9) = some { txRequest 9 stop false with twinCnt := 1 } &&
          decide (t.canCfg c 24 4 ≤ 1)) = true) ∧
      out (cans { CanSt.init with state := 1, errst := 1 } []) 0 (fun t => t.can[c].state = 1 && decide (t.can[c].errst < 2)) = true ∧
      out (cans { CanSt.init with errst := 2 } [(canBase c.val + 4, 4), (canBase c.val + 0x18, 3)]) 240000 (fun t =>
        t.can[c].errst = 2 && t.canCfg c 2 1 = 1 && decide (t.can[c].boAt + t.fld (canBase c.val + 0x18) 0 16 * 80000 ≤ t.now)) = true ∧
      out (cans { CanSt.init with errst := 3 } []) 0 (fun t => t.can[c].errst = 3) = true) := by
  decide +kernel

/-! ### The interlock evaluator -/

/-- A station under an image of 2,640 bytes that are 15 but for those given. -/
def imaged (l : List (Nat × Nat)) (q : LockSt) : State :=
  let i := l.foldl (fun i x => i.set x.1 (BitVec.ofNat 8 x.2)) (List.replicate 2640 15#8)
  { up with lock := { q with image1 := some i, image2 := some i }, flash := { FlashSt.init with lc := 2 } }
/-- An image with nothing in it but the version, the role of the machine station and no bridge. -/
def blank : List Byte := List.replicate 2640 0#8

theorem test_LockLettersComplete :
    admits 0x071 lockCommitHandler (let5 3 (w4 [(crc32c [1#8]).toNat])) { imaged [] { LockSt.init with pend := some [1#8] } with
      flash := { FlashSt.init with lc := 1 } } (fun q t => !t.imageLocked && t.parked && t.lock.pend = some [1#8] &&
        (crc32c [1#8]).toNat = u32 q.payload 0) = true ∧
    admits 0x072 lockTestHandler (let5 3 (w4 [1])) (imaged [] LockSt.init) (fun q t => u8 q.payload 0 = 1 && !t.testLocked &&
      match t.image with | some i => (bridgeTrigger i).isSome | none => false) = true ∧
    admits 0x072 lockTestHandler (let5 3 (w4 [2])) (imaged [] LockSt.init) (fun q t => u8 q.payload 0 = 2 && !t.testLocked &&
      t.parked && t.lock.stoA && t.lock.stoB &&
      match t.image with | some i => u8 i 0x9D7 ≠ 255 && u8 i 0x9D8 ≠ 255 | none => false) = true := by
  decide +kernel

/-- The bridge runs, a delay of 1 ms has counted, a tap has been low, an STO test is at a step, all of it due. -/
def lockDue (n : Nat) : LockSt :=
  { LockSt.init with
    bridgeRun := some ⟨0, 0, 0, true, true⟩, term1 := BitVec.ofNat 64 (2 ^ 15), term2 := BitVec.ofNat 64 (2 ^ 15),
    delay := Vector.replicate 16 ⟨false, 126, false⟩, disRun := 2, tap := Vector.replicate 12 ⟨true, false, 200, 0⟩,
    commit := some [1#8], stoTest := some (n, 0), stoPass := some 0 }

/-- The bytes of the least image of a machine station, at 0x10078000. -/
def leastImage : List (Nat × Nat) :=
  ([(0, 1), (4, 1)] ++ ((List.range 16).map fun k => (0x954 + 8 * k, 1)) ++
    [(0x9D3, 15), (0x9D4, 15), (0x9DA, 1), (0xA16, 1), (0xA24, 0xE8), (0xA25, 3), (0xA28, 0xE8), (0xA29, 3), (0xA2C, 0xE8),
     (0xA2D, 3), (0xA43, 1), (0xA44, 100)] : List (Nat × Nat)).map fun x => (0x10078000 + x.1, x.2)
/-- A station that is open, with that image in memory. -/
def loadable : State := { up with mem := memOf leastImage, flash := { FlashSt.init with lc := 1 } }

/-- The CRC-32C of that image, not evaluated. -/
def leastCrc : Nat := (crc32c (loadable.cellsFrom 0x10078000 imageLen)).toNat

/-- It is a word. -/
theorem leastCrc_lt : leastCrc < 2 ^ 32 := BitVec.isLt _

/-- A word at offset 8 reads back. -/
theorem u32_third (a b c : Nat) (h : c < 2 ^ 32) : u32 (w4 [a, b, c]) 8 = c := by
  have hs : slice (w4 [a, b, c]) 8 4 = bytesLE 4 c := by simp [w4, slice, bytesLE, List.range, List.range.loop]
  rw [u32, hs]
  simp only [bytesLE, natLE, BitVec.toNat_ofNat]
  omega

theorem test_LockLettersComplete_load :
    admits 0x070 lockLoadHandler (let5 3 (w4 [0x10078000, 2640, leastCrc])) loadable (fun q t =>
      u32 q.payload 0 = 0x10078000 && !t.imageLocked && (t.eccRead 0x10078000 imageLen).1.isNone &&
      (t.eccRead 0x10078000 imageLen).2.sys.role = 1#2 && (t.eccRead 0x10078000 imageLen).2.mem.cells = loadable.mem.cells) = true ∧
    u32 (w4 [0x10078000, 2640, leastCrc]) 8 = leastCrc := by
  exact ⟨by decide +kernel, u32_third _ _ _ leastCrc_lt⟩

theorem test_LockLettersComplete_image : imageOffending 1#2 (loadable.cellsFrom 0x10078000 imageLen) = none := by
  simp only [imageOffending, termBad, maskByte, cmpBad, delayBad, fixedBad, monitorBad, byteBad, lowestBad, firstNonzero, u64, u32,
    u16, u8, slice, State.cellsFrom_getD]
  decide +kernel

/-! ### The lanes -/

/-- A machine station with a lane state. -/
def lanes (q : LaneSt) (regs : List (Nat × Nat)) : State := { up with lane := q, regs := regsOf regs }
/-- Lane A active, lane B ready. -/
def pair : LaneSt := { LaneSt.init with laneA := .active, laneB := .ready, sealed := false }
/-- A parcel of lane A with an empty body, sealed at tick 0. -/
def parcel0 : Parcel := ⟨false, 0, 0, 0, 0, up.fwVersion, 1, 1⟩
/-- A takeover by lane B in progress since the start. -/
def handing : LaneSt :=
  { pair with laneA := .held, laneB := .active, stile := .handoverAB, hand := some ⟨0, 0, false, false⟩ }

theorem test_LaneLettersComplete :
    admits 0x080 watchChangeHandler (let0 1 []) (lanes pair []) (fun _ t => t.parked && t.watchFree) = true ∧
    admits 0x081 watchSetHandler (let0 1 (bs [0x9F, 5, 1, 0])) up (fun q _ =>
      decide (u16 q.payload 0 = 1439) && decide (u8 q.payload 2 ≤ 1) && u8 q.payload 3 = 0) = true := by
  decide +kernel

theorem test_LaneEventsComplete_seals :
    (∀ l ∈ [some false, some true, none], out (lanes { pair with lastSlot := l } []) (lanes pair []).sealFrom (fun t =>
      t.lane.holder = some false && t.serving && !t.lane.sealed && decide (t.sealFrom ≤ t.now) && t.lane.lastSlot = l) = true) ∧
    out (lanes pair []) 0 (fun t => t.pwr.mode ≠ .sleep && t.serving && t.lane.holder = some false &&
      ([none, some 0x10078000].all fun w => ((((t.laneWord w).post 0x0801 0).sealCut).countFault false).gapBegins.lane.cond true =
        .ready)) = true ∧
    out (lanes { pair with wdog := 15 } []) 0 (fun t => t.serving && t.lane.holder = some false && t.now = t.sys.tickAt &&
      decide (t.fld 0x80030 0 4 ≤ t.lane.wdog) &&
      (((t.post 0x0802 0).sealCut).countFault false).gapBegins.lane.cond true = .ready) = true ∧
    out (lanes { pair with hbMissed := 3 } []) 0 (fun t => t.lane.holder = some false && decide (3 ≤ t.lane.hbMissed) &&
      !t.lane.stale && t.now = t.sys.tickAt) = true ∧
    (∀ b : Bool, out (lanes ({ LaneSt.init with hbOk := 1 }.putCond b .resetting) []) 0 (fun t =>
      t.lane.cond b = .resetting && decide (0 < t.lane.hbOk)) = true) ∧
    out up 0 (fun t => t.lane.stile ≠ .fault) = true := by
  decide +kernel

/-- What `TAKEOVER` asks of a hand-over by fault that began at 0. -/
def handed (t : State) (ok : Bool) : Bool :=
  let x := (t.takeDecision ⟨0, 0, false, false⟩ false false false []).1
  t.lane.hand = some ⟨0, 0, false, false⟩ && t.lane.receiver = some true && t.lane.cond false = .held &&
    decide (0 + handLen x (match x with | .ok p => t.lane.jnext - p.2.jpos | .error _ => 0) / 5 = t.now) &&
    (match x with | .ok _ => ok | .error _ => !ok)

theorem test_LaneEventsComplete_takeover :
    out (lanes handing []) 1040 (fun t => handed t false) = true ∧
    out (lanes { handing with lastSlot := some false, slot0 := some parcel0 } []) 1040 (fun t => handed t true) = true := by
  decide +kernel

theorem test_LaneEventsComplete_watches :
    out (lanes pair [(0x80020, 0x10000)]) 0 (fun t => t.pwr.phase = .run && t.fld 0x80020 16 1 = 1 &&
      decide (t.minuteAge < t.instantLen)) = true ∧
    (∀ go : Bool, out { lanes { pair with watchGo := go, watchDue := if go then none else some 0 } [] with
        sys := { SysSt.init with tickNo := 1 } } 0 (fun t => t.lane.holder = some false && t.serving && t.now = t.sys.tickAt &&
      t.lane.sealEpoch + 1 = t.sys.tickNo && t.parked && t.watchFree && (t.lane.watchGo || t.lane.watchDue.isSome)) = true) ∧
    out (lanes { handing with hand := some ⟨0, 0, true, false⟩, lastSlot := some false, slot0 := some parcel0 } []) 1040 (fun t =>
      t.lane.hand = some ⟨0, 0, true, false⟩ && t.lane.receiver = some true &&
      decide (0 + handTime (match t.lane.slot (t.lane.lastSlot.getD false) with | some p => p.bodyLen | none => 0) 0 / 5 = t.now))
      = true ∧
    out (lanes { pair with watchDue := some 0 } [(0x80020, 0x1000000)]) minuteCounts (fun t => t.lane.watchDue = some 0 &&
      decide (t.now = 0 + t.fld 0x80020 24 8 * minuteCounts)) = true := by
  decide +kernel

/-! ### Field inputs and outputs -/

/-- A station with a field state. -/
def field (q : FioSt) (regs : List (Nat × Nat)) : State := { up with fio := q, regs := regsOf regs }
/-- Every channel on. -/
def allOn : FioSt := { FioSt.init with on := BitVec.allOnes 32 }
/-- A channel state 0. -/
def ctrIn (mode : Nat) : CtrSt := ⟨mode, 1000, 0, none, 0, 0, 0, 0⟩

theorem test_FieldLettersComplete :
    admits 0x0A0 outSetHandler (let0 1 (w4 [3, 1])) up (fun _ _ => true) = true ∧
    admits 0x0A1 inReadHandler (let0 0 []) up (fun _ _ => true) = true ∧
    (∀ n : Fin 4, admits 0x0A2 outRestoreHandler (let0 1 (bs [0, n.val + 1, 0, 0])) (field { FioSt.init with shed := 15 } [])
      (fun q t => u8 q.payload 0 = 0 && u8 q.payload 1 = n.val + 1 && u8 q.payload 2 = 0 && u8 q.payload 3 = 0 &&
        !t.fio.shedT.entered && (!bitAt t.pwr.mainsShed n.val || t.pwr.mains) && t.groupShed (n.val + 1)) = true) ∧
    (∀ k ∈ [(0 : Fin 32), 31], admits 0x0A2 outRestoreHandler (let0 1 (bs [1, k.val, 0, 0]))
      (field { FioSt.init with latched := BitVec.allOnes 32 } []) (fun q t => u8 q.payload 0 = 1 && u8 q.payload 1 = k.val &&
        u8 q.payload 2 = 0 && u8 q.payload 3 = 0 && t.fio.latched.getLsbD k.val && !t.causePresent k) = true) ∧
    (∀ k ∈ [(0 : Fin 8), 7], ∀ m ∈ [(0, 0), (1, 0), (2, 1000), (2, 1000000)],
      admits 0x0A3 counterConfigHandler (let0 1 (bs [k.val, m.1, 0, 0] ++ bytesLE 4 m.2)) up (fun q t =>
        u8 q.payload 0 = k.val && u8 q.payload 1 = m.1 && u8 q.payload 2 = 0 && u8 q.payload 3 = 0 && u32 q.payload 4 = m.2 &&
        !t.carStation && !t.counterUsed k.val) = true) := by
  decide +kernel

/-- A threshold that was entered at the third reading below. -/
def thrAt (n : Nat) : Thresh := ⟨false, n⟩

theorem test_FieldEventsComplete_frames :
    out up 0 (fun t => t.pwr.mode ≠ .sleep) = true ∧
    (∀ dt ∈ [1920, 2000], out up dt (fun t => decide (t.fio.frameAt + 1920 ≤ t.now ∧ t.now ≤ t.fio.frameAt + 2000) &&
      !t.fio.linkLost && t.pwr.mode ≠ .sleep) = true) ∧
    out up 0 (fun t => !t.fio.input.entered) = true ∧
    out (field { FioSt.init with
        inp := FioSt.init.inp.set 0 ⟨false, 0, 0, false, true, false, 0⟩, ctr := FioSt.init.ctr.set 0 (ctrIn 2) } []) 80000 (fun t =>
      t.fio.ctr[(0 : Fin 8)].mode = 2 && t.pwr.mode ≠ .sleep && t.fio.inp[(0 : Fin 48)].valid && (t.inp 0).valid &&
      decide (t.fio.inp[(0 : Fin 48)].chgPm + 160 ≤ t.now) &&
      decide (t.fio.ctr[(0 : Fin 8)].gateAt + t.fio.ctr[(0 : Fin 8)].gate * 80 = t.now)) = true := by
  decide +kernel

theorem test_FieldEventsComplete_outputs :
    out (field FioSt.init [(0xA001C, 1), (0xA0110, 1)]) 20000 (fun t => !t.fio.on.getLsbD 0 && t.pwr.mode ≠ .sleep &&
      t.fld 0xA001C 0 6 ≠ 0 && decide (t.fio.toff[(0 : Fin 32)] < t.now) &&
      (t.now - t.fio.toff[(0 : Fin 32)]) % (t.fld 0xA001C 0 6 * 20000) = 0 && !t.fio.latched.getLsbD 0 && bitAt (t.reg 0xA0110) 0 &&
      !t.fio.openLoad.getLsbD 0) = true ∧
    out (field allOn [(0xA001C, 0x101)]) 80000 (fun t => t.fio.on.getLsbD 31 && t.pwr.mode ≠ .sleep &&
      decide (t.fio.ton[(31 : Fin 32)] ≤ 0 ∧ t.now = 0 + t.fld 0xA001C 8 8 * 80000)) = true ∧
    (∀ b : Bool, ∀ k ∈ [1, 2], out (field { allOn with groupA := 4001, groupB := 4001 } [(0xA001C, 0x10000)]) (k * 800000) (fun t =>
      t.pwr.mode ≠ .sleep && (t.heaviest b).isSome && (let n := t.fld 0xA001C 16 8 * 800000
        decide (0 < n ∧ 0 < t.now ∧ (t.now - 0) % n = 0)) &&
      decide (4000 < (if b then t.fio.groupB else t.fio.groupA))) = true) ∧
    out up 0 (fun t =>
      (t.fio.low.step 19000 20000 20000).entered = t.fio.low.entered &&
      (t.fio.shedT.step 16500 17500 20000).entered = t.fio.shedT.entered &&
      (t.fio.input.step 15000 16000 20000).entered = t.fio.input.entered) = true ∧
    out (field { FioSt.init with input := thrAt 3, low := ⟨true, 0⟩, shedT := ⟨true, 0⟩ } []) 0 (fun t =>
      (t.fio.low.step 19000 20000 14999).entered = t.fio.low.entered &&
      (t.fio.shedT.step 16500 17500 14999).entered = t.fio.shedT.entered &&
      (t.fio.input.step 15000 16000 14999).entered && !t.fio.input.entered) = true ∧
    out (field { FioSt.init with shedNext := some (1, 0), shedT := ⟨true, 0⟩ } []) 0 (fun t => t.fio.shedNext = some (1, 0) &&
      t.fio.shedT.entered) = true ∧
    out (field { FioSt.init with restAt := some 0, shed := 8 } [(0xA0130, 8)]) 0 (fun t => t.fio.restAt = some 0 &&
      !t.fio.shedT.entered && t.autoGroup t.fieldOnly = some 4) = true := by
  decide +kernel

/-! ### The car link -/

/-- A station with a link state. -/
def linked (q : LinkSt) : State := { up with link := q }
/-- A link in a state. -/
def linkIn (n : Nat) : LinkSt := { LinkSt.init with state := n }
/-- The frame from the car station that is the next in sequence, with empty station data and letter channel. -/
def frameIn : List Byte :=
  let h := bs [2, 2, 1, 0] ++ List.replicate 28 0 ++ bs [up.sys.gen, up.sys.period, 0, 0]
  let p := h ++ bytesLE 4 (crc32c h).toNat ++ List.replicate 280 0
  linkAddr false ++ linkAddr true ++ bytesBE 2 (up.fld 0xE0004 16 16) ++ p ++ bs [89, 71, 7, 169]
/-- `k` of the word, once it is a numeral. -/
def forced (r : Word) (k : Word → Word) : Word := match r.toNat with | 0 => k 0#32 | n + 1 => k (BitVec.ofNat 32 (n + 1))
/-- The CRC of `crc32`, each byte's register a numeral before the next. -/
def crcRun (p : Word) : Word → List Byte → Word
  | r, [] => r
  | r, b :: l => forced (crcByte p r b) (fun x => crcRun p x l)
theorem forced_eq (r : Word) (k : Word → Word) : forced r k = k r := by
  unfold forced; split <;> rename_i h <;> congr 1 <;> apply BitVec.eq_of_toNat_eq <;> have hr := r.isLt <;> simp [← h] <;> omega
theorem crcRun_eq (p r : Word) (l : List Byte) : crcRun p r l = l.foldl (crcByte p) r := by
  induction l generalizing r with
  | nil => rfl
  | cons b l ih => rw [crcRun, forced_eq, ih]; rfl
theorem test_LinkEventsComplete_goodFrame : ∀ n ∈ [2, 3], ((linked { linkIn n with limited := true }).advance 0).frameOk frameIn false = true := by
  simp only [State.frameOk, crc32c, fcs32, crc32, ← crcRun_eq]; decide +kernel
/-- Its fields. -/
def frameX : LinkIn := linkFields (slice frameIn 14 320) 5

theorem test_LinkLettersComplete :
    (∀ p ∈ [0, 1], admits 0x0C0 linkModeHandler (let0 1 (bs [1, p, 0, 0])) up (fun q t => u8 q.payload 0 = 1 &&
      decide (u8 q.payload 1 ≤ 1) && u8 q.payload 2 = 0 && u8 q.payload 3 = 0 && t.link.state = 0) = true) ∧
    (∀ n ∈ [0, 3], admits 0x0C0 linkModeHandler (let0 1 (bs [0, 0, 0, 0])) (linked (linkIn n)) (fun q t => u8 q.payload 0 = 0 &&
      decide (u8 q.payload 1 ≤ 1) && u8 q.payload 2 = 0 && u8 q.payload 3 = 0 && !t.anyMoving && t.link.state = n) = true) := by
  decide +kernel

theorem test_LinkEventsComplete_frames :
    out (linked { linkIn 3 with stopReq := true }) 20000 (fun t => t.now % 20000 = 0 && t.link.stopReq && t.link.state ≠ 0) = true ∧
    (∀ b : Bool, out (linked { linkIn 3 with accepted := b, acceptedAt := 0 }) 20000 (fun t => t.now % 20000 = 0 && !t.link.stopReq &&
      t.link.state = 3 && t.link.accepted = b && decide (t.link.acceptedAt < t.now)) = true) ∧
    out (linked { linkIn 2 with okRun := 8, gen := 1, period := up.sys.period, flags := 2 }) 0 (fun t => t.link.state = 2 &&
      (t.setLink { t.link with seqTx := (t.link.seqTx + 1) % 65536 }).linkReady) = true ∧
    (∀ n ∈ [2, 3], out (linked { linkIn n with limited := true }) 0 (fun t => decide (2 ≤ t.link.state) &&
      frameX.kind = (if t.machine then 2 else 1) && (frameX.seq + 65536 - t.link.seqRx) % 65536 = 1 &&
      frameX.gen = t.sys.gen && frameX.period = t.sys.period && !t.frameOk (frameIn.drop 1) false &&
      !t.frameOk (frameIn.drop 1) true) = true) ∧
    out (linked { linkIn 3 with missed := 3 }) 0 (fun t => t.now % 20000 = 0 && t.link.state = 3 && decide (3 ≤ t.link.missed)) = true ∧
    (∀ n ∈ [1, 2], out (linked { linkIn n with limited := true }) 400000000 (fun t => t.link.since + 400000000 = t.now &&
      t.link.state = n && t.link.limited) = true) := by
  decide +kernel

/-- The link lost while unit 0 moves, the landings as given. -/
def blind (land : List Int) : State :=
  { linked { linkIn 4 with blindDue := true } with
    regs := regsOf [(0x20018, 1000)]
    ramp := Vector.replicate 4 { RampSt.init with motion := .trap trapRun }
    sense := { SenseSt.init with land := land } }
/-- A car station with its link lost, in both zones, the door closed. -/
def carLost (st : Nat) (l : LinkSt) : State :=
  { door (doorIn st) false with
    regs := regsOf (doorRegs ++ [(0xE0020, 0x1010000)]), fio := edges 0, link := { l with state := 4, hold := true } }

theorem test_LinkEventsComplete_loss :
    (∀ l ∈ [[], [0]], out (blind l) 800 (fun t => t.link.blindDue && t.serving && decide (t.sys.tickAt + 800 ≤ t.now) &&
      decide (t.now ≤ t.sys.tickAt + 800 + t.budgetLen) && t.ramp[(0 : Fin 4)].moving && (t.blindTarget true).isSome = !l.isEmpty) = true) ∧
    (∀ st ∈ [3, 4, 10, 11], out (carLost st { LinkSt.init with slowAt := some 0 }) 80000000 (fun t => t.carStation && t.link.hold &&
      t.fld 0xE0020 16 1 = 1 && !t.link.opened && t.link.slowAt = some 0 && decide (0 + 80000000 ≤ t.now) && t.linkZones &&
      t.openPermit && decide (1 ≤ t.door.mode ∧ t.door.mode ≤ 3) && !t.door.fault && !t.profileBad (t.fld 0xE0020 17 3) && t.door.state = st) = true) ∧
    (∀ st ∈ [6, 10], out (carLost st { LinkSt.init with openedAt := some 0 }) 80000000 (fun t => t.link.openedAt = some 0 &&
      decide (0 + t.fld 0xE0020 24 8 * 80000000 ≤ t.now) && t.door.state = st) = true) := by
  decide +kernel

/-! ### Power, reset and flash -/

/-- A station with a power state in service. -/
def powered (q : PwrSt) (regs : List (Nat × Nat)) : State := { up with pwr := { q with phase := .run }, regs := regsOf regs }
/-- The station with a flash state, or a phase. -/
def flashed (q : FlashSt) : State := { up with flash := q }
def inPhase (p : Phase) : State := { State.reset with pwr := { PwrSt.init with phase := p } }
/-- A configuration saved. -/
def conf0 : Conf := ⟨1, 1, 128, [], [], some [1#8]⟩

theorem test_PowerLettersComplete :
    (∀ m ∈ [1, 2, 3], ∀ w ∈ [0, 1023], admits 0x0D0 powerModeHandler (let0 1 (w4 [m, w])) up (fun q t =>
      decide (1 ≤ u32 q.payload 0 ∧ u32 q.payload 0 ≤ 3 ∧ u32 q.payload 4 < 1024) && u32 q.payload 0 = m &&
      (t.modeRefused m).isNone) = true) ∧
    admits 0x0D1 rescueStartHandler (let0 1 (w4 [0])) { up with sense := { SenseSt.init with inLevel := true } } (fun q t =>
      decide (u32 q.payload 0 ≤ 2) && !t.carStation && !t.pwr.mains && !t.moving 0 && t.sense.inLevel) = true ∧
    (∀ d ∈ [0, 1], admits 0x0D1 rescueStartHandler (let0 1 (w4 [d])) { still with sense := { SenseSt.init with land := [1000] } }
      (fun q t => u32 q.payload 0 = d && !t.carStation && !t.pwr.mains && !t.moving 0 && !t.sense.inLevel &&
        t.rescueTarget d = some (0, 1000)) = true) ∧
    admits 0x008 moduleResetHandler (let5 3 (w4 [1])) up (fun q t => !t.carMoves && u32 q.payload 0 = 1) = true ∧
    admits 0x008 moduleResetHandler (let5 3 (w4 [2])) { up with lane := pair } (fun q t => !t.carMoves && u32 q.payload 0 = 2 &&
      t.laneResetRefused.isNone && !t.pwr.resetDue) = true := by
  decide +kernel

/-- A rescue to 1 mm above the landing at 0, with unit 0's move ended as given. -/
def rescuing (e : Option (Status × Nat × Nat × Nat)) (l : Bool) : State :=
  { powered { PwrSt.init with rescue := some ⟨0, 0, ⟨0, 0, 0, 0, 0⟩, 0⟩ } [] with
    ramp := Vector.replicate 4 { RampSt.init with ended := e }, sense := { SenseSt.init with inLevel := l } }

theorem test_PowerEventsComplete_modes :
    (∀ m ∈ [PMode.doze, .park, .sleep], out (powered { PwrSt.init with entry := some (m, 0, 1000) } []) 1000 (fun t =>
      t.pwr.entry = some (m, 0, 1000) && t.now = 1000 && t.pwr.mode = .run) = true) ∧
    (∀ src ∈ [0, 1, 5, 6, 8], out (powered { PwrSt.init with mode := .park, wakeMask := 1023, woken := 32 } []) 0 (fun t =>
      t.pwr.mode ≠ .run && t.wakes src && decide (src < 10)) = true) ∧
    out (powered { PwrSt.init with idleFrom := some 0 } [(0xF0008, 0x11)]) 80000000 (fun t => t.pwr.idleFrom = some 0 && t.serving &&
      t.parkedIdle && t.fld 0xF0008 0 1 = 1 && decide (0 + t.fld 0xF0008 4 12 * 80000000 ≤ t.now)) = true ∧
    out (powered { PwrSt.init with mains := true } [(0xF0004, 2)]) 0 (fun t => t.pwr.mains && t.fld 0xF0004 1 1 = 1 &&
      t.pwr.phase = .run && t.pwr.mode ≠ .sleep) = true ∧
    out up 0 (fun t => !t.pwr.mains && t.pwr.vkeepArmed) = true ∧
    out (powered PwrSt.init [(0xF0004, 0x6E01)]) 0 (fun t => t.pwr.vkeepArmed && decide (10999 < t.fld 0xF0004 8 8 * 100) &&
      decide (t.fld 0xF0004 8 8 * 100 + 500 ≤ 11500)) = true ∧
    out (powered { PwrSt.init with lostAt := some 0, bootDone := true } [(0xF001C, 0x1100000)]) 80000000 (fun t =>
      t.pwr.lostAt = some 0 && t.machine && t.serving && t.pwr.bootDone && t.fld 0xF001C 20 1 = 1 && !t.pwr.mains && !t.pwr.rescued &&
      decide (0 + t.fld 0xF001C 24 8 * 80000000 ≤ t.now) && !t.moving 0 && !t.sense.inLevel) = true ∧
    out (powered { PwrSt.init with encOn := true } []) 0 (fun t => t.pwr.encOn && !t.pwr.overC && !t.pwr.overF) = true ∧
    out (powered PwrSt.init [(0xA0180, 1)]) 0 (fun t => t.fld 0xA0180 0 1 = 1 && !t.tickDue) = true := by
  decide +kernel

theorem test_PowerEventsComplete_rescue :
    out (rescuing (some (.failed, 0x2A, 0, 0)) false) 0 (fun t => t.pwr.rescue.isSome && match t.pwr.rescue with
      | some r => (match t.rescueMove r with | some (.error d) => d = 0x2A | _ => false)
      | none => false) = true ∧
    out (rescuing (some (.done, 0, 0, 0)) true) 0 (fun t => match t.pwr.rescue with
      | some r => (match t.rescueMove r with | some (.ok p) => decide (t.now ≤ p + 80000000) | _ => false) && t.now = t.sys.tickAt &&
          !t.moving 0 && t.ramp[(0 : Fin 4)].pos = r.target * 65536 && t.sense.inLevel
      | none => false) = true ∧
    out (rescuing (some (.done, 0, 0, 0)) false) 80000000 (fun t => match t.pwr.rescue with
      | some r => (match t.rescueMove r with | some (.ok p) => decide (p + 80000000 ≤ t.now) | _ => false) && !t.sense.inLevel
      | none => false) = true := by
  decide +kernel

/-- Flash of which no bank passes. -/
def dead : FlashSt := { FlashSt.init with fw := Vector.replicate 2 { factory := none, kept := [], torn := [], cells := [] } }

theorem test_ResetAndBootComplete :
    (inPhase .held).pwr.phase = .held ∧ (inPhase .sequence).pwr.phase = .sequence ∧ (inPhase .released).pwr.phase = .released ∧
    (inPhase .released).flash.erased.bootBank = some (0, false) ∧
    ({ FlashSt.init with activation := 1 } : FlashSt).erased.bootBank = some (1, false) ∧ dead.erased.bootBank = none ∧
    ((up.advance 0).pwr.phase = .run ∧ (up.advance 0).pwr.bootDone = false ∧ (up.advance 0).portQueue 5 = [] ∧
      (up.advance 0).lb.held5 = []) := by
  decide +kernel

/-- The image that runs is saved for bank 0. -/
def saved : State :=
  { imaged [] LockSt.init with
    lock := { LockSt.init with image1 := some [1#8], image2 := some [1#8] }
    flash := { FlashSt.init with lc := 2, copyA := Vector.replicate 2 (.valid conf0) } }

theorem test_FlashLettersComplete :
    admits 0x010 configSaveHandler (let5 3 (w4 [0])) up (fun q t => decide (u32 q.payload 0 ≤ 1) && t.badRange.isNone &&
      !t.flashBusy && t.flash.lc ≠ 4) = true ∧
    (∀ o ∈ [0, 0xFFFF0], admits 0x0E0 imageWriteHandler (let5 3 (w4 [1, o, 1, 2, 3, 4])) up (fun q t => u32 q.payload 0 = 1 &&
      u32 q.payload 4 = o && decide (u32 q.payload 4 + (q.payload.length - 8) ≤ 0x100000) && (q.payload.drop 8).length % 16 = 0 &&
      !t.runsBank (bankOf q.payload) && !t.flashBusy) = true) ∧
    admits 0x0E1 imageVerifyHandler (let5 3 (w4 [1])) up (fun q t => u32 q.payload 0 = 1 && !t.flashBusy) = true ∧
    admits 0x0E2 imageActivateHandler (let5 3 (w4 [1])) (flashed { FlashSt.init with verified := Vector.replicate 2 true }) (fun q t =>
      u32 q.payload 0 = 1 && t.flash.verified[bankOf q.payload]) = true ∧
    (∀ x ∈ [(0, 1), (1, 2), (0, 4), (3, 2)], admits 0x0E3 lcTransitionHandler (let5 3 (w4 [x.2]))
      (flashed { FlashSt.init with lc := x.1, key := some (List.replicate 32 1#8) }) (fun q t => u32 q.payload 0 = x.2 &&
        transitionOk t.flash.lc x.2 && t.parked && t.flash.key.isSome && x.2 ≠ 3 && !t.flashBusy) = true) ∧
    admits 0x0E3 lcTransitionHandler (let5 3 (w4 [3])) saved (fun q t => u32 q.payload 0 = 3 && transitionOk t.flash.lc 3 && t.parked &&
      t.imageSaved && !t.flashBusy) = true := by
  decide +kernel

theorem test_FlashEventsComplete :
    out { flashed { FlashSt.init with saving := some (0, false, conf0), verifying := some 1, lcTarget := some 1 } with
      lb := { LetterSt.init with outst := [⟨.lcTransition, 0, 1, 0, false, [], ⟨0, 0⟩, false⟩] } } 0 (fun t =>
      (t.lb.outst.find? (fun x => x.act = .lcTransition)).isSome && t.flash.saving = some (0, false, conf0) && t.flash.verifying = some 1 && t.flash.lcTarget = some 1 && (t.bankBad 1).isNone) = true ∧
    out (flashed { dead with verifying := some 1 }) 0 (fun t => t.flash.verifying = some 1 && (t.bankBad 1).isSome) = true := by
  decide +kernel

/-! ### The mills -/

/-- A station with mill `m` at the instruction `o`, in a state `q` of the mill. -/
def mill (m : Fin 4) (o : MillOp) (q : MillSt) : State :=
  let a := progAddr 0 m.val q.pc
  { up with
    mem := memOf ((List.range 4).map (fun k => (a + k, bitsAt (encodeMill o).1 (8 * k) 8)) ++
      (List.range 4).map (fun k => (a + 4 + k, bitsAt (encodeMill o).2 (8 * k) 8)))
    mill := { MillsSt.init with mill := MillsSt.init.mill.set m { q with state := if q.state = 0 then 3 else q.state } } }

/-- The mill issues the instruction, and `ok` holds of the state after the fetch. -/
def issuing (m : Fin 4) (o : MillOp) (s : State) (ok : State → Bool) : Bool :=
  match s.millFetch m with
  | .ok (p, n, t) => p = o && n = (if millLong (encodeMill o).1 then 8 else 4) && (s.mill.mill[m]).executes && s.engineRuns &&
      !(s.mill.mill[m]).eventDue && (!o.control || ((s.mill.mill[m]).delay = 0 && !(s.mill.mill[m]).nearEnd)) && ok t
  | .error _ => false

/-- An effective address: register 1, linear after the access, step 1. -/
def ea1 : MillEa := ⟨1, 1, 1⟩
/-- The same in the Y space, through register 2. -/
def ea2 : MillEa := ⟨2, 1, -1⟩

/-- The instructions that only need to be issued. -/
def plainOps : List MillOp :=
  [.nop, .mov 1 2, .movi 3 0x8000, .movu 15 0xFFFF, .movl 4 0xDEADBEEF, .movad 5 7, .movda 7 5, .movai 1 3, .setb 2 4, .setl 3 5,
   .clrf 15, .add true 1 2 3, .sub false 1 2 3, .neg true 1 2, .abs true 1 2, .cmp 1 2, .addl true 1 2 0x80000000, .cmpl 1 7,
   .shl true 1 2 31, .min 1 2 3, .max 1 2 3, .and 1 2 3, .or 1 2 3, .xor 1 2 3, .not 1 2, .andl 1 2 3, .asr 1 2 0, .lsr 1 2 31,
   .mpy true 3 1 2, .mac true 3 1 2, .msu false 0 1 2, .clra 2, .accld 1 2 31, .accadd true 1 2 0, .ext true 1 2 true 31,
   .b 0 (-3), .call 0 5, .call 1 5, .ret 0, .loop 1 4 7, .loop 1 4 0, .endl, .halt]

theorem test_MillInstructionsComplete : ∀ o ∈ plainOps, issuing 2 o (mill 2 o MillSt.init) any = true := by
  decide +kernel

theorem test_MillRteCompletes :
    issuing 0 .rte (mill 0 .rte { MillSt.init with bank := true }) (fun t => (t.mill.mill[(0 : Fin 4)]).bank) = true := by
  decide +kernel

theorem test_MillLoopsComplete :
    issuing 0 (.loop 1 4 7) (mill 0 (.loop 1 4 7) MillSt.init) (fun t => decide ((t.mill.mill[(0 : Fin 4)]).loops.length < 2)) = true ∧
    issuing 0 (.loop 1 4 7) (mill 0 (.loop 1 4 7) { MillSt.init with pc := 8, loops0 := [⟨0, 100, 3⟩] }) (fun t =>
      decide ((t.mill.mill[(0 : Fin 4)]).loops.length < 2) && (t.mill.mill[(0 : Fin 4)]).loops.all (fun l =>
        decide (l.start ≤ (t.mill.mill[(0 : Fin 4)]).pc + 4 ∧ (t.mill.mill[(0 : Fin 4)]).pc + 16 < l.last))) = true ∧
    issuing 0 (.loop 1 4 0) (mill 0 (.loop 1 4 0) MillSt.init) (fun t =>
      (t.mill.mill[(0 : Fin 4)]).dA[(1 : Fin 16)].toNat % 65536 = 0) = true := by
  decide +kernel

/-- The mill's effective address is generated and its word can be read. -/
def reads (m : Fin 4) (y : Bool) (e : MillEa) (t : State) : Bool :=
  match (t.mill.mill[m]).genEa y e with
  | .ok (w, _, _) => (match t.millLoad m y w with | .ok _ => true | .error _ => false) &&
      (match t.millStore m y w 5#32 with | .ok _ => true | .error _ => false)
  | .error _ => false
/-- The word can be read and stored. -/
def readsAt (m : Fin 4) (y : Bool) (w : Nat) (t : State) : Bool :=
  (match t.millLoad m y w with | .ok _ => true | .error _ => false) &&
    (match t.millStore m y w 5#32 with | .ok _ => true | .error _ => false)

theorem test_MillLoadsAndStoresComplete :
    (∀ o ∈ [MillOp.ldx 3 ea1, .stx 3 ea1], issuing 1 o (mill 1 o MillSt.init) (reads 1 false ea1) = true) ∧
    (∀ o ∈ [MillOp.ldy 3 ea2, .sty 3 ea2], issuing 1 o (mill 1 o MillSt.init) (reads 1 true ea2) = true) ∧
    (∀ w ∈ [0, 0x5FFF, 0x6000, 0x63FF], ∀ o ∈ [MillOp.ldxa 3 w, .stxa 3 w],
      issuing 1 o (mill 1 o MillSt.init) (readsAt 1 false w) = true) ∧
    (∀ w ∈ [0, 0x5FFF], ∀ o ∈ [MillOp.ldya 3 w, .stya 3 w], issuing 1 o (mill 1 o MillSt.init) (readsAt 1 true w) = true) ∧
    (∀ o ∈ [MillOp.macxy true 1 ea1 ea2, .msuxy false 1 ea1 ea2], issuing 1 o (mill 1 o MillSt.init) (fun t =>
      reads 1 false ea1 t && match (t.mill.mill[(1 : Fin 4)]).genEa false ea1 with
        | .ok (_, p, _) => (match ({ t.mill.mill[(1 : Fin 4)] with ptr := (t.mill.mill[(1 : Fin 4)]).ptr.set 1 p } : MillSt).genEa
            true ea2 with
          | .ok (w, _, _) => readsAt 1 true w t
          | .error _ => false)
        | .error _ => false) = true) := by
  decide +kernel

theorem test_MillLettersAndEventsComplete :
    (∀ m : Fin 4, ∀ k ∈ [0, 1], admits 0x090 millStartHandler (let0 1 (bs [m.val, k, 0, 0] ++ bytesLE 4 0xFFFC)) up (fun q t =>
      u8 q.payload 0 = m.val && u8 q.payload 1 = k && u8 q.payload 2 = 0 && u8 q.payload 3 = 0 && u32 q.payload 4 % 4 = 0 &&
      decide (u32 q.payload 4 < progSpace t.mill.arr m.val) && !(t.mill.mill[m]).running) = true) ∧
    (∀ m : Fin 4, admits 0x091 millStopHandler (let0 1 (bs [m.val, 0, 0, 0])) up (fun q _ => u8 q.payload 0 = m.val) = true) ∧
    (∀ a ∈ [0, 4], admits 0x092 millFetchHandler (let0 1 (bs [a, 0, 0, 0])) up (fun q t => decide (u8 q.payload 0 ≤ 4) &&
      (List.finRange 4).all fun m => !(t.mill.mill[m]).running) = true) ∧
    out up 800 (fun t => t.now = t.sys.tickAt + 800 && t.engineRuns) = true ∧
    (let s := mill 0 .nop { MillSt.init with events := 1 }
     ((s.mill.mill[(0 : Fin 4)]).eventDue && s.engineRuns && match s.millFetch 0 with | .ok (o, _, _) => o = .nop | .error _ => false)
       = true) := by
  decide +kernel

theorem test_TickRowsComplete :
    (up.advance up.tickLen).tickDue = true ∧
    out up 0 (fun t => t.pwr.mode ≠ .sleep && !t.mem.hard.contains 0 && !t.mem.soft.contains 0) = true ∧
    out { up with mem := { MemSt.init with soft := [8], hard := [16] } } 0 (fun t => t.pwr.mode ≠ .sleep && t.mem.soft.contains 8 &&
      !t.mem.hard.contains 8 && t.mem.hard.contains 16) = true ∧
    out { up with ev := { EvSt.init with lostSince := 1, wr := 255 } } 0 (fun t => decide (t.ev.unread < 256) &&
      decide (0 < t.ev.lostSince)) = true := by
  decide +kernel

/-! ### The rules -/

theorem test_StepIsExecOfTheFrontCommand : step { up with pending := [.resetPin 0] } = exec (.resetPin 0) { up with pending := [] } ∧
    up.pending = [] ∧ step up = .next up := by
  exact ⟨rfl, rfl, rfl⟩

theorem test_LetterAdmittedWhenChecksPass :
    opInfo 0x000 = some nopInfo ∧ (up.advance 0).serving = true ∧ (up.advance 0).lane.jtick < 256 ∧
    (let s := ready 0x000 (let0 0 []) up
     match nextQueued s.lb.queue with
      | some x => sameLetter 0x000 (let0 0 []) x && s.chargeEnds x.cost && s.serving && decide (s.lane.jtick < 256)
      | none => false) = true ∧
    (match State.taken 0x000 (let0 0 []) (ready 0x000 (let0 0 []) up) with
      | some (q, gap, u) => nopInfo.classes.contains q.cls.val && nopInfo.len.ok q.payload && u.pwr.phase ≠ .recovery &&
          !u.roleRefused 0 && q.cls.val ≠ 3 && (nopHandler.bad u q).isNone && !nopHandler.needsPriv u q && !gap
      | none => false) = true ∧
    (match State.taken 0x0E1 (let5 3 (w4 [1])) (ready 0x0E1 (let5 3 (w4 [1])) up) with
      | some (q, _, u) => [3].contains q.cls.val && q.port.val = 5 && u.pwr.phase ≠ .recovery && !u.roleRefused 0x0E1 &&
          (imageVerifyHandler.bad u q).isNone
      | none => false) = true := by
  decide +kernel

theorem test_LetterAdmittedWhenChecksPass_session :
    (match State.taken 0x0E1 (tagged 4 0x0E1 (w4 [1])) (ready 0x0E1 (tagged 4 0x0E1 (w4 [1])) opened) with
      | some (q, _, u) => q.cls.val = 3 && q.port.val ≠ 5 && u.lb.session = some ⟨0, 5, 0, 0⟩ && q.port.val = 0 &&
          u.tagFor 5 0x0E1 4 q = q.tag.toNat && decide (0 < q.seq.toNat) && !u.roleRefused 0x0E1 && u.pwr.phase ≠ .recovery &&
          (imageVerifyHandler.bad { u with lb := { u.lb with session := some ⟨0, 5, q.seq.toNat, 0⟩ } } q).isNone
      | none => false) = true := by
  decide +kernel

theorem test_LettersWaitWhileNoLaneServes : (State.reset.advance 0).serving = false ∧ State.reset.pwr.resetDue = false ∧
    ({ up with pwr := { up.pwr with mode := .doze } } : State).serving = false := by
  decide +kernel

theorem test_NothingActsInReset : ((inPhase .sequence).advance 100).inReset = true ∧ ((inPhase .held).advance 0).inReset = true := by
  decide +kernel

theorem test_StoredBytesReadBack : State.reset.mem.wf = true ∧ up.mem.wf = true ∧ tables.wf = true ∧
    ({ up with mem := tables }.storeBytes 0x10078014 [0#8, 9#8]).cell 0x10078014 = 0#8 ∧
    ({ up with mem := tables }.storeBytes 0x10078014 [0#8, 9#8]).cell 0x10078015 = 9#8 ∧
    ({ up with mem := tables }.storeBytes 0x10078014 [0#8, 9#8]).cell 0x10078016 = 1#8 ∧
    ({ up with mem := tables }.storeBytes 0x10078014 [0#8, 9#8]).mem.wf = true := by
  decide +kernel

/-- A ring of 256 unread records of one event, code 3. -/
def fullRing : EvSt := { EvSt.init with recs := List.replicate 256 ⟨3, 1, 0, 0, 1⟩, rd := 256, wr := 0, lostSince := 0 }

theorem test_EventRingWhenFull : fullRing.unread = 256 ∧ fullRing.recs.length = 256 ∧ evNewest 0x0205 7#32 fullRing.recs = none ∧
    (fullRing.post 100 0x0205 7#32).rd = 257 ∧ (fullRing.post 100 0x0205 7#32).lost = 1 ∧
    out { up with ev := { EvSt.init with lostSince := 5 } } 0 (fun t => t.ev.wf && decide (t.ev.unread < 256) &&
      decide (0 < t.ev.lostSince)) = true := by
  decide +kernel

theorem test_GenNextOutOfRangeRefused :
    admits 0x003 regWriteHandler (writeLetter head5 0x14 0) up (fun q _ => q.payload = bytesLE 4 0x14 ++ bytesLE 4 0) = true ∧
    bitsAt 0 8 8 = 0 := by
  decide +kernel

theorem test_PrivilegedRegistersNeedTheView :
    (match (ready 0x003 (let0 1 (w4 [0x14, 0x200])) up).taken 0x003 (let0 1 (w4 [0x14, 0x200])) with
      | some (q, _, t) => q.cls.val = 1 && q.port.val ≠ 5 && q.payload.length = 8 && t.pwr.phase ≠ .recovery && u32 q.payload 0 = 0x14
      | none => false) = true ∧ (regFields 0x14).any (·.prw) = true := by
  decide +kernel

/-- A letter with a deadline. -/
def dueLetter (d : BitVec 32) (p : List Byte) : Letter := { let0 1 p with deadline := d }
/-- The ABORT letter with a deadline, as it arrives and as queued. -/
def abortBytes (d : BitVec 32) : List Byte := headFull 0x0F0 4 (dueLetter d (bs [0, 0, 9, 0])) ++ bs [0, 0, 9, 0]
def abortQueued (d : BitVec 32) : Queued := { letter := dueLetter d (bs [0, 0, 9, 0]), opc := 0x0F0, arrival := 0, gap := false }
def abortInfo : OpInfo := ⟨0x0F0, [1, 3], .fixed 4, 4, .a, 1⟩

theorem test_LateLettersRefused :
    Fits 0 ⟨0, 0⟩ 16 (nopBytes 0) nopInfo (nopQueued 0) (up.advance 0) ∧
    Fits 0 ⟨0, 0⟩ 20 (abortBytes 2) abortInfo (abortQueued 2) (up.advance 0) ∧ lateBy (abortQueued 2) (up.advance 0) = 2 ∧
    Fits 0 ⟨0, 0⟩ 20 (abortBytes 1) abortInfo (abortQueued 1) (up.advance 0) ∧ lateBy (abortQueued 1) (up.advance 0) = 2 := by
  unfold Fits lateBy; dsimp only; decide +kernel

theorem test_ServiceFollowsArrival : nextQueued [nopQueued 2, nopQueued 1] = some (nopQueued 1) := by
  decide +kernel

/-- A station whose image grants output 0 without a permit, output 0 commanded. -/
def lamp : State := { imaged [(0xA10, 0), (0xA11, 0), (0xA12, 0), (0xA13, 0), (0xA14, 0), (0xA15, 0)] LockSt.init with fio := { FioSt.init with cmd := 1 } }
/-- Diagnostics of nothing. -/
def noDiag : DiagIn := ⟨Vector.replicate 32 0, 0, 0, 0⟩

theorem test_OutputsNeedGrantAndPermits : out lamp 0 (fun t => t.pwr.mode ≠ .sleep) = true ∧
    (match exec (.fieldLinkFrame 0 true true noDiag) lamp with | .next u => u.fio.on.getLsbD 0 | _ => false) = true := by
  decide +kernel

theorem test_MillInstructionFrame : ∃ u, exec (.millStxa 1 0) (mill 1 (.stxa 3 0) MillSt.init) = .next u := ⟨_, rfl⟩

/-- (Their words are those that decode, for the statement of the other direction.) One instruction of each encoding with the highest operands that its fields admit. -/
def edgeOps : List MillOp :=
  [.nop, .add true 15 15 15, .shl true 15 15 31, .movi 15 0xFFFF, .ldx 15 ⟨7, 3, -32⟩, .macxy true 3 ⟨7, 3, -1⟩ ⟨7, 3, -1⟩,
   .ext true 15 3 true 31, .clrf 15, .movl 15 0xFFFFFFFF, .ldxa 15 0x63FF, .stya 15 0x5FFF]

theorem test_MillDecodeOfEncode : (edgeOps ++ plainOps).all (fun o => o.wf && decodeMill (encodeMill o).1 (encodeMill o).2 = some o) = true := by
  decide +kernel

theorem test_StepKeepsStatesSound : up.sound = true ∧ step { up with pending := [.resetPin 0] } = .next (State.moduleReset 1 .sequence
    (State.advance 0 up)) := by
  exact ⟨by decide +kernel, rfl⟩

theorem test_LifeCycleRunsAlongItsEdges : State.reset.flash.lcTarget = none ∧ transitionOk 0 1 = true ∧ transitionOk 1 2 = true ∧
    transitionOk 2 1 = true ∧ transitionOk 2 3 = true ∧ transitionOk 3 2 = true ∧ transitionOk 3 4 = true ∧ transitionOk 4 0 = false ∧
    transitionOk 0 2 = false ∧ transitionOk 1 3 = false := by
  decide +kernel

/-! ### Mill words written out from the encodings of R417 and R418 -/

theorem test_mill_words :
    -- ADD D1, D2, D3 with S: 000011 1 0001 0010 0011 0000000000000
    decodeMill 0b00001110001001000110000000000000 0 = some (.add true 1 2 3) ∧
    -- SHL D4, D5, 31 without S: 001101 0 0100 0101 011111 00000000000
    decodeMill 0b00110101000101011111 0 = none ∧
    decodeMill 0b00110100100010101111100000000000 0 = some (.shl false 4 5 31) ∧
    -- MOVI D15, -1: 010001 0 1111 00000 1111111111111111
    decodeMill 0b01000101111000001111111111111111 0 = some (.movi 15 0xFFFF) ∧
    -- LDY D2, A3 mode 2 step -4: 010100 0 0010 011 10 1111111111111100
    decodeMill 0b01010000010011101111111111111100 0 = some (.ldy 2 ⟨3, 2, -4⟩) ∧
    -- MACXY AC1, A1 mode 1 step 1, A2 mode 1 step -1, S: 011111 1 01 001 01 00001 010 01 11111 000
    decodeMill 0b01111110100101000010100111111000 0 = some (.macxy true 1 ⟨1, 1, 1⟩ ⟨2, 1, -1⟩) ∧
    -- MPY AC3, D4, D5 without S: 011100 0 11 0100 0101 000000000000000
    decodeMill 0b01110001101000101000000000000000 0 = some (.mpy false 3 4 5) ∧
    -- EXT D6, AC2, 20, rounded, without S: 100100 0 0110 10 1 010100 000000000000
    decodeMill 0b10010000110101010100000000000000 0 = some (.ext false 6 2 true 20) ∧
    -- B always, -2: 101000 0000 000000 1111111111111110
    decodeMill 0b10100000000000001111111111111110 0 = some (.b 0 (-2)) ∧
    -- LOOP D1, 5, 9: 101011 0 0001 00000000101 0000001001
    decodeMill 0b101011 0 = none ∧
    decodeMill 0b10101100001000000001010000001001 0 = some (.loop 1 5 9) ∧
    -- CLRF 5: 101110 0...0 0101
    decodeMill 0b10111000000000000000000000000101 0 = some (.clrf 5) ∧
    -- MOVL D7, 0x12345678: 110000 0 0111 0...0, then the word
    decodeMill 0b11000000111000000000000000000000 0x12345678 = some (.movl 7 0x12345678) ∧
    -- a reserved bit set in NOP, and opcode 0x25, decode to nothing
    decodeMill 1 0 = none ∧ decodeMill 0b10010100000000000000000000000000 0 = none := by
  decide +kernel

/-! ### What WellFormed refuses -/

/-- A well-formed frame. -/
def frame1 : CanFrame := ⟨0x7FF, false, false, false, false, false, 8, List.replicate 8 0#8⟩
/-- An own car, a slot and a stroke whose fields fit. -/
def car1 : CarIn := ⟨255, 255, 255, 2 ^ 24 - 1, 255, true⟩
def slot9 : SlotMsg := { slotOf 7 with entries := List.replicate 9 0 }
def stroke1 : StrokeIn := ⟨63, 7, 0, 0, 0, 63, false, 0, 0, 0, false, 0, none⟩
/-- What a tick brings when nothing does. -/
def tick0 : TickIn := ⟨Vector.replicate 3 ⟨[], true⟩, Vector.replicate 3 [], Vector.replicate 16 [], true, true⟩
/-- Two encoder samples in and against the order in which they are taken. -/
def enc2 : List EncSample := [⟨9, true, false, 1, 1, 1⟩, ⟨8, true, true, 1, 1, 1⟩]

theorem test_wellFormed : (Instr.nop (let0 0 [])).wf ∧ (Instr.identify (tagged 0 1 [])).wf ∧ (Instr.servoTick 0 tick0).wf ∧
    (Instr.ssiRead 0 (ssiIn true)).wf ∧ (Instr.fieldLinkFrame 0 true true noDiag).wf ∧
    (Instr.interlockEvaluation 0 ⟨Vector.replicate 12 65535, 0, 0, 0⟩).wf ∧ (Instr.currentSample 0 ⟨Vector.replicate 3 [true], enc2⟩).wf ∧
    (Instr.statusSlotTx 0 car1).wf ∧ (Instr.statusSlotRx 0 false 1 0 (slotBytes slot9)).wf ∧ (Instr.bellStroke 0 stroke1).wf ∧
    (Instr.canFrameRx 0 0 frame1 true 0 quiet).wf ∧ (Instr.carLinkFrameRx 0 ⟨5, frameIn⟩).wf ∧
    (Instr.blindLevelling 0 0 0 (List.replicate 32 0#8)).wf ∧ (Instr.scrubberPass 0 0xFFFFFFFF 0).wf := by
  decide +kernel

theorem test_illFormed_letters :
    (Instr.nop { let0 0 [] with tag := 1 }).wf = false ∧ (Instr.sysBgenWrite { head1 with tag := 1 } 0).wf = false ∧
    (Instr.tableWrite (let0 2 (List.replicate 4081 0#8))).wf = false ∧
    (Instr.tableWrite (let0 3 (List.replicate 4073 0#8))).wf = false := by
  decide +kernel

theorem test_illFormed_samples :
    (Instr.servoTick 0 { tick0 with enc := Vector.replicate 3 ⟨enc2.reverse, true⟩ }).wf = false ∧
    (Instr.encFault 0 0 enc2.reverse true).wf = false ∧ (Instr.encZSync 0 1 enc2.reverse).wf = false ∧
    (Instr.ssiRead 0 { ssiIn true with data := 2 ^ 48 }).wf = false ∧ (Instr.ssiRead 0 { ssiIn true with status := 8 }).wf = false ∧
    (Instr.fieldLinkFrame 0 true true { noDiag with groupA := 65536 }).wf = false ∧
    (Instr.fieldLinkFrame 0 true true { noDiag with groupB := 65536 }).wf = false ∧
    (Instr.fieldLinkFrame 0 true true { noDiag with amps := Vector.replicate 32 65536 }).wf = false ∧
    (Instr.interlockEvaluation 0 ⟨Vector.replicate 12 65536, 0, 0, 0⟩).wf = false ∧
    (Instr.currentSample 0 ⟨Vector.replicate 3 [], enc2.reverse⟩).wf = false ∧
    (Instr.doorModulatorUpdate 0 ⟨655360, 0, Vector.replicate 3 0, []⟩).wf = false ∧
    (Instr.doorModulatorUpdate 0 ⟨0, 0, Vector.replicate 3 0, enc2.reverse⟩).wf = false ∧ (Instr.scrubberPass 0 (2 ^ 32) 0).wf = false := by
  decide +kernel

theorem test_illFormed_frames :
    (Instr.statusSlotTx 0 { car1 with state := 256 }).wf = false ∧ (Instr.statusSlotTx 0 { car1 with landing := 256 }).wf = false ∧
    (Instr.statusSlotTx 0 { car1 with dir := 256 }).wf = false ∧ (Instr.statusSlotTx 0 { car1 with pos := 2 ^ 24 }).wf = false ∧
    (Instr.statusSlotTx 0 { car1 with load := 256 }).wf = false ∧
    (Instr.statusSlotRx 0 false 1 0 (List.replicate 65 0#8)).wf = false ∧
    (Instr.bellStroke 0 { stroke1 with sender := 0 }).wf = false ∧ (Instr.bellYielded 0 { stroke1 with sender := 64 }).wf = false ∧
    (Instr.canFrameRx 0 0 { frame1 with id := 0x800 } true 0 quiet).wf = false ∧
    (Instr.canFrameRx 0 0 { frame1 with id := 2 ^ 29, xtd := true } true 0 quiet).wf = false ∧
    (Instr.canFrameRx 0 0 { frame1 with dlc := 16 } true 0 quiet).wf = false ∧
    (Instr.canFrameRx 0 0 { frame1 with brs := true } true 0 quiet).wf = false ∧
    (Instr.canFrameRx 0 0 { frame1 with fdf := true, rtr := true } true 0 quiet).wf = false ∧
    (Instr.canFrameRx 0 0 { frame1 with data := List.replicate 9 0#8 } true 0 quiet).wf = false ∧
    (Instr.canFrameRx 0 0 { frame1 with fdf := true, data := List.replicate 65 0#8 } true 0 quiet).wf = false ∧
    (Instr.busOff 0 0 { quiet with txc := 512 }).wf = false ∧ (Instr.canTxEnd 0 0 .sent { quiet with loopDly := 128 }).wf = false ∧
    (Instr.canLetterSegment 0 0 0 0 (List.replicate 65 0#8)).wf = false ∧ (Instr.resyncData 0 1 1 (List.replicate 65 0#8)).wf = false ∧
    (Instr.carLinkFrameRx 0 ⟨5, List.replicate 1519 0#8⟩).wf = false ∧
    (Instr.blindLevelling 0 0 0 (List.replicate 31 0#8)).wf = false := by
  decide +kernel

end Sys2Proof.Tests
end

/-! ### Letters that the gate turns away -/

namespace Sys2Proof.Machine

/-- A letter that is taken and that the gate turns away leaves the state after its refusal. -/
theorem serve_of_gate_error {opc : Nat} {h : Handler} {l q : Letter} {s t u : State} {i : OpInfo} {gap : Bool}
    (hi : opInfo opc = some i) (ht : (s.advance l.dt).taken opc l = some (q, gap, t)) (hg : t.gate opc i h q gap = .error u) :
    s.serve opc h l = u := by
  simp only [State.serve, hi, ht, hg]

/-- A letter outside class 3 and port 5 that passes the checks before the view is turned away where it needs the privileged
view (R16, R74). -/
theorem gate_notPrivileged {opc : Nat} {h : Handler} {q : Letter} {t : State} {i : OpInfo} {gap : Bool}
    (hc : i.classes.contains q.cls.val = true) (hl : i.len.ok q.payload = true)
    (hr : ¬ (t.pwr.phase = .recovery ∧ ¬ recoveryOpcode opc = true)) (ho : t.roleRefused opc = false) (hb : h.bad t q = none)
    (hn : h.needsPriv t q = true) (h3 : q.cls.val ≠ 3) (h5 : q.port.val ≠ 5) :
    t.gate opc i h q gap = .error (t.answer opc i.ctl q gap .notPrivileged 2 0 []) := by
  have hv : t.privCheck opc i.ctl q = .ok t := if_pos (.inl h3)
  have hp : privileged q = false := by simp [privileged, h3, h5]
  rw [State.gate, if_neg (not_not_intro hc), if_neg (not_not_intro hl), if_neg hr]
  simp [hv, ho, hb, hn, hp]

/-- A refused REG_WRITE leaves the state that its write answers with. -/
theorem conclude_regWrite_refused {i : OpInfo} {q : Letter} {gap : Bool} {t u : State} {st : Status} {d f : Nat}
    (hw : t.writeAt (u32 q.payload 0) (u32 q.payload 4) 0xFFFFFFFF = (some (st, d, f), u)) :
    t.conclude 0x003 i regWriteHandler q gap = u.answer 0x003 i.ctl q gap st d (word f) [] := by
  simp [State.conclude, regWriteHandler, hw, writeReply, refuseWith]

/-! ### Writes of registers -/

/-- What a write does that neither the role, a range, nor the register's block refuses. -/
theorem writeReg_of_unrefused {a v m : Nat} {t : State} (hf : t.foreign a = false)
    (ho : outOfRange a (newWord a (t.reg a) v m) m = false) (hv : t.valueBad a (newWord a (t.reg a) v m) m = false)
    (hb : t.blockRefused a (newWord a (t.reg a) v m) m (v &&& m) = none) (hm : m ≠ 0) :
    t.writeReg a v m = t.writeEffect a (newWord a (t.reg a) v m) v m := by
  simp [State.writeReg, hf, ho, hv, hb, hm]

/-- A value outside the ranges of its register is answered BAD_ARG, detail 4, and nothing is written (R567). -/
theorem writeReg_of_badValue {a v m : Nat} {t : State} (hf : t.foreign a = false)
    (hb : outOfRange a (newWord a (t.reg a) v m) m = true ∨ t.valueBad a (newWord a (t.reg a) v m) m = true) :
    t.writeReg a v m = (some (.badArg, 4, 0), t) := by
  simp [State.writeReg, hf, hb, noWrite']

/-- A register with an effect of its own has that effect alone. -/
theorem writeEffect_of_special {a new v m : Nat} {t : State} {r : WriteRes} (h : t.writeSpecial a v m = some r) :
    t.writeEffect a new v m = r := by
  simp only [State.writeEffect, h]

/-- A register with stored fields that is no half of a pair and not SENSE_LAND_CFG. -/
def plainStored (a : Nat) : Bool :=
  !pairAddrs.contains a && !pairAddrs.contains (a - 4) && a ≠ 0x40824 && !(regFields a).isEmpty

/-- A plain stored register, taken apart. -/
theorem plainStored_iff {a : Nat} : plainStored a = true ↔
    pairAddrs.contains a = false ∧ pairAddrs.contains (a - 4) = false ∧ a ≠ 0x40824 ∧ (regFields a).isEmpty = false := by
  simp only [plainStored, Bool.and_eq_true, Bool.not_eq_true', decide_eq_true_eq, and_assoc]

/-- A plain stored register takes the new word, and has its further effect. -/
theorem writeEffect_of_stored {a new v m : Nat} {t : State} (ha : plainStored a = true) (h : t.writeSpecial a v m = none) :
    t.writeEffect a new v m = (none, (t.setReg a new).afterWrite a (t.reg a) new m) := by
  obtain ⟨hlo, hhi, hland, hfields⟩ := plainStored_iff.1 ha
  simp only [State.writeEffect, h, hlo, hhi, hland, hfields, and_false, if_false, Bool.false_eq_true]

/-- All 32 bits of a word. -/
theorem word_and_full (v : Word) : v.toNat &&& 0xFFFFFFFF = v.toNat := by
  rw [show 0xFFFFFFFF = 2 ^ 32 - 1 from rfl, Nat.and_two_pow_sub_one_eq_mod, Nat.mod_eq_of_lt v.isLt]

/-- The row of a plain stored register completes with the store and the register's further effect. -/
theorem ServesWrite.of_stored {row : Head → Word → Instr} {a : Nat} {eff : Word → State → State}
    (he : ∀ h v s, exec (row h v) s = .next (s.writeRow h a v)) (ha : a < 0x100000) (hp : plainStored a = true)
    (hs : ∀ (v : Word) t, State.writeSpecial a v.toNat 0xFFFFFFFF t = none)
    (heff : ∀ v t, ((t.setReg a (written a v t)).afterWrite a (t.reg a) (written a v t) 0xFFFFFFFF) = eff v t) :
    ServesWrite row a (Allowed a) eff :=
  .of_write he ha fun v t hok => by rw [writeReg_allowed hok, writeEffect_of_stored hp (hs v t), heff]

/-- The row of a register without a stored field completes with the register's own effect. -/
theorem ServesWrite.of_special {row : Head → Word → Instr} {a : Nat} {ok : Word → State → Prop} {eff : Word → State → State}
    (he : ∀ h v s, exec (row h v) s = .next (s.writeRow h a v)) (ha : a < 0x100000)
    (hs : ∀ v t, ok v t → State.writeSpecial a v.toNat 0xFFFFFFFF t = some (none, eff v t)) :
    ServesWrite row a (fun v t => Allowed a v t ∧ ok v t) eff :=
  .of_write he ha fun v t hok => by rw [writeReg_allowed hok.1, writeEffect_of_special (hs v t hok.2)]

end Sys2Proof.Machine

/-! ### SYS_BGEN.GEN_NEXT out of range (R10) -/

namespace Sys2Proof.Machine

/-- The new word of SYS_BGEN holds the written GEN_NEXT. -/
theorem genNext_newWord (old : Nat) {v : Nat} (hv : v < 2 ^ 32) : bitsAt (newWord 0x14 old v 0xFFFFFFFF) 8 8 = bitsAt v 8 8 :=
  calc bitsAt (newWord 0x14 old v 0xFFFFFFFF) 8 8
      = bitsAt (putBits old 8 8 (bitsAt (mixBits old v 0xFFFFFFFF) 8 8)) 8 8 := rfl
    _ = bitsAt v 8 8 % 2 ^ 8 := by rw [bitsAt_putBits, mixBits_full old hv]
    _ = bitsAt v 8 8 := Nat.mod_mod _ _

/-- A GEN_NEXT of 0 or above GEN_MAX is answered BAD_ARG, detail 4, and nothing is written (R10). -/
theorem writeReg_genNext_bad {v : Nat} (t : State) (hv : v < 2 ^ 32) (hb : bitsAt v 8 8 = 0 ∨ Config.genMax < bitsAt v 8 8) :
    t.writeReg 0x14 v 0xFFFFFFFF = (some (.badArg, 4, 0), t) := by
  have hg := genNext_newWord (t.reg 0x14) hv
  have hm : bitsAt 0xFFFFFFFF 8 8 ≠ 0 := by decide
  have hq : q31Reg 0x14 = false := rfl
  have hf : regFields 0x14 = [{ lo := 8, len := 8, prw := true, mn := 1, dflt := 1 }] := rfl
  refine writeReg_of_badValue rfl (hb.imp (fun hzero => ?_) (fun habove => ?_))
  · simp [outOfRange, hf, hq, hg, hzero, hm]
  · simp [State.valueBad, hg, habove, hm]

/-- The register letter of the refused write is answered BAD_ARG, detail 4. -/
theorem conclude_genNext_bad {i : OpInfo} {q : Letter} {v : Word} (gap : Bool) (t : State)
    (hp : q.payload = bytesLE 4 0x14 ++ bytesLE 4 v.toNat) (hb : bitsAt v.toNat 8 8 = 0 ∨ Config.genMax < bitsAt v.toNat 8 8) :
    t.conclude 0x003 i regWriteHandler q gap = t.answer 0x003 i.ctl q gap .badArg 4 0 [] := by
  refine conclude_regWrite_refused ?_
  rw [hp, u32_addr _ (by decide), u32_value _ v.isLt]
  exact writeReg_genNext_bad t v.isLt hb

/-- Settles O48: the write refuses the value before it stores anything, and an answer changes neither registers nor flash. -/
theorem genNextOutOfRangeRefused : Obligations.GenNextOutOfRangeRefused := by
  intro l h w v s i q gap t hp hb
  have hframe := answerFrame_answer 0x003 i.ctl q gap .badArg 4 0 [] t
  refine ⟨fun had => ?_, fun had => ?_, ?_, ?_⟩
  · rw [← conclude_genNext_bad gap t hp hb, ← serve_of_admitted had]
    rfl
  · rw [← conclude_genNext_bad gap t hp hb, ← serve_of_admitted had]
    rfl
  · rw [hframe]
  · rw [hframe]

/-! ### Registers that need the privileged view (R16) -/

/-- The opcode row of REG_WRITE. -/
theorem opInfo_regWrite : opInfo 0x003 = some ⟨0x003, [1, 3], .fixed 8, 8, .b, 1⟩ := rfl

/-- A register with a PRW field needs the privileged view. -/
theorem regWrite_needsPriv {q : Letter} {t : State} (ha : u32 q.payload 0 < 0x100000)
    (hp : (regFields (u32 q.payload 0)).any (·.prw) = true) : regWriteHandler.needsPriv t q = true := by
  simp [regWriteHandler, writeNeedsPriv, privReg, ha, hp]

/-- An aligned register address is no bad argument of REG_WRITE. -/
theorem regWrite_bad_none {q : Letter} {t : State} (ha : u32 q.payload 0 < 0x100000) (h4 : u32 q.payload 0 % 4 = 0) :
    regWriteHandler.bad t q = none := by
  simp [regWriteHandler, regWriteOk, ha, h4]

/-- Settles O49: the gate turns the letter away at the view, and an answer stays within its frame. -/
theorem privilegedRegistersNeedTheView : Obligations.PrivilegedRegistersNeedTheView := by
  intro l q gap s t a ht hcls hport hlen hphase ha hlt h4 hprw
  subst ha
  refine ⟨_, ?_, rfl, answerFrame_answer 0x003 8 q gap .notPrivileged 2 0 [] t⟩
  have hgate := gate_notPrivileged (opc := 0x003) (gap := gap) (i := ⟨0x003, [1, 3], .fixed 8, 8, .b, 1⟩)
    (by simp [hcls]) (decide_eq_true hlen) (fun hr => hphase hr.1) rfl (regWrite_bad_none (t := t) hlt h4)
    (regWrite_needsPriv hlt hprw) (by omega) hport
  exact congrArg _ (serve_of_gate_error opInfo_regWrite ht hgate)

/-! ### The register writes of SYS, LETTERBOX, LANE and PWR -/

/-- LETTER_SHARE is a plain stored register of each of the six ports. -/
theorem plainStored_letterShare : ∀ p : Fin 6, plainStored (0x10010 + 4 * p.val) = true := by
  decide

/-- LETTER_SHARE has no effect of its own. -/
theorem writeSpecial_letterShare (p : Fin 6) (v m : Nat) (t : State) : t.writeSpecial (0x10010 + 4 * p.val) v m = none := by
  simp (disch := omega) only [State.writeSpecial, if_neg]

/-- LETTER_SHARE only stores its field. -/
theorem afterWrite_letterShare (p : Fin 6) (old new m : Nat) (t : State) : t.afterWrite (0x10010 + 4 * p.val) old new m = t := by
  simp (disch := omega) only [State.afterWrite, State.loopAfter, if_neg]

/-- A write of SYS_KEYCTL with the CRC-32C of the staged bytes (R534). -/
theorem writeSpecial_keyctl {v : Word} {t : State} (h : crc32c t.flash.stage = v) :
    t.writeSpecial 0x80 v.toNat 0xFFFFFFFF =
      some (none, t.setFlash { t.flash with key := some t.flash.stage, stage := List.replicate 32 0#8 }) := by
  subst h
  simp [State.writeSpecial, State.keyctl, word_and_full]

/-- A write of 0 to LANE_TKSTOP while cause TAKEOVER stands (R369). -/
theorem writeSpecial_tkstop {v : Word} {t : State} (hv : v.toNat % 2 = 0) (ht : t.lane.tkstop = true) :
    t.writeSpecial 0x8003C v.toNat 0xFFFFFFFF = some (none, (t.setLane { t.lane with tkstop := false }).post 0x070B 0x200) := by
  have hm : bitAt 0xFFFFFFFF 0 = true := by decide
  simp [State.writeSpecial, State.tkstopClear, word_and_full, hv, ht, hm]

/-- ENC_PWR after a write to PWR_CFG (R505): off with ENCPWR 0, left as it is by an unacknowledged fault, else on. -/
theorem encPower_eq (u : State) : u.encPower =
    if u.fld 0xF0004 2 1 = 0 then u.setPwr { u.pwr with encOn := false, encFault := u.pwr.encFault.map fun _ => true }
    else if u.pwr.encFault = some false then u
    else u.setPwr { u.pwr with encOn := decide (u.pwr.mode ≠ .sleep), encFault := none } := by
  unfold State.encPower
  rcases h : u.pwr.encFault with _ | _ | _ <;> simp [h]

/-- Settles O6: each row through the one write path, with its register's store or own effect. -/
theorem systemRegisterWritesComplete : Obligations.SystemRegisterWritesComplete := by
  refine ⟨?bgen, ?tick, ?budget, fun p => ?share, ?keyctl, ?tkstop, ?encPwr⟩
  case bgen => exact .of_stored (fun _ _ _ => rfl) (by decide) rfl (fun _ _ => rfl) fun _ _ => rfl
  case tick => exact .of_stored (fun _ _ _ => rfl) (by decide) rfl (fun _ _ => rfl) fun _ _ => rfl
  case budget => exact .of_stored (fun _ _ _ => rfl) (by decide) rfl (fun _ _ => rfl) fun _ _ => rfl
  case share =>
    exact .of_stored (fun _ _ _ => rfl) (by omega) (plainStored_letterShare p) (fun _ _ => writeSpecial_letterShare p ..)
      fun _ _ => afterWrite_letterShare p ..
  case keyctl => exact .of_special (fun _ _ _ => rfl) (by decide) fun _ _ hcrc => writeSpecial_keyctl hcrc
  case tkstop => exact .of_special (fun _ _ _ => rfl) (by decide) fun _ _ ⟨hv, ht⟩ => writeSpecial_tkstop hv ht
  case encPwr => exact .of_stored (fun _ _ _ => rfl) (by decide) rfl (fun _ _ => rfl) fun _ _ => encPower_eq _

/-! ### REG_READ, REG_WRITE and REG_MODIFY -/

/-- A read of a register that no view conflict bars. -/
theorem readAt_register {a : Nat} {t : State} (ha : a < 0x100000) (hv : t.viewBusy a = false) : t.readAt a = .ok (t.readReg a) := by
  simp [State.readAt, ha, hv]

/-- A read of a word of memory without an uncorrectable error. -/
theorem readAt_memory {a : Nat} {t : State} (ha : 0x100000 ≤ a) (he : (t.eccRead a 4).1 = none) :
    t.readAt a = .ok (natLE ((t.eccRead a 4).2.bytesAt a 4), (t.eccRead a 4).2) := by
  simp [State.readAt, Nat.not_lt.2 ha, he]

/-- An unrefused write of a plain stored register: the new word stored, and its further effect. -/
theorem writeAt_stored {a v m : Nat} {t : State} (ha : a < 0x100000) (hp : plainStored a = true) (hf : t.foreign a = false)
    (ho : outOfRange a (newWord a (t.reg a) v m) m = false) (hv : t.valueBad a (newWord a (t.reg a) v m) m = false)
    (hb : t.blockRefused a (newWord a (t.reg a) v m) m (v &&& m) = none) (hm : m ≠ 0) (hs : t.writeSpecial a v m = none) :
    t.writeAt a v m =
      (none, (t.setReg a (newWord a (t.reg a) v m)).afterWrite a (t.reg a) (newWord a (t.reg a) v m) m) := by
  rw [State.writeAt, if_pos ha, writeReg_of_unrefused hf ho hv hb hm, writeEffect_of_stored hp hs]

/-- A write of a word of memory outside an active capture (R36, R39). -/
theorem writeAt_memory {a v m : Nat} {t : State} (ha : 0x100000 ≤ a) (hc : t.captureAt a 4 = none)
    (he : t.eccPartial a 4 = none) :
    t.writeAt a v m =
      (none, ((t.mem.soft.filter (touches a 4)).foldl (fun s w => s.eccCorrect w) t).storeBytes a (bytesLE 4 v)) := by
  simp [State.writeAt, Nat.not_lt.2 ha, State.writeWord, hc, he]

/-- REG_READ answers what the read shows. -/
theorem regRead_run {q : Letter} {t : State} {x : Nat × State} (h : t.readAt (u32 q.payload 0) = .ok x) :
    regReadHandler.run q t =
      (.done (word x.1) [], if u32 q.payload 0 < 0x100000 then x.2.readClear (u32 q.payload 0) else x.2) := by
  simp only [regReadHandler, h]

/-- REG_WRITE answers DONE with what the write leaves. -/
theorem regWrite_run {q : Letter} {t u : State} (h : t.writeAt (u32 q.payload 0) (u32 q.payload 4) 0xFFFFFFFF = (none, u)) :
    regWriteHandler.run q t = (.done 0 [], u) := by
  simp only [regWriteHandler, h, writeReply]
  rfl

/-- REG_MODIFY of a register answers the word read, with what the write after the read leaves (R570). -/
theorem regModify_run {q : Letter} {t u : State} {x : Nat × State} (ha : u32 q.payload 0 < 0x100000)
    (hr : t.readAt (u32 q.payload 0) = .ok x)
    (hw : x.2.writeAt (u32 q.payload 0) (u32 q.payload 8) (u32 q.payload 4) = (none, u)) :
    regModifyHandler.run q t = (.done (word x.1) [], u) := by
  simp [regModifyHandler, hr, ha, hw, writeReply]

/-- Settles O3: the read, the write path and the store of a word, each run by its handler. -/
theorem registerLettersComplete : Obligations.RegisterLettersComplete := by
  refine ⟨?read, ?readMem, fun a ha hlo hhi hland hflds => ⟨?write, fun m v hm => ?modify⟩, fun a ha => ?writeMem⟩
  case read =>
    refine .of_run (fun _ _ => rfl) (fun q t ⟨ha, hv⟩ => ?_) fun _ _ _ => rfl
    rw [regRead_run (readAt_register ha hv), if_pos ha]
  case readMem =>
    refine .of_run (fun _ _ => rfl) (fun q t ⟨ha, he⟩ => ?_) fun _ _ _ => rfl
    rw [regRead_run (readAt_memory ha he), if_neg (Nat.not_lt.2 ha)]
  case write =>
    have hp := plainStored_iff.2 ⟨hlo, hhi, hland, hflds⟩
    refine .of_run (fun _ _ => rfl) (fun q t ⟨hq, hf, ho, hv, hb, hs⟩ => ?_) fun _ _ _ => rfl
    subst hq
    exact regWrite_run (writeAt_stored ha hp hf ho hv hb (by decide) hs)
  case modify =>
    have hp := plainStored_iff.2 ⟨hlo, hhi, hland, hflds⟩
    refine .of_run (fun _ _ => rfl) (fun q t ⟨hq, hqm, hqv, hbusy, hf, ho, hv, hb, hs⟩ => ?_) fun _ _ _ => rfl
    subst hq hqm hqv
    exact regModify_run ha (readAt_register ha hbusy) (writeAt_stored ha hp hf ho hv hb hm hs)
  case writeMem =>
    refine .of_run (fun _ _ => rfl) (fun q t ⟨hq, hc, he⟩ => ?_) fun _ _ _ => rfl
    subst hq
    exact regWrite_run (writeAt_memory ha hc he)

/-! ### Resets, the reset sequence and boot -/

/-- BROWN_OUT with both supplies below 9.5 V (R504). -/
theorem execBrownOut_low {dt vlog vkeep : Nat} (s : State) (hl : vlog < 9500) (hk : vkeep < 9500) : execBrownOut dt vlog vkeep s =
    .next (((s.advance dt).setPwr { (s.advance dt).pwr with vlog := vlog, vkeep := vkeep }).moduleReset 3 .held) := by
  simp only [execBrownOut, hl, hk, and_self, if_true]

/-- SUPPLY_STABLE on mains: the held supply goes on to the sequence (R503). -/
theorem execSupplyStable_mains {dt mv : Nat} {since : Postmark} {s t : State} (ht : s.advance dt = t) (hp : t.pwr.phase = .held)
    (hs : since + 800000 ≤ t.now) (hv : 18000 ≤ mv) : execSupplyStable dt ⟨false, mv, since⟩ s = .next (t.setPwr { t.pwr with
      phase := .sequence, seqAt := t.now, mains := true, onVkeep := false, vlog := mv, lostAt := none, rescued := false }) := by
  simp [execSupplyStable, ht, hp, Nat.not_lt.2 hs, Nat.not_lt.2 hv]

/-- SUPPLY_STABLE on VKEEP: the same, with mains lost from now where it was not lost before (R503, R539). -/
theorem execSupplyStable_vkeep {dt mv : Nat} {since : Postmark} {s t : State} (ht : s.advance dt = t) (hp : t.pwr.phase = .held)
    (hs : since + 800000 ≤ t.now) (hv : 10000 ≤ mv) : execSupplyStable dt ⟨true, mv, since⟩ s = .next (t.setPwr { t.pwr with
      phase := .sequence, seqAt := t.now, mains := false, onVkeep := true, vkeep := mv,
      lostAt := some (t.pwr.lostAt.getD t.now) }) := by
  simp only [execSupplyStable, ht, hp, Nat.not_lt.2 hs, Nat.not_lt.2 hv, ne_eq, not_true_eq_false, if_true, or_self, if_false]
  cases t.pwr.lostAt <;> rfl

/-- The reset sequence ends with three equal valid straps: lane A is released in that role (R2, R524). -/
theorem execModuleResetSequence_valid {dt : Nat} {r : BitVec 2} {s t : State} (ht : s.advance dt = t) (hp : t.pwr.phase = .sequence)
    (he : t.sequenceEnds = true) (hr : r = 1#2 ∨ r = 2#2) : execModuleResetSequence dt ⟨#[r, r, r], rfl⟩ s =
      .next ({ t with sys := { t.sys with strap := r, agree := true, role := r } }.setPwr
        { t.pwr with phase := .released, releasedAt := t.now }) := by
  have hok : strapOk r = true := by simpa [strapOk] using hr
  simp [execModuleResetSequence, ht, hp, he, hok]

/-- The reset sequence ends with straps that differ or are not valid: both lanes stay held, and event 1 shows the codes (R2, R3). -/
theorem execModuleResetSequence_bad {dt : Nat} {straps : Vector (BitVec 2) 3} {s t : State} (ht : s.advance dt = t)
    (hp : t.pwr.phase = .sequence) (he : t.sequenceEnds = true)
    (hc : ¬ (straps[0] = straps[1] ∧ straps[1] = straps[2] ∧ (straps[2] = 1#2 ∨ straps[2] = 2#2))) :
    ∃ u : State, execModuleResetSequence dt straps s =
        .next (u.post 1 (straps[0].toNat + 256 * straps[1].toNat + 65536 * straps[2].toNat)) ∧
      u.sys.role = 0 ∧ u.pwr.phase = .strapBad ∧ u.lane.laneA = .held ∧ u.lane.laneB = .held := by
  have hok : (decide (straps[0] = straps[1]) && decide (straps[1] = straps[2]) && strapOk straps[2]) = false := by
    simpa [strapOk] using hc
  simp only [execModuleResetSequence, ht, hp, he, hok, ne_eq, not_true_eq_false, Bool.not_true, Bool.false_eq_true,
    or_self, if_false]
  exact ⟨_, rfl, rfl, rfl, rfl, rfl⟩

/-- BOOT from the bank that the activation record and the firmware checks select (R527, R538). -/
theorem execBoot_bank {dt : Nat} {bad fails fb : Bool} {b : Fin 2} {s t : State} (ht : s.advance dt = t)
    (hp : t.pwr.phase = .released) (hb : t.flash.erased.bootBank = some (b, fb)) :
    execBoot dt bad fails s = .next ((t.setFlash t.flash.erased).bootFrom b fb bad fails) := by
  simp [execBoot, ht, hp, hb]

/-- BOOT with no bank that passes: the recovery service (R527). -/
theorem execBoot_recover {dt : Nat} {bad fails : Bool} {s t : State} (ht : s.advance dt = t)
    (hp : t.pwr.phase = .released) (hb : t.flash.erased.bootBank = none) :
    execBoot dt bad fails s = .next ((t.setFlash t.flash.erased).recover fails) := by
  simp [execBoot, ht, hp, hb]

/-- BOOT_DONE after the last stored letter (R529). -/
theorem execBootDone_last {dt : Nat} {s t : State} (ht : s.advance dt = t) (hp : t.pwr.phase = .run ∨ t.pwr.phase = .recovery)
    (hd : t.pwr.bootDone = false) (hq : t.portQueue 5 = []) (hh : t.lb.held5 = []) :
    execBootDone dt s = .next ((t.setPwr { t.pwr with
      bootDone := true, bootTime := min ((t.now - t.pwr.releasedAt) / 8000) 0xFFFF, lostAt := t.pwr.lostAt.map (fun _ => t.now) }).post
        0xB (min ((t.now - t.pwr.releasedAt) / 8000) 0xFFFF)) := by
  simp only [execBootDone, ht, hp, hd, hq, hh, List.isEmpty_nil, and_self, if_true]

/-- Settles O31: one lemma for each row and branch. -/
theorem resetAndBootComplete : Obligations.ResetAndBootComplete := by
  refine ⟨fun dt s t ht => ?_, fun dt vlog vkeep s t ht hl hk => ?_, fun dt s t ht => ?_,
    fun dt mv since s t ht hp hs => ⟨execSupplyStable_mains ht.symm hp hs, execSupplyStable_vkeep ht.symm hp hs⟩,
    fun dt r s t ht hp he hr => execModuleResetSequence_valid ht.symm hp he hr,
    fun dt p q r s t ht hp he hr => execModuleResetSequence_bad ht.symm hp he hr,
    fun dt bad fails s t ht hp => ⟨fun b fb hb => execBoot_bank ht.symm hp hb, fun hb => execBoot_recover ht.symm hp hb⟩,
    fun dt s t ht hp hd hq hh => execBootDone_last ht.symm hp hd hq hh⟩
  · subst ht
    rfl
  · subst ht
    exact execBrownOut_low s hl hk
  · subst ht
    rfl

end Sys2Proof.Machine

/-! ### The general and memory letters -/

namespace Sys2Proof.Machine

/-- A read of a range without an uncorrectable word gives its bytes, soft errors corrected (R37, R38). -/
theorem readMem_of_clean {a n : Nat} {t : State} (h : (t.eccRead a n).1 = none) :
    t.readMem a n = .ok ((t.eccRead a n).2.bytesAt a n, (t.eccRead a n).2) := by
  simp only [State.readMem, h]

/-- TABLE_READ of a range without an uncorrectable word answers the bytes. -/
theorem tableRead_run {q : Letter} {t : State} (h : (t.eccRead (u32 q.payload 0) (u32 q.payload 4)).1 = none) :
    tableReadHandler.run q t =
      (.done 0 ((t.eccRead (u32 q.payload 0) (u32 q.payload 4)).2.bytesAt (u32 q.payload 0) (u32 q.payload 4)),
        (t.eccRead (u32 q.payload 0) (u32 q.payload 4)).2) := by
  simp only [tableReadHandler, handler, readMem_of_clean h]

/-- TABLE_CHECK of a range without an uncorrectable word answers the CRC-32C of the bytes. -/
theorem tableCheck_run {q : Letter} {t : State} (h : (t.eccRead (u32 q.payload 0) (u32 q.payload 4)).1 = none) :
    tableCheckHandler.run q t =
      (.done (crc32c ((t.eccRead (u32 q.payload 0) (u32 q.payload 4)).2.bytesAt (u32 q.payload 0) (u32 q.payload 4))) [],
        (t.eccRead (u32 q.payload 0) (u32 q.payload 4)).2) := by
  simp only [tableCheckHandler, handler, readMem_of_clean h]

/-- TABLE_WRITE writes the bytes of its payload. -/
theorem tableWrite_run (q : Letter) (t : State) :
    tableWriteHandler.run q t = t.writeMem (u32 q.payload 0) (slice q.payload 8 (u32 q.payload 4)) := rfl

/-- TABLE_FILL writes copies of its pattern. -/
theorem tableFill_run (q : Letter) (t : State) :
    tableFillHandler.run q t = t.writeMem (u32 q.payload 0) (fillBytes (u32 q.payload 8) (u32 q.payload 4 / 4)) := rfl

/-- A table letter without a byte to write changes nothing. -/
theorem writeMem_nil (a : Nat) (t : State) : t.writeMem a [] = (.done 0 [], t) := rfl

/-- A table letter whose bytes no block uses, and which writes no uncorrectable word in part, stores them (R36, R39). -/
theorem writeMem_free {a : Nat} {bs : List Byte} {t : State} (hbs : bs ≠ []) (hused : t.firstUsed a bs.length = none)
    (hprog : t.progInUse a bs.length = false) (hpart : t.eccPartial a bs.length = none) :
    t.writeMem a bs = (.done 0 [],
      ((t.mem.soft.filter (partWord a bs.length)).foldl (fun s w => s.eccCorrect w) t).storeBytes a bs) := by
  have hlen : bs.length ≠ 0 := mt List.length_eq_zero_iff.1 hbs
  simp only [State.writeMem, if_neg hlen, hused, hprog, hpart, doneWith, Bool.false_eq_true, if_false]

/-- Settles O2: each row through the one service path, with what its handler runs. -/
theorem generalLettersComplete : Obligations.GeneralLettersComplete := by
  refine ⟨?nop, ?identify, ?read, ?check, fun a bs hbs => ?write, fun a bs hbs => ?fill, ?writeNone, ?fillNone, ?abort⟩
  case nop => exact .of_run (fun _ _ => rfl) (fun _ _ _ => rfl) fun _ _ _ => rfl
  case identify => exact .of_run (fun _ _ => rfl) (fun _ _ _ => rfl) fun _ _ _ => rfl
  case read => exact .of_run (fun _ _ => rfl) (fun _ _ hclean => tableRead_run hclean) fun _ _ _ => rfl
  case check => exact .of_run (fun _ _ => rfl) (fun _ _ hclean => tableCheck_run hclean) fun _ _ _ => rfl
  case write =>
    refine .of_run (fun _ _ => rfl) (fun q t ⟨ha, hb, hused, hprog, hpart⟩ => ?_) fun _ _ _ => rfl
    rw [tableWrite_run, ha, hb]
    exact writeMem_free hbs hused hprog hpart
  case fill =>
    refine .of_run (fun _ _ => rfl) (fun q t ⟨ha, hb, hused, hprog, hpart⟩ => ?_) fun _ _ _ => rfl
    rw [tableFill_run, ha, hb]
    exact writeMem_free hbs hused hprog hpart
  case writeNone =>
    refine .of_run (fun _ _ => rfl) (fun q t hnone => ?_) fun _ _ _ => rfl
    rw [tableWrite_run, hnone]
    exact writeMem_nil _ t
  case fillNone =>
    refine .of_run (fun _ _ => rfl) (fun q t hnone => ?_) fun _ _ _ => rfl
    rw [tableFill_run, hnone]
    exact writeMem_nil _ t
  case abort => exact .of_run (fun _ _ => rfl) (fun _ _ _ => rfl) fun _ _ _ => rfl

end Sys2Proof.Machine

/-! ### SESSION_OPEN (R64, R67, R68) -/

namespace Sys2Proof.Machine

/-- SESSION_OPEN step 1 without a lockout or a session elsewhere. -/
theorem session_run_challenge {q : Letter} {t : State} (hstep : u32 q.payload 0 = 1) (hlock : t.lockedOut = false)
    (hother : t.otherSession q.port = none) : sessionHandler.run q t = t.sessionChallenge q := by
  have h3 : u32 q.payload 0 ≠ 3 := by omega
  simp only [sessionHandler, handler, if_neg h3, hlock, Bool.false_eq_true, if_false, hother, if_pos hstep]

/-- SESSION_OPEN step 2 without a lockout or a session elsewhere. -/
theorem session_run_prove {q : Letter} {t : State} (hstep : u32 q.payload 0 = 2) (hlock : t.lockedOut = false)
    (hother : t.otherSession q.port = none) : sessionHandler.run q t = t.sessionProve q := by
  have h1 : u32 q.payload 0 ≠ 1 := by omega
  have h3 : u32 q.payload 0 ≠ 3 := by omega
  simp only [sessionHandler, handler, if_neg h3, hlock, Bool.false_eq_true, if_false, hother, if_neg h1]

/-- SESSION_OPEN step 3. -/
theorem session_run_close {q : Letter} {t : State} (hstep : u32 q.payload 0 = 3) :
    sessionHandler.run q t = t.sessionClose q := by
  simp only [sessionHandler, handler, if_pos hstep]

/-- A valid tag over a challenge of at most 10 s opens the session and uses the challenge up (R64). -/
theorem sessionProve_valid {q : Letter} {t : State} {c : Challenge} (hc : t.lb.challenges[q.port] = some c)
    (hage : t.now ≤ c.pm + 800000000) (htag : t.tagFor c.value 0x0F1 4 q = q.tag.toNat) :
    t.sessionProve q = (.done 0 [], { t with lb := { t.lb with
      challenges := t.lb.challenges.set q.port none,
      session := some { port := q.port, challenge := c.value, lastSeq := q.seq.toNat, lastDone := t.now } } }) := by
  simp only [State.sessionProve, hc, hage, htag, and_self, if_true]

/-- The session on the letter's port ends (R67). -/
theorem sessionClose_own {q : Letter} {t : State} {x : Session} (hx : t.lb.session = some x) (hport : x.port = q.port) :
    t.sessionClose q = (.done 0 [], t.endSession) := by
  simp only [State.sessionClose, hx, if_neg (not_not_intro hport), doneWith]

/-- Settles O4: the three steps of the one handler. -/
theorem sessionLettersComplete : Obligations.SessionLettersComplete := by
  refine ⟨?challenge, fun c => ?prove, fun x => ?close⟩
  case challenge =>
    exact .of_run (fun _ _ => rfl) (fun _ _ ⟨hstep, hlock, hother⟩ => session_run_challenge hstep hlock hother) fun _ _ _ => rfl
  case prove =>
    refine .of_run (fun _ _ => rfl) (fun q t ⟨hstep, hlock, hother, hc, hage, htag⟩ => ?_) fun _ _ _ => rfl
    exact (session_run_prove hstep hlock hother).trans (sessionProve_valid hc hage htag)
  case close =>
    refine .of_run (fun _ _ => rfl) (fun q t ⟨hstep, hx, hport⟩ => ?_) fun _ _ _ => rfl
    exact (session_run_close hstep).trans (sessionClose_own hx hport)

end Sys2Proof.Machine

/-! ### A letter taken and passed by the gate (R74, R75) -/

namespace Sys2Proof.Machine

/-- A letter taken that the gate passes is admitted with the gate's state. -/
theorem admitted_of_gate {opc : Nat} {h : Handler} {l q : Letter} {gap : Bool} {s u v : State} {i : OpInfo}
    (hi : opInfo opc = some i) (ht : (s.advance l.dt).taken opc l = some (q, gap, u)) (hg : u.gate opc i h q gap = .ok v) :
    State.admitted opc h l s = some (i, q, gap, v) := by
  simp only [State.admitted, hi, ht, hg]

/-- The gate passes a letter with the state that check 1 of R74 leaves, where no later check objects. -/
theorem gate_ok {opc : Nat} {i : OpInfo} {h : Handler} {q : Letter} {gap : Bool} {u v : State}
    (hcls : i.classes.contains q.cls.val = true) (hlen : i.len.ok q.payload = true)
    (hrec : u.pwr.phase = .recovery → recoveryOpcode opc = true) (hpriv : u.privCheck opc i.ctl q = .ok v)
    (hrole : v.roleRefused opc = false) (hbad : h.bad v q = none)
    (hview : h.needsPriv v q = true → privileged q = true) : u.gate opc i h q gap = .ok v := by
  have hview' : (h.needsPriv v q && !privileged q) = false := by
    cases hn : h.needsPriv v q with
    | false => rfl
    | true => simp only [hview hn, Bool.not_true, Bool.and_false]
  rw [State.gate, if_neg (not_not_intro hcls), if_neg (not_not_intro hlen), if_neg (fun hr => hr.2 (hrec hr.1))]
  simp only [hpriv, hrole, hbad, hview', Bool.false_eq_true, if_false]

/-- The privileged view, taken apart. -/
theorem privileged_iff {q : Letter} : privileged q = true ↔ q.cls.val = 3 ∨ q.port.val = 5 := by
  simp only [privileged, Bool.or_eq_true, decide_eq_true_eq]

/-- Check 1 of R74 leaves a letter outside class 3, one of port 5, and steps 1 and 2 of SESSION_OPEN. -/
theorem privCheck_exempt {opc k : Nat} {q : Letter} {u : State}
    (h : q.cls.val ≠ 3 ∨ q.port.val = 5 ∨ (opc = 0x0F1 ∧ u32 q.payload 0 ≠ 3)) : u.privCheck opc k q = .ok u :=
  if_pos h

/-- Check 1 of R74 passes a class 3 letter of the session's port with its tag and a rising sequence number, which the session then
keeps (R63-R66). -/
theorem privCheck_session {opc k : Nat} {q : Letter} {u : State} {x : Session} (hcls : q.cls.val = 3) (hport : q.port.val ≠ 5)
    (hstep : ¬ (opc = 0x0F1 ∧ u32 q.payload 0 ≠ 3)) (hx : u.lb.session = some x) (hown : x.port = q.port)
    (htag : u.tagFor x.challenge opc k q = q.tag.toNat) (hseq : x.lastSeq < q.seq.toNat) :
    u.privCheck opc k q = .ok { u with lb := { u.lb with session := some { x with lastSeq := q.seq.toNat } } } := by
  have hchecked : ¬ (q.cls.val ≠ 3 ∨ q.port.val = 5 ∨ (opc = 0x0F1 ∧ u32 q.payload 0 ≠ 3)) := by
    rintro (hc | hp | hs)
    · exact hc hcls
    · exact hport hp
    · exact hstep hs
  simp only [State.privCheck, if_neg hchecked, hx, if_neg (not_not_intro hown), if_neg (Nat.not_le.2 hseq),
    if_neg (not_not_intro htag)]

/-- The queued letter next in the order of service is taken at the instant at which its charge is used up (R75). -/
theorem taken_next {opc : Nat} {l : Letter} {t : State} {x : Queued} (hx : nextQueued t.lb.queue = some x)
    (hserve : t.serving = true) (hroom : t.lane.jtick < 256) (hsame : sameLetter opc l x = true)
    (hend : t.chargeEnds x.cost = true) :
    t.taken opc l = some (x.letter, x.gap,
      ({ t with lb := { t.lb with queue := t.lb.queue.erase x, charged := 0 } } : State).admitHeld) := by
  simp only [State.taken, hx, hserve, hroom, hsame, hend, decide_true, Bool.and_self, if_true]

/-- Settles O42: what takes the letter, and the gate with each of the two ways through check 1 of R74. -/
theorem letterAdmittedWhenChecksPass : Obligations.LetterAdmittedWhenChecksPass := by
  intro opc h l q gap s u v i hi hserve hroom
  refine ⟨fun x hx hsame hend hq hgap hu => ?taken, fun ht hcls hlen hrec hrole => ⟨?exempt, ?session⟩⟩
  case taken =>
    subst hq hgap hu
    exact taken_next hx hserve hroom hsame hend
  case exempt =>
    intro hv hfree hbad hview
    subst hv
    exact admitted_of_gate hi ht (gate_ok hcls hlen hrec (privCheck_exempt hfree) hrole hbad fun hn =>
      privileged_iff.2 (hview hn))
  case session =>
    intro x h3 h5 hstep hx hown htag hseq hv hbad
    subst hv
    exact admitted_of_gate hi ht (gate_ok hcls hlen hrec (privCheck_session h3 h5 hstep hx hown htag hseq) hrole hbad fun _ =>
      privileged_iff.2 (.inl h3))

end Sys2Proof.Machine

/-! ### What a receipt leaves unchanged (R58, R60, R76, R77, R359) -/

namespace Sys2Proof.Machine

/-- A receipt sent changes the letterbox alone. -/
theorem sendReceipt_eq (p : Fin 6) (a : Addr) (r : Receipt) (s : State) :
    s.sendReceipt p a r = { s with lb := (s.sendReceipt p a r).lb } := by
  unfold State.sendReceipt
  split <;> rfl

@[simp] theorem State.sendReceipt_ev (s : State) (p : Fin 6) (a : Addr) (r : Receipt) : (s.sendReceipt p a r).ev = s.ev := by
  rw [sendReceipt_eq]
@[simp] theorem State.sendReceipt_loop (s : State) (p : Fin 6) (a : Addr) (r : Receipt) :
    (s.sendReceipt p a r).loop = s.loop := by
  rw [sendReceipt_eq]
@[simp] theorem State.sendReceipt_lane (s : State) (p : Fin 6) (a : Addr) (r : Receipt) :
    (s.sendReceipt p a r).lane = s.lane := by
  rw [sendReceipt_eq]
@[simp] theorem State.sendReceipt_mem (s : State) (p : Fin 6) (a : Addr) (r : Receipt) :
    (s.sendReceipt p a r).mem = s.mem := by
  rw [sendReceipt_eq]
@[simp] theorem State.sendReceipt_queue (s : State) (p : Fin 6) (a : Addr) (r : Receipt) :
    (s.sendReceipt p a r).lb.queue = s.lb.queue := by
  unfold State.sendReceipt
  split <;> rfl

/-- A letter counted in the port's session changes the letterbox alone. -/
theorem sessionDone_eq (p : Fin 6) (op16 : Nat) (s : State) :
    s.sessionDone p op16 = { s with lb := (s.sessionDone p op16).lb } := by
  unfold State.sessionDone
  split
  · split <;> rfl
  · rfl

@[simp] theorem State.sessionDone_ev (s : State) (p : Fin 6) (o : Nat) : (s.sessionDone p o).ev = s.ev := by
  rw [sessionDone_eq]
@[simp] theorem State.sessionDone_loop (s : State) (p : Fin 6) (o : Nat) : (s.sessionDone p o).loop = s.loop := by
  rw [sessionDone_eq]
@[simp] theorem State.sessionDone_lane (s : State) (p : Fin 6) (o : Nat) : (s.sessionDone p o).lane = s.lane := by
  rw [sessionDone_eq]
@[simp] theorem State.sessionDone_mem (s : State) (p : Fin 6) (o : Nat) : (s.sessionDone p o).mem = s.mem := by
  rw [sessionDone_eq]

@[simp] theorem State.finish_ev (s : State) (f : Finished) : (s.finish f).ev = s.ev := rfl
@[simp] theorem State.finish_loop (s : State) (f : Finished) : (s.finish f).loop = s.loop := rfl
@[simp] theorem State.finish_lane (s : State) (f : Finished) : (s.finish f).lane = s.lane := rfl
@[simp] theorem State.finish_mem (s : State) (f : Finished) : (s.finish f).mem = s.mem := rfl
@[simp] theorem State.finish_queue (s : State) (f : Finished) : (s.finish f).lb.queue = s.lb.queue := rfl

@[simp] theorem State.journal_ev (s : State) (k : Nat) (st : Status) (d : Nat) (pm : Postmark) (hd c : List Byte) (f : Word) :
    (s.journal k st d pm hd c f).ev = s.ev := rfl
@[simp] theorem State.journal_loop (s : State) (k : Nat) (st : Status) (d : Nat) (pm : Postmark) (hd c : List Byte) (f : Word) :
    (s.journal k st d pm hd c f).loop = s.loop := rfl

/-- A letter answered DONE is no dead letter: the event ring and a waiting capture stay as they were. -/
theorem answer_done_ev_loop (opc k : Nat) (q : Letter) (gap : Bool) (d : Nat) (f : Word) (tail : List Byte) (t : State) :
    (t.answer opc k q gap .done d f tail).ev = t.ev ∧ (t.answer opc k q gap .done d f tail).loop = t.loop := by
  have hlive : ¬ (2 ≤ Status.done.code ∧ Status.done.code ≤ 8) := by decide
  simp only [State.answer, if_neg hlive, reduceCtorEq, if_false, if_true, State.sessionDone_ev, State.sessionDone_loop,
    State.finish_ev, State.finish_loop, apply_ite State.ev, apply_ite State.loop, State.sendReceipt_ev, State.sendReceipt_loop,
    State.journal_ev, State.journal_loop, ite_self, and_self]

/-- A letter of class 0 is answered without a journal entry. -/
theorem answer_class0 {q : Letter} (hq : q.cls = 0) (opc k : Nat) (gap : Bool) (st : Status) (d : Nat) (f : Word)
    (tail : List Byte) (t : State) :
    (t.answer opc k q gap st d f tail).lane = t.lane ∧ (t.answer opc k q gap st d f tail).mem = t.mem := by
  have h0 : q.cls.val = 0 := by rw [hq]; rfl
  simp only [State.answer, h0, if_true, apply_ite State.lane, apply_ite State.mem, State.sessionDone_lane, State.sessionDone_mem,
    State.deadLetter_lane, State.deadLetter_mem, State.finish_lane, State.finish_mem, State.sendReceipt_lane,
    State.sendReceipt_mem, ite_self, and_self]

/-- Settles O43: the frame of an answer, without the events where it is DONE. -/
theorem receiptFrame : Obligations.ReceiptFrame := by
  intro opc k q gap f tail st d t u v hu hv
  have hudef : u = t.answer opc k q gap .done 0 (if tail.isEmpty then f else word tail.length) tail := hu
  have hvdef : v = t.answer opc k q gap st d f [] := hv
  have hufr : AnswerFrame t u := hudef ▸ answerFrame_answer ..
  have hvfr : AnswerFrame t v := hvdef ▸ answerFrame_answer ..
  refine ⟨?_, hvfr, fun h0 => ?_, fun a => ⟨hufr.cell a, hvfr.cell a⟩⟩
  · obtain ⟨hev, hloop⟩ := answer_done_ev_loop opc k q gap 0 (if tail.isEmpty then f else word tail.length) tail t
    rw [← hudef] at hev hloop
    unfold AnswerFrame at hufr
    rw [hev, hloop] at hufr
    exact hufr
  · obtain ⟨hulane, humem⟩ := answer_class0 h0 opc k gap .done 0 (if tail.isEmpty then f else word tail.length) tail t
    obtain ⟨hvlane, hvmem⟩ := answer_class0 h0 opc k gap st d f [] t
    rw [hudef, hvdef]
    exact ⟨hulane, humem, hvlane, hvmem⟩

end Sys2Proof.Machine

/-! ### The order of service (R75) -/

namespace Sys2Proof.Machine

/-- The order of service, taken apart. -/
theorem servedBefore_iff {a b : Queued} : servedBefore a b = true ↔
    a.arrival < b.arrival ∨ (a.arrival = b.arrival ∧ a.letter.port.val ≤ b.letter.port.val) := by
  simp only [servedBefore, Bool.or_eq_true, Bool.and_eq_true, decide_eq_true_eq]

/-- A letter precedes itself. -/
theorem servedBefore_refl (a : Queued) : servedBefore a a = true :=
  servedBefore_iff.2 (.inr ⟨rfl, Nat.le_refl _⟩)

/-- Of two letters, one precedes the other. -/
theorem servedBefore_total {a b : Queued} (h : ¬ servedBefore a b = true) : servedBefore b a = true := by
  rw [servedBefore_iff, not_or, not_and] at h
  obtain ⟨hlt, hport⟩ := h
  rcases Nat.lt_or_eq_of_le (Nat.not_lt.1 hlt) with hba | hba
  · exact servedBefore_iff.2 (.inl hba)
  · exact servedBefore_iff.2 (.inr ⟨hba, Nat.le_of_not_le (hport hba.symm)⟩)

/-- The order of service is transitive. -/
theorem servedBefore_trans {a b c : Queued} (hab : servedBefore a b = true) (hbc : servedBefore b c = true) :
    servedBefore a c = true := by
  rw [servedBefore_iff] at hab hbc ⊢
  rcases hab with hab | ⟨hab, hpab⟩ <;> rcases hbc with hbc | ⟨hbc, hpbc⟩
  · exact .inl (Nat.lt_trans hab hbc)
  · exact .inl (hbc ▸ hab)
  · exact .inl (hab ▸ hbc)
  · exact .inr ⟨hab.trans hbc, Nat.le_trans hpab hpbc⟩

/-- Only an empty queue has no letter that is served next. -/
theorem nextQueued_eq_none {l : List Queued} : nextQueued l = none ↔ l = [] := by
  cases l with
  | nil => exact iff_of_true rfl rfl
  | cons q l =>
    simp only [nextQueued, reduceCtorEq, iff_false]
    split
    · exact Option.some_ne_none q
    · split <;> exact Option.some_ne_none _

/-- The letter served next is queued, and precedes every queued letter. -/
theorem nextQueued_least {l : List Queued} {q : Queued} (h : nextQueued l = some q) :
    q ∈ l ∧ ∀ x ∈ l, servedBefore q x = true := by
  induction l generalizing q with
  | nil => cases h
  | cons y l ih =>
    cases hn : nextQueued l with
    | none =>
      simp only [nextQueued, hn, Option.some.injEq] at h
      subst h
      rw [nextQueued_eq_none.1 hn]
      exact ⟨List.mem_singleton_self y, List.forall_mem_singleton.2 (servedBefore_refl y)⟩
    | some r =>
      obtain ⟨hmem, hleast⟩ := ih hn
      simp only [nextQueued, hn] at h
      split at h
      · next hyr =>
        obtain rfl := Option.some.inj h
        refine ⟨List.mem_cons_self, List.forall_mem_cons.2 ⟨servedBefore_refl y, fun x hx => ?_⟩⟩
        exact servedBefore_trans hyr (hleast x hx)
      · next hyr =>
        obtain rfl := Option.some.inj h
        exact ⟨List.mem_cons_of_mem y hmem, List.forall_mem_cons.2 ⟨servedBefore_total hyr, hleast⟩⟩

/-- Settles O51: the letter served next is least in the order of service. -/
theorem serviceFollowsArrival : Obligations.ServiceFollowsArrival := by
  intro l
  refine ⟨fun hl => Option.isSome_iff_ne_none.2 (mt nextQueued_eq_none.1 hl), fun q hq => ?_⟩
  obtain ⟨hmem, hleast⟩ := nextQueued_least hq
  exact ⟨hmem, fun x hx => servedBefore_iff.1 (hleast x hx)⟩

end Sys2Proof.Machine

/-! ### CRC-32C (R62) and the table's words -/

namespace Sys2Proof.Machine

/-- Settles O60: the check value computed, and a table without words. -/
theorem letterCrcAndWords : Obligations.LetterCrcAndWords :=
  ⟨by decide +kernel, fun _ _ _ => ⟨rfl, rfl⟩⟩

end Sys2Proof.Machine

/-! ### Arrival of a letter (R72, R80) -/

namespace Sys2Proof.Machine

/-- Out of module reset where the letterbox takes letters. -/
theorem inReset_of_boxUp {s : State} (h : s.boxUp = true) : s.inReset = false := by
  simp only [State.boxUp, Bool.and_eq_true, Bool.or_eq_true, decide_eq_true_eq] at h
  obtain ⟨(hp | hp) | hp, -⟩ := h <;> simp only [State.inReset, hp, reduceCtorEq, decide_false, Bool.or_self]

/-- Out of module reset where the host port serves. -/
theorem inReset_of_portUp {s : State} (h : s.portUp = true) : s.inReset = false := by
  simp only [State.portUp, Bool.or_eq_true, decide_eq_true_eq] at h
  obtain hbox | hp := h
  · exact inReset_of_boxUp hbox
  · simp only [State.inReset, hp, reduceCtorEq, decide_false, Bool.or_self]

/-- A letter that passes the other checks of R72 is refused for lateness or queued (R80). -/
theorem intake_of_fits {port : Fin 6} {src : Addr} {len : Nat} {b : List Byte} {i : OpInfo} {q : Queued} {s : State}
    (h : Fits port src len b i q s) : s.intake port src len b =
      if q.letter.deadline ≠ 0 ∧ q.letter.deadline.toNat < lateBy q s then
        s.boxRefuse port src (u16 b 0) (BitVec.ofNat 16 (u16 b 4)) .refusedLate (min (lateBy q s) 255)
      else s.enqueue q := by
  simp only [Fits] at h
  obtain ⟨hport, hblen, hlen, hn, htotal, hinfo, hcrc, rfl, hcls, hown, hflags, hargs, hroom, hshare, hstages⟩ := h
  have hframe : ¬ (b.length ≠ 16 + u16 b 2 + (if u16 b 0 / 4096 = 3 then 8 else 0) ∨
      len ≠ 16 + u16 b 2 + (if u16 b 0 / 4096 = 3 then 8 else 0) ∨ 4080 < u16 b 2 ∨
      4096 < 16 + u16 b 2 + (if u16 b 0 / 4096 = 3 then 8 else 0)) := by omega
  simp only [State.intake, if_neg hframe, hinfo, if_neg (not_not_intro hcrc), hcls, if_neg (not_not_intro hown),
    if_neg (Nat.not_le.2 hflags), hargs, if_neg hport, if_neg (Nat.not_le.2 hroom), hshare, if_neg (Nat.not_lt.2 hstages),
    lateBy, Bool.not_true, Bool.false_eq_true, if_false]
  rfl

/-- A letter that passes all the checks of R72 joins its source queue. -/
theorem intake_of_arrives {port : Fin 6} {src : Addr} {len : Nat} {b : List Byte} {i : OpInfo} {q : Queued} {s : State}
    (h : Arrives port src len b i q s) : s.intake port src len b = s.enqueue q := by
  obtain ⟨hfits, hdue⟩ := h
  rw [intake_of_fits hfits, if_neg]
  rintro ⟨hd, hlate⟩
  exact hdue.elim hd (Nat.not_le.2 hlate)

@[simp] theorem State.deadLetter_queue (s : State) (p : Fin 6) (st : Nat) : (s.deadLetter p st).lb.queue = s.lb.queue := rfl

/-- A refusal by the letterbox queues nothing. -/
theorem boxRefuse_queue (port : Fin 6) (src : Addr) (op16 : Nat) (seq : BitVec 16) (st : Status) (d : Nat) (s : State) :
    (s.boxRefuse port src op16 seq st d).lb.queue = s.lb.queue := by
  simp only [State.boxRefuse, State.deadLetter_queue]
  split
  · rw [State.finish_queue, State.sendReceipt_queue]
  · rfl

/-- LETTER_ARRIVAL with the letterbox up is the intake of the letter. -/
theorem exec_letterArrival {dt : Nat} {port : Fin 6} {b : List Byte} {s : State} (hup : (s.advance dt).boxUp = true) :
    exec (.letterArrival dt port b) s = .next ((s.advance dt).intake port ⟨0, 0⟩ b.length b) := by
  show execLetterArrival dt port b s = _
  simp only [execLetterArrival, inReset_of_boxUp hup, hup, Bool.false_eq_true, if_false, if_true]

/-- Settles O50: the last check of the intake alone decides. -/
theorem lateLettersRefused : Obligations.LateLettersRefused := by
  intro dt port b i q s t ht hup hfits
  subst ht
  rw [exec_letterArrival hup, intake_of_fits hfits]
  refine ⟨fun h0 => ?none, fun _ htime => ?inTime, fun hd hlate => ⟨?late, boxRefuse_queue ..⟩⟩
  case none => rw [if_neg fun h => h.1 h0]
  case inTime => rw [if_neg fun h => Nat.not_lt.2 htime h.2]
  case late => rw [if_pos ⟨hd, hlate⟩]

end Sys2Proof.Machine

/-! ### The host SPI port and the service UART (R51-R54) -/

namespace Sys2Proof.Machine

/-- HP_POST while INBOX_READY is 1 takes the letter in from the inbox, which is then busy for a free time (R53). -/
theorem exec_hpPost {dt : Nat} {n : Fin 8192} {s t : State} (hup : (s.advance dt).boxUp = true)
    (hready : (s.advance dt).inboxReady = true)
    (ht : t = { s.advance dt with free := s.free + 1, lb := { (s.advance dt).lb with
      inboxBusy := (s.advance dt).now + Config.freeNat s.free % (80 + n.val / 5 + 1) } }) :
    exec (.hpPost dt n) s =
      .next (t.intake 0 ⟨0, 0⟩ n.val ((List.range (min n.val 4096)).map fun k => aget inboxDefault k s.lb.inbox)) := by
  subst ht
  show execHpPost dt n s = _
  simp only [execHpPost, inReset_of_boxUp hup, hup, hready, Bool.not_true, Bool.false_eq_true, if_false]
  rfl

/-- An inbox write with the letterbox up is stored, or sets POST_ERR (R53). -/
theorem exec_inboxWrite_inbox {dt : Nat} {o : Fin 65536} {b : List Byte} {s : State} (hup : (s.advance dt).boxUp = true)
    (hlo : 0x1000 ≤ o.val) (hhi : o.val < 0x2000) : exec (.inboxWrite dt o b) s = .next (if (s.advance dt).inboxReady then
      { s.advance dt with lb := { (s.advance dt).lb with inbox := putInbox (o.val - 0x1000) b s.lb.inbox } }
      else { s.advance dt with lb := { (s.advance dt).lb with postErr := true } }) := by
  have hin : ¬ (o.val < 0x1000 ∨ 0x2000 ≤ o.val) := by omega
  show execInboxWrite dt o b s = _
  simp only [execInboxWrite, inReset_of_boxUp hup, if_neg hin, hup, Bool.not_true, Bool.false_eq_true, if_false]
  split <;> rfl

/-- A host write of 1 to POST_ERR clears it (R52). -/
theorem exec_inboxWrite_postErr {dt : Nat} {x : Byte} {b : List Byte} {s : State} (hup : (s.advance dt).portUp = true)
    (hx : bitAt x.toNat 1 = true) : exec (.inboxWrite dt 0 (x :: b)) s =
      .next { s.advance dt with lb := { (s.advance dt).lb with postErr := false } } := by
  have hout : (0 : Fin 65536).val < 0x1000 ∨ 0x2000 ≤ (0 : Fin 65536).val := by decide
  have hclear : (0 : Fin 65536).val = 0 ∧ bitAt ((x :: b).getD 0 0#8).toNat 1 = true ∧ x :: b ≠ [] :=
    ⟨rfl, hx, List.cons_ne_nil x b⟩
  show execInboxWrite dt 0 (x :: b) s = _
  simp only [execInboxWrite, inReset_of_portUp hup, if_pos hout, hup, State.hostRegWrite, if_pos hclear, Bool.false_eq_true,
    if_false, if_true]

/-- HP_TAKE drops the receipt in the outbox (R54). -/
theorem exec_hpTake {dt : Nat} {s : State} (hup : (s.advance dt).portUp = true) :
    exec (.hpTake dt true) s = .next { s.advance dt with lb := { (s.advance dt).lb with rcpt0 := s.lb.rcpt0.drop 1 } } := by
  show execHpTake dt true s = _
  simp only [execHpTake, inReset_of_portUp hup, hup, Bool.and_self, if_true, Bool.false_eq_true, if_false]
  rfl

/-- A write of RD that leaves at most 256 records unread is taken (R54). -/
theorem exec_hpEvidxWrite {dt : Nat} {rd : Fin 512} {s : State} (hup : (s.advance dt).portUp = true)
    (hrd : (s.ev.wr + 512 - rd.val) % 512 ≤ 256) :
    exec (.hpEvidxWrite dt rd) s = .next { s.advance dt with ev := { s.ev with rd := rd.val } } := by
  have hrd' : ((s.advance dt).ev.wr + 512 - rd.val) % 512 ≤ 256 := hrd
  show execHpEvidxWrite dt rd s = _
  simp only [execHpEvidxWrite, inReset_of_portUp hup, hup, hrd', decide_true, Bool.and_self, Bool.false_eq_true, if_false, if_true]
  rfl

/-- The length of a letter whose framing R72 has checked, by its header. -/
theorem lettersLen_of_fits {port : Fin 6} {src : Addr} {len : Nat} {b : List Byte} {i : OpInfo} {q : Queued} {s : State}
    (h : Fits port src len b i q s) : lettersLen b = b.length := by
  simp only [Fits] at h
  obtain ⟨-, hblen, -⟩ := h
  exact hblen.symm

/-- The framing and header CRC of such a letter are right. -/
theorem headOk_of_fits {port : Fin 6} {src : Addr} {len : Nat} {b : List Byte} {i : OpInfo} {q : Queued} {s : State}
    (h : Fits port src len b i q s) : headOk b = true := by
  have hl := lettersLen_of_fits h
  simp only [Fits] at h
  obtain ⟨-, hblen, -, hn, htotal, hinfo, hcrc, -⟩ := h
  simp only [headOk, hinfo, hcrc, hl, hblen, hn, htotal, and_self, decide_true, Bool.and_self]

/-- Nothing on the UART: nothing is kept. -/
theorem uartScan_nil (n : Nat) (s : State) : s.uartScan n [] = { s with lb := { s.lb with uart := [] } } := by
  cases n <;> rfl

/-- A whole letter behind its start mark is delivered, and nothing is kept of it (R51). -/
theorem uartScan_letter {n : Nat} {b : List Byte} {s : State} (hlen : lettersLen b = b.length) (hok : headOk b = true) :
    s.uartScan (n + 1) (0xA5#8 :: 0x5A#8 :: b) =
      { s.intake 3 ⟨0, 0⟩ b.length b with lb := { (s.intake 3 ⟨0, 0⟩ b.length b).lb with uart := [] } } := by
  have hhunt : uartHunt (0xA5#8 :: 0x5A#8 :: b) = 0xA5#8 :: 0x5A#8 :: b := rfl
  have hlong : 16 ≤ b.length := by rw [← hlen, lettersLen]; omega
  have hwait : (decide (b.length < 16) || (decide (b.length < b.length) && decide (u16 b 2 ≤ 4080 ∧ b.length ≤ 4096))) = false := by
    rw [decide_eq_false (Nat.not_lt.2 hlong), decide_eq_false (Nat.lt_irrefl _), Bool.false_and, Bool.false_or]
  simp only [State.uartScan, hhunt, List.drop_succ_cons, List.drop_zero, hlen, hwait, Bool.false_eq_true, if_false,
    List.take_length, hok, if_true, List.drop_length, uartScan_nil]

/-- UART_LETTER on an idle UART scans the bytes that came in. -/
theorem exec_uartLetter_idle {dt : Nat} {b : List Byte} {s t : State} (hup : (s.advance dt).boxUp = true) (hidle : s.lb.uart = [])
    (ht : t = { s.advance dt with lb := { (s.advance dt).lb with uartAt := (s.advance dt).now } }) :
    exec (.uartLetter dt b) s = .next (t.uartScan (b.length + 1) b) := by
  subst ht
  have hidle' : (s.advance dt).lb.uart = [] := hidle
  have hbusy : (s.advance dt).uartBusy = false := by
    rw [State.uartBusy, hidle']
    rfl
  show execUartLetter dt b s = _
  simp only [execUartLetter, inReset_of_boxUp hup, hup, hbusy, hidle', Bool.not_true, Bool.or_self, Bool.false_and,
    Bool.false_eq_true, if_false, List.nil_append]

/-- UART_GAP_TIMEOUT within a letter discards it, a dead letter of port 3 (R51). -/
theorem exec_uartGapTimeout {dt : Nat} {s : State} (hup : (s.advance dt).boxUp = true) (hbusy : 2 ≤ s.lb.uart.length)
    (hgap : s.lb.uartAt + 80000 < (s.advance dt).now) : exec (.uartGapTimeout dt) s = .next (s.advance dt).uartDrop := by
  have hbusy' : (s.advance dt).uartBusy = true := decide_eq_true hbusy
  have hgap' : (s.advance dt).lb.uartAt + 80000 < (s.advance dt).now := hgap
  show execUartGapTimeout dt s = _
  simp only [execUartGapTimeout, inReset_of_boxUp hup, hup, hbusy', hgap', decide_true, Bool.and_self, Bool.false_eq_true,
    if_false, if_true]

end Sys2Proof.Machine

/-! ### CAN segments (R49, R50) -/

namespace Sys2Proof.Machine

/-- The reassembly found is that of the sender on the controller. -/
theorem reasmOf_some {c : Fin 3} {n : Nat} {r : Reasm} {s : State} (h : s.reasmOf c n = some r) : r.ctrl = c ∧ r.sender = n := by
  simpa only [Bool.and_eq_true, decide_eq_true_eq] using List.find?_some h

/-- A CAN segment that the station's letterbox takes on: its letters are for this station, from a node, and within a frame (R49). -/
def SegmentTaken (dt : Nat) (c : Fin 3) (sender : Fin 64) (dest : Fin 4096) (data : List Byte) (s : State) : Prop :=
  (s.advance dt).boxUp = true ∧ (s.advance dt).canActive c = true ∧ (s.advance dt).canCfg c 9 1 = 1 ∧
    dest.val = (s.advance dt).ownNumber c ∧ sender.val ≠ 0 ∧ data ≠ [] ∧ data.length ≤ 64

/-- Neither the reset nor the filters of R49 turn such a segment away. -/
theorem SegmentTaken.passes {dt : Nat} {c : Fin 3} {sender : Fin 64} {dest : Fin 4096} {data : List Byte} {s : State}
    (h : SegmentTaken dt c sender dest data s) : (s.advance dt).inReset = false ∧
      (!(s.advance dt).boxUp || !(s.advance dt).canActive c || (s.advance dt).canCfg c 9 1 ≠ 1 ||
        dest.val ≠ (s.advance dt).ownNumber c || sender.val = 0 || data.isEmpty || decide (64 < data.length)) = false := by
  obtain ⟨hup, hact, hcfg, hdest, hsender, hdata, hlen⟩ := h
  refine ⟨inReset_of_boxUp hup, ?_⟩
  simp only [hup, hact, hcfg, hdest, hsender, List.isEmpty_eq_false_iff.2 hdata, Nat.not_lt.2 hlen, ne_eq, not_true_eq_false,
    decide_false, Bool.not_true, Bool.or_self]

/-- A first segment from a sender without a reassembly, on a controller with fewer than four, opens one (R49, R50). -/
theorem exec_canLetterSegment_first {dt : Nat} {c : Fin 3} {sender : Fin 64} {dest : Fin 4096} {data : List Byte} {s : State}
    (h : SegmentTaken dt c sender dest data s) (hfirst : bitAt (u8 data 0) 7 = true) (hidx : u8 data 0 % 64 = 0)
    (hnone : s.reasmOf c sender.val = none) (hroom : (s.lb.reasm.filter (·.ctrl = c)).length < 4) :
    exec (.canLetterSegment dt c sender dest data) s =
      .next ((s.advance dt).reasmAdd ⟨c, sender.val, 0, [], (s.advance dt).now⟩ (bitAt (u8 data 0) 6) (data.drop 1)) := by
  obtain ⟨hreset, hpass⟩ := h.passes
  have hnone' : (s.advance dt).reasmOf c sender.val = none := hnone
  have hroom' : ((s.advance dt).lb.reasm.filter (·.ctrl = c)).length < 4 := hroom
  show execCanLetterSegment dt c sender dest data s = _
  simp only [execCanLetterSegment, hreset, hpass, hfirst, hidx, hnone', Nat.not_le.2 hroom', Option.isSome_none, ne_eq,
    not_true_eq_false, Bool.false_eq_true, if_false, if_true]

/-- The next segment in order, within 10 ms, is added to its sender's reassembly (R49, R50). -/
theorem exec_canLetterSegment_next {dt : Nat} {c : Fin 3} {sender : Fin 64} {dest : Fin 4096} {data : List Byte} {r : Reasm}
    {s : State} (h : SegmentTaken dt c sender dest data s) (hsome : s.reasmOf c sender.val = some r)
    (htime : (s.advance dt).now ≤ r.last + 800000) (hnext : bitAt (u8 data 0) 7 = false) (hidx : u8 data 0 % 64 = r.next) :
    exec (.canLetterSegment dt c sender dest data) s =
      .next ((s.advance dt).reasmAdd r (bitAt (u8 data 0) 6) (data.drop 1)) := by
  obtain ⟨hreset, hpass⟩ := h.passes
  have hsome' : (s.advance dt).reasmOf c sender.val = some r := hsome
  show execCanLetterSegment dt c sender dest data s = _
  simp only [execCanLetterSegment, hreset, hpass, hnext, hidx, hsome', Nat.not_lt.2 htime, decide_false, Bool.false_eq_true,
    if_false, if_true]

/-- CAN_REASSEMBLY_TIMEOUT after more than 10 ms without a segment discards the reassembly (R50). -/
theorem exec_canReassemblyTimeout {dt : Nat} {c : Fin 3} {sender : Fin 64} {r : Reasm} {s : State}
    (hreset : (s.advance dt).inReset = false) (hsome : s.reasmOf c sender.val = some r)
    (hlate : r.last + 800000 < (s.advance dt).now) :
    exec (.canReassemblyTimeout dt c sender) s = .next ((s.advance dt).reasmDiscard c sender.val) := by
  have hsome' : (s.advance dt).reasmOf c sender.val = some r := hsome
  show execCanReassemblyTimeout dt c sender s = _
  simp only [execCanReassemblyTimeout, hreset, hsome', hlate, Bool.false_eq_true, if_false, if_true]

/-- A first segment that is not the last, from a sender without a reassembly, waits for the next one. -/
theorem reasmAdd_first {c : Fin 3} {n pm : Nat} {data : List Byte} {s : State}
    (hfresh : s.lb.reasm.all (fun r => !(r.ctrl = c && r.sender = n)) = true) :
    s.reasmAdd ⟨c, n, 0, [], pm⟩ false data = { s with lb := { s.lb with reasm := s.lb.reasm ++ [⟨c, n, 1, data, s.now⟩] } } := by
  have hkeep : s.lb.reasm.filter (fun r => !(r.ctrl = c && r.sender = n)) = s.lb.reasm :=
    List.filter_eq_self.2 (List.all_eq_true.1 hfresh)
  simp only [State.reasmAdd, State.reasmDrop, hkeep, Bool.false_eq_true, if_false, List.nil_append]

/-- The last segment delivers the letter on the controller's port, under its sender's address. -/
theorem reasmAdd_last {c : Fin 3} {sender : Fin 64} {r : Reasm} {data : List Byte} {s : State} (hc : r.ctrl = c)
    (hn : r.sender = sender.val) : s.reasmAdd r true data = (s.reasmDrop c sender.val).intake (canPort c) ⟨c, sender⟩
      (trimPad (r.bytes ++ data)).length (trimPad (r.bytes ++ data)) := by
  have hsender : fidx 63 sender.val = sender := Fin.ext (Nat.mod_eq_of_lt sender.isLt)
  simp only [State.reasmAdd, hc, hn, hsender, if_true]

end Sys2Proof.Machine

/-! ### Session timers (R67, R68) -/

namespace Sys2Proof.Machine

/-- SESSION_TIMEOUT once TIMEOUT seconds have passed without a class 3 letter answered DONE (R67). -/
theorem exec_sessionTimeout {dt : Nat} {x : Session} {s : State} (hreset : (s.advance dt).inReset = false)
    (hx : s.lb.session = some x) (hdue : x.lastDone + s.fld 0x10050 16 16 * 80000000 ≤ (s.advance dt).now) :
    exec (.sessionTimeout dt) s = .next (s.advance dt).endSession := by
  have hx' : (s.advance dt).lb.session = some x := hx
  have hdue' : x.lastDone + (s.advance dt).fld 0x10050 16 16 * 80000000 ≤ (s.advance dt).now := hdue
  show execSessionTimeout dt s = _
  simp only [execSessionTimeout, hreset, hx', hdue', Bool.false_eq_true, if_false, if_true]

/-- SESSION_LOCKOUT_END at the end of the lockout (R68). -/
theorem exec_sessionLockoutEnd {dt : Nat} {e : Postmark} {s : State} (hreset : (s.advance dt).inReset = false)
    (he : s.lb.lockEnd = some e) (hdue : e ≤ (s.advance dt).now) : exec (.sessionLockoutEnd dt) s =
      .next { s.advance dt with lb := { (s.advance dt).lb with
        lockEnd := none, fails := s.lb.fails.filter ((s.advance dt).now < · + 4800000000) } } := by
  have he' : (s.advance dt).lb.lockEnd = some e := he
  show execSessionLockoutEnd dt s = _
  simp only [execSessionLockoutEnd, hreset, he', hdue, Bool.false_eq_true, if_false, if_true]
  rfl

end Sys2Proof.Machine

/-! ### Events of the letterbox -/

namespace Sys2Proof.Machine

/-- Settles O5: one lemma for each row and branch. -/
theorem letterboxEventsComplete : Obligations.LetterboxEventsComplete := by
  refine ⟨fun dt port b i q s hup harr => ?arrival, fun dt b i q s t hup hidle ht harr => ?uart,
    fun dt n i q s t hup hready ht harr => ?post, fun dt o b s => exec_inboxWrite_inbox,
    fun dt x b s => exec_inboxWrite_postErr, fun dt s => exec_hpTake, fun dt rd s => exec_hpEvidxWrite,
    fun dt c sender dest data s hup hact hcfg hdest hsender hdata hlen => ?segment,
    fun dt c sender r s => exec_canReassemblyTimeout, fun dt s => exec_uartGapTimeout, fun dt x s => exec_sessionTimeout,
    fun dt e s => exec_sessionLockoutEnd⟩
  case arrival => rw [exec_letterArrival hup, intake_of_arrives harr]
  case uart =>
    rw [exec_uartLetter_idle hup hidle ht, uartScan_letter (lettersLen_of_fits harr.1) (headOk_of_fits harr.1),
      intake_of_arrives harr]
  case post => rw [exec_hpPost hup hready ht, intake_of_arrives harr]
  case segment =>
    have htaken : SegmentTaken dt c sender dest data s := ⟨hup, hact, hcfg, hdest, hsender, hdata, hlen⟩
    refine ⟨fun hfirst hmore hidx hnone hroom hfresh => ?first, fun r hsome htime hnext hidx => ⟨fun hmore => ?next,
      fun i q hlast harr => ?last⟩⟩
    case first =>
      rw [exec_canLetterSegment_first htaken hfirst hidx hnone hroom, hmore]
      exact congrArg _ (reasmAdd_first hfresh)
    case next =>
      obtain ⟨hc, hn⟩ := reasmOf_some hsome
      rw [exec_canLetterSegment_next htaken hsome htime hnext hidx, hmore, ← hc, ← hn]
      rfl
    case last =>
      obtain ⟨hc, hn⟩ := reasmOf_some hsome
      rw [exec_canLetterSegment_next htaken hsome htime hnext hidx, hlast, reasmAdd_last hc hn, intake_of_arrives harr]

end Sys2Proof.Machine

/-! ### The move letters (R99-R117) -/

namespace Sys2Proof.Machine

/-- MOVE_RUN of a table that passes the checks of R99, in a direction that no limit guards, starts the run at record 0. -/
theorem moveRun_run_started {q : Letter} {t v : State} {u : Fin 4} {a n : Nat} {g : Seg} (hu : unitOf (u32 q.payload 0) = u)
    (ha : u32 q.payload 4 = a) (hn : u32 q.payload 8 = n) (hfree : t.moveRefused u = none) (hclean : (t.eccRead a (32 * n)).1 = none)
    (hv : (t.eccRead a (32 * n)).2 = v)
    (hok : tableBad (fun g => decide ((g.p0 * 65536 - v.ramp[u].pos).natAbs ≤ 65536) && g.v0 = 0 && g.a0 = 0)
      (v.limitsLane u) v.sys.period (v.segBytes a n) = none)
    (hlast : ((v.segBytes a n).map segOf).getLast? = some g)
    (hup : 0 < (g.fin v.sys.period).1 * 65536 - v.ramp[u].pos → v.limitGuards u true = false)
    (hdown : (g.fin v.sys.period).1 * 65536 - v.ramp[u].pos < 0 → v.limitGuards u false = false) :
    moveRunHandler.run q t = (.queued (.move u), v.setRamp u { v.ramp[u] with
      motion := .run { pieces := [⟨0, a, n⟩], idx := 0, n := 0, seg := none }, why := [], used := [(a, 32 * n)] }) := by
  have hguard : ((decide (0 < (g.fin v.sys.period).1 * 65536 - v.ramp[u].pos) && v.limitGuards u true) ||
      (decide ((g.fin v.sys.period).1 * 65536 - v.ramp[u].pos < 0) && v.limitGuards u false)) = false := by
    simpa only [Bool.or_eq_false_iff, Bool.and_eq_false_imp, decide_eq_true_eq] using And.intro hup hdown
  simp only [moveRunHandler, handler, hu, ha, hn, hfree, hclean, hv, hok, hlast, hguard, Bool.false_eq_true, if_false]

/-- The target of a trapezoid move, absolute or relative to the present position. -/
theorem trapTarget_eq (mode : Nat) (x pos : Int) : (if mode = 0 then x else pos + x) = x + (if mode = 0 then 0 else pos) := by
  split <;> omega

/-- Speeds of a trapezoid move that R109 admits: within the speed limit, and a first acceleration where V_BREAK needs one. -/
def State.trapSpeedsOk (t : State) (u : Fin 4) : Prop :=
  t.reg (rampBase u + 0x30) ≤ (t.limitsLane u).speed ∧ t.reg (rampBase u + 0x34) ≤ (t.limitsLane u).speed ∧
    t.reg (rampBase u + 0x38) ≤ (t.limitsLane u).speed ∧
    (t.reg (rampBase u + 0x30) < t.reg (rampBase u + 0x38) → t.reg (rampBase u + 0x3C) ≠ 0)

/-- The check of R109 has no objection to such speeds. -/
theorem State.trapSpeedsOk.passes {t : State} {u : Fin 4} (h : t.trapSpeedsOk u) :
    ¬ ((t.limitsLane u).speed < t.reg (rampBase u + 0x30) ∨ (t.limitsLane u).speed < t.reg (rampBase u + 0x34) ∨
      (t.limitsLane u).speed < t.reg (rampBase u + 0x38) ∨
      (t.reg (rampBase u + 0x30) < t.reg (rampBase u + 0x38) ∧ t.reg (rampBase u + 0x3C) = 0)) := by
  obtain ⟨hstart, hstop, hbreak, hacc⟩ := h
  rintro (h | h | h | ⟨h, hzero⟩)
  · exact Nat.not_lt.2 hstart h
  · exact Nat.not_lt.2 hstop h
  · exact Nat.not_lt.2 hbreak h
  · exact hacc h hzero

/-- MOVE_TRAP with enough distance, in a direction that no limit guards, starts the profile (R108, R109). -/
theorem moveTrap_run_started {q : Letter} {t : State} {u : Fin 4} {target : Int} (hu : unitOf (u8 q.payload 0) = u)
    (hfree : t.moveRefused u = none) (hspeeds : t.trapSpeedsOk u)
    (htarget : target = sext 64 (u64 q.payload 8) * 65536 + (if u8 q.payload 1 = 0 then 0 else t.ramp[u].pos))
    (hmoves : target ≠ t.ramp[u].pos) (hguard : t.limitGuards u (decide (t.ramp[u].pos < target)) = false)
    (hlong : trapTooShort (target - t.ramp[u].pos).natAbs (t.reg (rampBase u + 0x30)) (t.reg (rampBase u + 0x34))
      (t.limitsLane u).dec t.sys.period = false) :
    moveTrapHandler.run q t =
      (.queued (.move u), t.setRamp u { t.ramp[u] with motion := .trap (trapNew target none), why := [] }) := by
  simp only [moveTrapHandler, hu, hfree, trapTarget_eq, ← htarget, hguard, Bool.false_eq_true, and_false, if_neg hspeeds.passes,
    if_neg hmoves, hlong, if_false]

/-- MOVE_TRAP to the present position ends DONE at once (R108). -/
theorem moveTrap_run_there {q : Letter} {t : State} {u : Fin 4} (hu : unitOf (u8 q.payload 0) = u)
    (hfree : t.moveRefused u = none) (hspeeds : t.trapSpeedsOk u)
    (hthere : sext 64 (u64 q.payload 8) * 65536 + (if u8 q.payload 1 = 0 then 0 else t.ramp[u].pos) = t.ramp[u].pos) :
    moveTrapHandler.run q t =
      (.ended (.move u) .done 0 0, t.setRamp u { t.ramp[u] with ended := some (.done, 0, 0, t.now) }) := by
  simp only [moveTrapHandler, hu, hfree, trapTarget_eq, hthere, ne_eq, not_true_eq_false, false_and, if_false,
    if_neg hspeeds.passes, if_true]

/-- The motion state that a tail from record `f` on has to continue: the end of the record before it, or for `f = 0` the start of
the record that it replaces (R103). -/
def State.tailStart (v : State) (u : Fin 4) (x : SegRun) (f : Nat) : Int × Int × Int :=
  if f = 0 then match pieceOf 0 x.pieces with
    | some (b, _) => (segOf (v.cellsFrom b 32)).start
    | none => (roundAway v.ramp[u].pos 65536, 0, 0)
  else match pieceOf (f - 1) x.pieces with
    | some (b, _) => (segOf (v.cellsFrom b 32)).fin v.sys.period
    | none => (roundAway v.ramp[u].pos 65536, 0, 0)

/-- MOVE_TAIL in time for its record, with a table that continues the record before it, keeps the tail (R103, R104). -/
theorem moveTail_run_armed {q : Letter} {t v : State} {u : Fin 4} {f a m : Nat} {x : SegRun}
    (hu : unitOf (u16 q.payload 0) = u) (hf : u16 q.payload 2 = f) (ha : u32 q.payload 4 = a) (hm : u32 q.payload 8 = m)
    (hdoor : t.doorOwns u = false) (hrun : t.ramp[u].motion = .run x) (htail : t.ramp[u].tail = none)
    (hpermit : t.permit (t.fld (rampBase u + 4) 4 4) = true) (hlimits : (t.limitsLane u).unset = false)
    (hidx : x.idx ≤ f) (hahead : x.seg.isSome = true → x.idx < f) (htime : 2 ≤ t.ticksTo x f)
    (hclean : (t.eccRead a (32 * m)).1 = none) (hv : (t.eccRead a (32 * m)).2 = v)
    (hok : tableBad (fun g => statesNear (v.tailStart u x f) g.start) (v.limitsLane u) v.sys.period (v.segBytes a m) = none) :
    moveTailHandler.run q t = (.queued (.tail u), v.setRamp u { v.ramp[u] with tail := some ⟨f, a, m⟩ }) := by
  have hintime : ¬ (f < x.idx ∨ (x.seg.isSome ∧ f ≤ x.idx) ∨ t.ticksTo x f < 2) := by
    rintro (h | ⟨hs, h⟩ | h)
    · exact Nat.not_lt.2 hidx h
    · exact Nat.not_lt.2 h (hahead hs)
    · exact Nat.not_lt.2 htime h
  simp only [moveTailHandler, hu, hf, ha, hm, hdoor, hrun, htail, hpermit, hlimits, if_neg hintime, hclean, hv,
    Option.isSome_none, Bool.not_true, Bool.false_eq_true, if_false]
  split
  · next hbad => cases hbad.symm.trans hok
  · rfl

/-- MOVE_STOP orders the stop of a moving unit (R117). -/
theorem moveStop_run_moving {q : Letter} {t : State} {u : Fin 4} (hu : unitOf (u8 q.payload 0) = u) (hdoor : t.doorOwns u = false)
    (hmoving : t.moving u = true) :
    moveStopHandler.run q t = (.queued (.stop u), t.orderStop u (decide (u8 q.payload 1 = 1)) .moveStop) := by
  simp only [moveStopHandler, handler, hu, hdoor, hmoving, Bool.false_eq_true, if_false, if_true]

/-- MOVE_STOP of a still unit ends DONE at once (R117). -/
theorem moveStop_run_still {q : Letter} {t : State} {u : Fin 4} (hu : unitOf (u8 q.payload 0) = u) (hdoor : t.doorOwns u = false)
    (hstill : t.moving u = false) : moveStopHandler.run q t = (.ended (.stop u) .done 0 0, t) := by
  simp only [moveStopHandler, handler, hu, hdoor, hstill, Bool.false_eq_true, if_false]

/-- Settles O9: what each handler runs, by the letter and the state of its unit. -/
theorem moveLettersComplete : Obligations.MoveLettersComplete := by
  refine ⟨fun u a n => ?run, fun u target => ?trap, fun u => ?trapThere, fun u f a m x start => ?tail, fun u => ⟨?stop, ?stopStill⟩⟩
  case run =>
    exact .of_run (fun _ _ => rfl) (fun q t ⟨hu, ha, hn, hfree, hclean, hok, g, hlast, hup, hdown⟩ =>
      moveRun_run_started hu ha hn hfree hclean rfl hok hlast hup hdown) fun _ _ _ => rfl
  case trap =>
    exact .of_run (fun _ _ => rfl) (fun q t ⟨hu, hfree, hstart, hstop, hbreak, hacc, htarget, hmoves, hguard, hlong⟩ =>
      moveTrap_run_started hu hfree ⟨hstart, hstop, hbreak, hacc⟩ htarget hmoves hguard hlong) fun _ _ _ => rfl
  case trapThere =>
    exact .of_run (fun _ _ => rfl) (fun q t ⟨hu, hfree, hstart, hstop, hbreak, hacc, hthere⟩ =>
      moveTrap_run_there hu hfree ⟨hstart, hstop, hbreak, hacc⟩ hthere) fun _ _ _ => rfl
  case tail =>
    refine .of_run (fun _ _ => rfl) (fun q t
      ⟨hu, hf, ha, hm, hdoor, hrun, htail, hpermit, hlimits, hidx, hahead, htime, hclean, hstart, hok⟩ => ?_) fun _ _ _ => rfl
    subst hstart
    exact moveTail_run_armed hu hf ha hm hdoor hrun htail hpermit hlimits hidx hahead htime hclean rfl hok
  case stop =>
    exact .of_run (fun _ _ => rfl) (fun _ _ ⟨hu, hdoor, hmoving⟩ => moveStop_run_moving hu hdoor hmoving) fun _ _ _ => rfl
  case stopStill =>
    exact .of_run (fun _ _ => rfl) (fun _ _ ⟨hu, hdoor, hstill⟩ => moveStop_run_still hu hdoor hstill) fun _ _ _ => rfl

end Sys2Proof.Machine

/-! ### SET_LIMITS, HOME and GEAR_SET (R95, R125, R126, R129, R131) -/

namespace Sys2Proof.Machine

/-- SET_LIMITS of a unit that the door does not own keeps the limits for the next tick instant (R95). -/
theorem setLimits_run {q : Letter} {t : State} {u : Fin 4} (hu : unitOf (u32 q.payload 0) = u) (hdoor : t.doorOwns u = false) :
    setLimitsHandler.run q t = (.done 0 [], t.setRamp u { t.ramp[u] with
      next := some ⟨u32 q.payload 4, u32 q.payload 8, u32 q.payload 12, u32 q.payload 16, u32 q.payload 20⟩ }) := by
  simp only [setLimitsHandler, handler, hu, hdoor, doneWith, Bool.false_eq_true, if_false]

/-- The homing that a HOME letter starts: the back-off while the reference is active, else the search (R126). -/
def State.homeStart (t : State) (u : Fin 4) (p : List Byte) : HomeSt :=
  { neg := decide (u8 p 1 = 1), ref := u8 p 2, rearm := if u8 p 3 = 0 then 20 else u8 p 3, search := u32 p 4, creep := u32 p 8,
    opp := u32 p 12, step := if t.inActive (u8 p 2) then .backOff else .search, start := t.ramp[u].pos, capture := 0,
    oppLast := none, began := t.now, since := t.now }

/-- HOME of a unit that may move, with a feedback source and a search limit, starts the homing (R125, R126). -/
theorem home_run_started {q : Letter} {t : State} {u : Fin 4} (hu : unitOf (u8 q.payload 0) = u) (hfree : t.moveRefused u = none)
    (hsource : t.fld (rampBase u + 4) 0 4 ≠ 0) (hmax : t.reg (rampBase u + 0x78) ≠ 0) :
    homeHandler.run q t = (.queued (.home u), t.setRamp u { t.ramp[u] with
      homing := some (t.homeStart u q.payload), homed := false, why := []
      motion := .trap (if t.inActive (u8 q.payload 2) then
          trapNew (farTarget (decide (u8 q.payload 1 = 1))) (some (u32 q.payload 8))
        else trapNew (farTarget (!decide (u8 q.payload 1 = 1))) (some (u32 q.payload 4))) }) := by
  simp only [homeHandler, hu, hfree, hsource, hmax, or_self, if_false]
  rfl

/-- GEAR_SET of a still unit with n = 0 takes the gear away (R131). -/
theorem gearSet_run_off {q : Letter} {t : State} {u : Fin 4} (hu : unitOf (u8 q.payload 0) = u) (hstill : t.moving u = false)
    (hnone : u32 q.payload 8 = 0) :
    gearSetHandler.run q t = (.done 0 [], t.setRamp u { t.ramp[u] with gear := { t.ramp[u].gear with
      source := 0, frozen := false, pts := [], g0 := 0,
      fresh := decide (t.ramp[u].gear.source ≠ 0) || t.ramp[u].gear.fresh } }) := by
  simp only [gearSetHandler, hu, hstill, hnone, ne_eq, not_true_eq_false, false_and, doneWith, Bool.false_eq_true, if_false, if_true]

/-- GEAR_SET of a still unit with a table that can be read loads it (R129, R131). -/
theorem gearSet_run_loaded {q : Letter} {t v : State} {u : Fin 4} {a n : Nat} (hn0 : n ≠ 0) (hu : unitOf (u8 q.payload 0) = u)
    (ha : u32 q.payload 4 = a) (hn : u32 q.payload 8 = n) (hstill : t.moving u = false)
    (hrole : u8 q.payload 1 = 2 → t.carStation = false) (hclean : (t.eccRead a (16 * n)).1 = none)
    (hv : (t.eccRead a (16 * n)).2 = v) :
    gearSetHandler.run q t = (.done 0 [], v.setRamp u { v.ramp[u] with gear := { t.ramp[u].gear with
      source := u8 q.payload 1, frozen := false, g0 := sext 32 (v.cell32 (a + 12)), pts := v.gearPoints a n, fresh := true } }) := by
  have hallowed : ¬ (n ≠ 0 ∧ u8 q.payload 1 = 2 ∧ t.carStation = true) := fun ⟨_, hsrc, hcar⟩ => by
    rw [hrole hsrc] at hcar
    cases hcar
  simp only [gearSetHandler, hu, ha, hn, hstill, if_neg hallowed, if_neg hn0, hclean, hv, doneWith, Bool.false_eq_true, if_false]

end Sys2Proof.Machine

/-! ### Limit inputs and homing events (R122-R127) -/

namespace Sys2Proof.Machine

/-- An accepted edge of an enabled limit input that guards the direction of travel orders the stop and posts LIMIT_STOP (R122,
R123). -/
theorem exec_limitStop_guarded {dt w : Nat} {u k : Fin 4} {s t : State} {e : Postmark} (ht : t = s.advance dt)
    (hreset : t.inReset = false) (hw : w = t.reg (rampBase u + 0x60 + 4 * k.val)) (hedge : (t.view (bitsAt w 0 6)).edgeOn = some e)
    (hon : bitAt w 6 = true) (hacc : edgeAccepted t.ramp[u].limLast[k] e (rearmCounts (bitsAt w 16 8)) = true)
    (hhome : t.ramp[u].homing = none) (hmoving : t.ramp[u].moving = true)
    (hdir : if bitAt w 7 then t.ramp[u].vel < 0 else 0 < t.ramp[u].vel) :
    exec (.limitStop dt u k) s = .next (((t.setRamp u { t.ramp[u] with limLast := t.ramp[u].limLast.set k (some e) }).orderStop u
      (bitAt w 8) (.limit (bitsAt w 0 6))).post 0x0205 (bitsAt w 0 6)) := by
  have hguard : (if bitAt w 7 then decide (t.ramp[u].vel < 0) else decide (0 < t.ramp[u].vel)) = true := by
    cases hneg : bitAt w 7 <;> simpa [hneg] using hdir
  show execLimitStop dt u k s = _
  simp only [execLimitStop, ← ht, hreset, ← hw, hedge, hon, hacc, hhome, hmoving, hguard, Option.isNone_none, Bool.and_self,
    Bool.false_eq_true, if_false, if_true]

/-- HOME_REARM_END after standstill and the re-arm window starts the search again (R126). -/
theorem exec_homeRearmEnd_due {dt : Nat} {u : Fin 4} {s t : State} {h : HomeSt} {pm : Postmark} (ht : t = s.advance dt)
    (hreset : t.inReset = false) (hhome : t.ramp[u].homing = some h) (hstep : h.step = .backStop pm)
    (hstill : t.ramp[u].motion = .still) (hdue : pm + h.rearm * 80000 ≤ t.now) :
    exec (.homeRearmEnd dt u) s = .next (t.setRamp u { t.ramp[u] with
      homing := some { h with step := .search, start := t.ramp[u].pos, since := t.now },
      motion := .trap (trapNew (farTarget (!h.neg)) (some h.search)) }) := by
  show execHomeRearmEnd dt u s = _
  simp only [execHomeRearmEnd, ← ht, hreset, hhome, hstep, hstill, hdue, and_self, Bool.false_eq_true, if_false, if_true]

/-- HOME_CAPTURE, on an edge that falls in the search and with no accepted limit edge in its sample, latches the position and
orders the ramp stop (R121, R126). -/
theorem exec_homeCapture_edge {dt : Nat} {u : Fin 4} {cap : Int} {s t : State} {h : HomeSt} {e : Postmark} (ht : t = s.advance dt)
    (hreset : t.inReset = false) (hhome : t.ramp[u].homing = some h) (hstep : h.step = .search)
    (hedge : (t.view h.ref).edgeOn = some e) (hactive : t.inActive h.ref = true) (hsince : h.since ≤ e)
    (hclear : ∀ n < 48, t.homeEdge u h n ≠ some e) :
    exec (.homeCapture dt u cap) s = .next (t.setRamp u { t.ramp[u] with
      cap := cap, capPm := e, homing := some { h with step := .captured, capture := cap },
      stopReq := some (decide (t.ramp[u].stopReq = some true)) }) := by
  have hclash : ((List.range 48).any fun n => decide (t.homeEdge u h n = some e)) = false :=
    List.any_eq_false.2 fun n hn => by simpa only [decide_eq_true_eq] using hclear n (List.mem_range.1 hn)
  show execHomeCapture dt u cap s = _
  simp only [execHomeCapture, ← ht, hreset, hhome, hstep, hedge, hactive, hsince, hclash, and_self, Bool.false_eq_true, if_false,
    if_true]

/-- HOME_ADJUST at standstill after the capture shifts the source and the position, and creeps home (R126). -/
theorem exec_homeAdjust_captured {dt : Nat} {u : Fin 4} {s t : State} {h : HomeSt} {d : Int} (ht : t = s.advance dt)
    (hreset : t.inReset = false) (hhome : t.ramp[u].homing = some h) (hstep : h.step = .captured)
    (hstill : t.ramp[u].motion = .still) (hd : d = t.pairInt (rampBase u + 0x70) - h.capture) :
    exec (.homeAdjust dt u) s = .next ((t.moveSource (t.fld (rampBase u + 4) 0 4) d).setRamp u { t.ramp[u] with
      pos := t.ramp[u].pos + d * 65536, homing := some { h with step := .creep },
      motion := .trap (trapNew (t.pairInt (rampBase u + 0x70) * 65536) (some h.creep)) }) := by
  show execHomeAdjust dt u s = _
  simp only [execHomeAdjust, ← ht, hreset, hhome, hstep, hstill, ← hd, and_self, Bool.false_eq_true, if_false, if_true]

/-- HOME_SEARCH_EXHAUSTED once the search is over orders the ramp stop (R126). -/
theorem exec_homeSearchExhausted_over {dt : Nat} {u : Fin 4} {s t : State} {h : HomeSt} {x : TrapRun} (ht : t = s.advance dt)
    (hreset : t.inReset = false) (hhome : t.ramp[u].homing = some h) (hstep : h.step = .search)
    (htrap : t.ramp[u].motion = .trap x) (hover : t.searchOver u h t.ramp[u].pos x.v x.up = true) :
    exec (.homeSearchExhausted dt u) s = .next (t.setRamp u { t.ramp[u] with
      homing := some { h with step := .exhausted }, stopReq := some (decide (t.ramp[u].stopReq = some true)) }) := by
  show execHomeSearchExhausted dt u s = _
  simp only [execHomeSearchExhausted, ← ht, hreset, hhome, hstep, htrap, hover, and_self, Bool.false_eq_true, if_false, if_true]

/-- HOME_LIMIT on an accepted limit edge of the homing orders the hard stop and posts HOME_LIMIT (R127). -/
theorem exec_homeLimit_edge {dt : Nat} {u : Fin 4} {n : Fin 48} {s t : State} {h : HomeSt} {e : Postmark} (ht : t = s.advance dt)
    (hreset : t.inReset = false) (hhome : t.ramp[u].homing = some h) (hedge : t.homeEdge u h n.val = some e)
    (hstep : h.step.ended = false) :
    exec (.homeLimit dt u n) s = .next ((t.setRamp u { t.ramp[u] with
      limLast := Vector.ofFn fun k : Fin 4 =>
        if bitAt (t.reg (rampBase u + 0x60 + 4 * k.val)) 6 &&
            decide (bitsAt (t.reg (rampBase u + 0x60 + 4 * k.val)) 0 6 = n.val) then some e else t.ramp[u].limLast[k]
      homing := some { h with step := .limited n.val, oppLast := some e }
      stopReq := some true }).post 0x0203 n.val) := by
  show execHomeLimit dt u n s = _
  simp only [execHomeLimit, ← ht, hreset, hhome, hedge, hstep, Bool.not_false, Bool.false_eq_true, if_false, if_true]

/-- Settles O10: what each handler runs, and one lemma for each event. -/
theorem limitsHomingAndGearComplete : Obligations.LimitsHomingAndGearComplete := by
  refine ⟨fun u => ?limits, fun u => ?home, fun u => ⟨?gearOff, fun a n hn0 => ?gear⟩, fun dt u k s t w e => exec_limitStop_guarded,
    fun dt u s t h pm => exec_homeRearmEnd_due, fun dt u cap s t h e => exec_homeCapture_edge,
    fun dt u s t h d => exec_homeAdjust_captured, fun dt u s t h x => exec_homeSearchExhausted_over,
    fun dt u n s t h e => exec_homeLimit_edge⟩
  case limits => exact .of_run (fun _ _ => rfl) (fun _ _ ⟨hu, hdoor⟩ => setLimits_run hu hdoor) fun _ _ _ => rfl
  case home =>
    exact .of_run (fun _ _ => rfl) (fun _ _ ⟨hu, hfree, hsource, hmax⟩ => home_run_started hu hfree hsource hmax) fun _ _ _ => rfl
  case gearOff =>
    exact .of_run (fun _ _ => rfl) (fun _ _ ⟨hu, hstill, hnone⟩ => gearSet_run_off hu hstill hnone) fun _ _ _ => rfl
  case gear =>
    exact .of_run (fun _ _ => rfl) (fun _ _ ⟨hu, ha, hn, hstill, hrole, hclean⟩ =>
      gearSet_run_loaded hn0 hu ha hn hstill hrole hclean rfl) fun _ _ _ => rfl

end Sys2Proof.Machine

/-! ### Writes of high halves (R91, R225) -/

namespace Sys2Proof.Machine

/-- The addresses whose writes have an effect of their own in place of a store. -/
def ownEffect (a : Nat) : Bool :=
  decide (0x60 ≤ a ∧ a ≤ 0x80) || decide (0x31000 ≤ a ∧ a < 0x33000) ||
    decide (a ∈ [0x34014, 0x40128, 0x40228, 0x40328, 0x50000, 0x70000, 0x700B0, 0x8003C, 0xA0000, 0xF0028]) ||
    decide (0x90000 ≤ a ∧ a < 0x90400 ∧ (a % 0x100 = 4 ∨ a % 0x100 = 0x10)) ||
    decide (0xB0000 ≤ a ∧ a < 0xE0000 ∧ 0x20 ≤ a % 0x10000 ∧ a % 0x10000 < 0x40)

/-- No other register has one. -/
theorem writeSpecial_of_not_ownEffect {a : Nat} (h : ownEffect a = false) (v m : Nat) (t : State) : t.writeSpecial a v m = none := by
  simp only [ownEffect, Bool.or_eq_false_iff, decide_eq_false_iff_not, List.mem_cons, List.not_mem_nil, or_false, not_or] at h
  simp (disch := omega) only [State.writeSpecial, if_neg]

/-- The high half of a written pair is no low half and has no effect of its own. -/
theorem pairHi_plain : ∀ lo ∈ pairAddrs, pairAddrs.contains (lo + 4) = false ∧ ownEffect (lo + 4) = false := by
  decide

/-- A write of a high half goes to its pair. -/
theorem writeEffect_pairHi {lo : Nat} (hlo : lo ∈ pairAddrs) (new v m : Nat) (t : State) :
    t.writeEffect (lo + 4) new v m = t.writeHi (lo + 4) v m := by
  obtain ⟨hlow, hown⟩ := pairHi_plain lo hlo
  have hpair : 4 ≤ lo + 4 ∧ pairAddrs.contains (lo + 4 - 4) = true := ⟨Nat.le_add_left 4 lo, List.contains_iff_mem.2 hlo⟩
  rw [State.writeEffect, writeSpecial_of_not_ownEffect hown]
  simp only [hlow, Bool.false_eq_true, if_false]
  exact if_pos hpair

/-- An allowed write of a high half that keeps R14 and the door's travel range brings both halves into force (R91, R225), the low half
the written one or, without one, the one in force (log 63). -/
theorem writeReg_pairHi {lo : Nat} {v : Word} {t : State} (hlo : lo ∈ pairAddrs) (hok : Allowed (lo + 4) v t)
    (hpos : plainPairs.contains lo = true ∨ posOk (t.halfLo lo + 2 ^ 32 * v.toNat) = true)
    (hdoor : lo = 0x50020 ∨ lo = 0x50028 → t.doorTravelOk lo (sext 64 (t.halfLo lo + 2 ^ 32 * v.toNat)) = true) :
    t.writeReg (lo + 4) v.toNat 0xFFFFFFFF = (none,
      { t with half := adel lo t.half, latch := adel (lo + 4) t.latch }.setPair lo (sext 64 (t.halfLo lo + 2 ^ 32 * v.toNat))) := by
  have hbad : (!plainPairs.contains lo && !posOk (t.halfLo lo + 2 ^ 32 * v.toNat)) = false := by
    rcases hpos with h | h <;> simp only [h, Bool.not_true, Bool.false_and, Bool.and_false]
  have hrange : ¬ ((lo = 0x50020 ∨ lo = 0x50028) ∧
      ¬ t.doorTravelOk lo (sext 64 (t.halfLo lo + 2 ^ 32 * v.toNat)) = true) := fun ⟨h, hout⟩ => hout (hdoor h)
  rw [writeReg_allowed hok, writeEffect_pairHi hlo]
  simp only [State.writeHi, mixBits_full _ v.isLt, Nat.add_sub_cancel, hbad, if_neg hrange, Bool.false_eq_true, if_false]

/-- The low half that a number of POSITION_HI_WRITE names. -/
theorem pairAddrs_getD (n : Fin 18) (d : Nat) : pairAddrs.getD n.val d = pairAddrs[n] := by
  rw [List.getD_eq_getElem?_getD, List.getElem?_eq_getElem n.isLt]
  rfl

/-- The high halves are registers. -/
theorem pairAddrs_hi_lt : ∀ n : Fin 18, pairAddrs[n] + 4 < 0x100000 := by
  decide

/-- The positions of the door are pairs 14 and 15. -/
theorem pairAddrs_door : ∀ n : Fin 18, pairAddrs[n] = 0x50020 ∨ pairAddrs[n] = 0x50028 → n = 14 ∨ n = 15 := by
  decide

/-- Both positions of the door are written pairs. -/
theorem doorPositions_mem : ∀ o : Bool, 0x50020 + 8 * b2n o ∈ pairAddrs ∧ 0x50024 + 8 * b2n o < 0x100000 := by
  decide

end Sys2Proof.Machine

/-! ### Writes of SENSE_LAND_CFG (R210) -/

namespace Sys2Proof.Machine

/-- A read of no bytes touches nothing. -/
theorem eccRead_zero (a : Nat) (t : State) : t.eccRead a 0 = (none, t) := by
  have hnone : touches a 0 = fun _ => false := funext fun w => by simp only [touches, ne_eq, not_true_eq_false, and_false, decide_false]
  simp only [State.eccRead, hnone, List.filter_eq_nil_iff.2 fun _ _ => Bool.false_ne_true, List.foldl_nil,
    List.find?_eq_none.2 fun _ _ => Bool.false_ne_true]

/-- A write of SENSE_LAND_CFG goes through the landing table's check. -/
theorem writeEffect_land (new v m : Nat) (t : State) : t.writeEffect 0x40824 new v m = t.writeLand new m := rfl

/-- COUNT 0 takes the landing table away (R210). -/
theorem writeLand_none {new : Nat} (t : State) (hcount : bitsAt new 0 8 = 0) :
    t.writeLand new 0xFFFFFFFF = (none, { t.setReg 0x40824 new with sense := { t.sense with landNext := some [] } }) := by
  have hmask : bitsAt 0xFFFFFFFF 0 8 ≠ 0 := by decide
  simp only [State.writeLand, hmask, hcount, ne_eq, not_true_eq_false, false_and, if_false, Nat.mul_zero, eccRead_zero]
  rfl

/-- The word pair of index `n` in a landing table at `a` in memory. -/
def State.landWord (t : State) (a n : Nat) : Nat := t.cell32 (a + 8 * n) + 2 ^ 32 * t.cell32 (a + 8 * n + 4)

/-- A readable table of `k` rising positions is copied (R210). -/
theorem writeLand_table {new a k : Nat} {t u : State} (hcount : bitsAt new 0 8 = k) (ha : t.reg 0x40820 = a) (halign : a % 8 = 0)
    (hrange : tableRange a (8 * k) = true) (hclean : (t.eccRead a (8 * k)).1 = none) (hu : (t.eccRead a (8 * k)).2 = u)
    (hok : ∀ n < k, posOk (u.landWord a n) = true ∧ (n + 1 < k → sext 64 (u.landWord a n) < sext 64 (u.landWord a (n + 1)))) :
    t.writeLand new 0xFFFFFFFF = (none, { u.setReg 0x40824 new with sense := { u.sense with
      landNext := some ((List.range k).map fun n => sext 64 (u.landWord a n)) } }) := by
  have hmask : bitsAt 0xFFFFFFFF 0 8 ≠ 0 := by decide
  have harg : ¬ (k ≠ 0 ∧ (a % 8 ≠ 0 ∨ ¬ tableRange a (8 * k) = true)) := fun ⟨_, hbad⟩ =>
    hbad.elim (· halign) (· hrange)
  have hpos : ((List.range k).map (u.landWord a)).all posOk = true := by
    simpa only [List.all_map, List.all_eq_true, List.mem_range, Function.comp_apply] using fun n hn => (hok n hn).1
  have hrising : ((List.range (k - 1)).all fun i => decide (((List.range k).map fun n => sext 64 (u.landWord a n)).getD i 0 <
      ((List.range k).map fun n => sext 64 (u.landWord a n)).getD (i + 1) 0)) = true := by
    refine List.all_eq_true.2 fun i hi => decide_eq_true ?_
    have hi1 : i + 1 < k := Nat.add_lt_of_lt_sub (List.mem_range.1 hi)
    have hi0 : i < k := Nat.lt_of_succ_lt hi1
    simpa [hi0, hi1] using (hok i hi0).2 hi1
  simp only [State.writeLand, hmask, hcount, ha, if_neg harg, hclean, hu, if_false, List.map_map, Function.comp_def]
  exact if_pos (Bool.and_eq_true_iff.2 ⟨hpos, hrising⟩)

end Sys2Proof.Machine

/-! ### Registers of the loop slots (R158, R164, R165, R185) -/

namespace Sys2Proof.Machine

/-- The number of the slot whose control register an address is. -/
theorem slotIdx_slotBase (n : Fin 16) : slotIdx ((slotBase n.val - 0x30100) / 0x40) = n :=
  Fin.ext (by simp only [slotIdx, slotBase]; omega)

/-- LOOP_CTL of each slot is a plain stored register without an effect of its own. -/
theorem slotBase_stored : ∀ n : Fin 16, plainStored (slotBase n.val) = true ∧ ownEffect (slotBase n.val) = false ∧
    slotBase n.val < 0x100000 := by
  decide

/-- What storing a register of the LOOP block does besides is that block's own. -/
theorem afterWrite_loopBlock {a : Nat} (hlo : 0x30000 ≤ a) (hhi : a < 0x40000) (old new m : Nat) (u : State) :
    u.afterWrite a old new m = u.loopAfter a old new := by
  simp (disch := omega) only [State.afterWrite, if_neg]

/-- A stored LOOP_CTL switches the bank of a running slot where its BANK bit changes (R158). -/
theorem afterWrite_slotBase (n : Fin 16) (old new m : Nat) (u : State) : u.afterWrite (slotBase n.val) old new m =
    if bitAt old 3 ≠ bitAt new 3 ∧ (u.loop.slots[n].mode = 1 ∨ u.loop.slots[n].mode = 2) then
      u.setSlot n (u.loop.slots[n].bankSwitched (bitAt old 3)) else u := by
  have hslot : 0x30100 ≤ slotBase n.val ∧ slotBase n.val < 0x30500 ∧ (slotBase n.val - 0x30100) % 0x40 = 0 := by
    simp only [slotBase]
    omega
  rw [afterWrite_loopBlock (by omega) (by omega)]
  simp only [State.loopAfter, if_pos hslot, slotIdx_slotBase]

/-- An allowed write of LOOP_CTL stores it, with what the switch of the bank does. -/
theorem writeReg_slotBase {n : Fin 16} {v : Word} {t : State} (hok : Allowed (slotBase n.val) v t) :
    t.writeReg (slotBase n.val) v.toNat 0xFFFFFFFF = (none, (t.setReg (slotBase n.val) (written (slotBase n.val) v t)).afterWrite
      (slotBase n.val) (t.reg (slotBase n.val)) (written (slotBase n.val) v t) 0xFFFFFFFF) := by
  obtain ⟨hstored, hown, -⟩ := slotBase_stored n
  rw [writeReg_allowed hok, writeEffect_of_stored hstored (writeSpecial_of_not_ownEffect hown ..)]

/-- The address of a coefficient. -/
def coefAddr (n : Fin 16) (b : Fin 2) (k : Fin 42) : Nat := 0x31000 + 0x200 * n.val + 0x100 * b.val + 4 * k.val

/-- The slot, bank and coefficient of such an address. -/
theorem coefReg_coefAddr (n : Fin 16) (b : Fin 2) (k : Fin 42) : coefReg (coefAddr n b k) = some (n, decide (b = 1), k.val) := by
  have hk : (coefAddr n b k - 0x31000) % 0x100 / 4 = k.val := by simp only [coefAddr]; omega
  have hn : slotIdx ((coefAddr n b k - 0x31000) / 0x200) = n := Fin.ext (by simp only [slotIdx, coefAddr]; omega)
  have hb : decide ((coefAddr n b k - 0x31000) % 0x200 / 0x100 = 1) = decide (b = 1) := by
    rw [decide_eq_decide, Fin.ext_iff, Fin.val_one, coefAddr]
    omega
  have ha : 0x31000 ≤ coefAddr n b k ∧ coefAddr n b k < 0x33000 ∧ coefAddr n b k % 4 = 0 := by
    simp only [coefAddr]
    omega
  simp only [coefReg, if_pos ha, hk, if_pos k.isLt, hn, hb]

/-- A stable coefficient is put into its bank, or behind the writes that wait for it, or into the queue of a slot that runs on it
(R164, R165; logs 56, 91). -/
theorem coefWrite_stable {n : Fin 16} {b : Bool} {k : Nat} {x : Int} {t : State} (hsched : t.scheduled n.val = false)
    (hroom : t.loop.slots[n].queue.length < 16)
    (hstable : k < 40 → sectionStable (t.loop.slots[n].integ (k / 5)) (coefAt ((t.bankAhead n b).set k x) (5 * (k / 5) + 3))
      (coefAt ((t.bankAhead n b).set k x) (5 * (k / 5) + 4)) = true) :
    t.coefWrite n b k x = .ok (
      let q := t.loop.slots[n]
      if b = t.bankSel n.val ∧ (q.mode = 1 ∨ q.mode = 2) ∨ q.queue.any (·.1 = b) = true then
        t.setSlot n { q with queue := q.queue ++ [(b, k, x)] }
      else t.setSlot n (q.putBank b ((if b then q.bank1 else q.bank0).set k x))) := by
  have hsec : (decide (k < 40) && !sectionStable (t.loop.slots[n].integ (k / 5))
      (coefAt ((t.bankAhead n b).set k x) (5 * (k / 5) + 3)) (coefAt ((t.bankAhead n b).set k x) (5 * (k / 5) + 4))) = false := by
    rw [Bool.and_eq_false_imp]
    exact fun h => by rw [hstable (of_decide_eq_true h), Bool.not_true]
  simp only [State.coefWrite, hsched, hsec, decide_eq_false (Nat.not_le.2 hroom), Bool.and_false, Bool.or_eq_true, Bool.and_eq_true,
    decide_eq_true_eq, Bool.false_eq_true, if_false]
  split <;> rfl

/-- A write of a coefficient register is its single write (R164). -/
theorem writeSpecial_coef {n : Fin 16} {b : Fin 2} {k : Fin 42} {v : Word} {t u : State}
    (h : t.coefWrite n (decide (b = 1)) k.val (sext 31 v.toNat) = .ok u) :
    t.writeSpecial (coefAddr n b k) v.toNat 0xFFFFFFFF = some (none, u) := by
  have ha : 0x31000 ≤ coefAddr n b k ∧ coefAddr n b k < 0x33000 := by simp only [coefAddr]; omega
  simp (disch := omega) only [State.writeSpecial, if_neg, if_pos ha, coefReg_coefAddr, mixBits_full _ v.isLt, h]

end Sys2Proof.Machine

/-! ### Faults cleared (R180, R201, R257) -/

namespace Sys2Proof.Machine

/-- A write of 1 to the FAULT of an encoder whose cause is absent clears it (R201). -/
theorem writeSpecial_encFault {k : Fin 3} {v : Word} {t : State} (hv : bitAt v.toNat 0 = true) (hfault : t.sense.fault[k] = true)
    (habsent : t.encCauseAbsent k = true) :
    t.writeSpecial (0x40128 + 0x100 * k.val) v.toNat 0xFFFFFFFF = some (none, t.encFaultClear k) := by
  have hk : fidx 2 ((0x40128 + 0x100 * k.val - 0x40100) / 0x100) = k := Fin.ext (by simp only [fidx]; omega)
  have ha : 0x40128 + 0x100 * k.val = 0x40128 ∨ 0x40128 + 0x100 * k.val = 0x40228 ∨ 0x40128 + 0x100 * k.val = 0x40328 := by omega
  simp (disch := omega) only [State.writeSpecial, if_neg, if_pos ha, hk, word_and_full, hv, hfault, habsent, Bool.and_self, if_true]

/-- FAULT cleared: the encoder's source is valid again where nothing else is against it (R193, R201). -/
theorem encFaultClear_of_fault {k : Fin 3} {t : State} (hfault : t.sense.fault[k] = true) : t.encFaultClear k =
    (let u : State := { t with sense := { t.sense with fault := t.sense.fault.set k false } }
     if u.encGood k then
       ({ u with sense := { u.sense with known := u.sense.known.set (srcIdx (3 + k.val)) true } }).post 0x0405 (3 + k.val)
     else u) := by
  simp only [State.encFaultClear, hfault, if_true]

/-- A write of 1 to TRIP while every current-rate slot is OFF clears it (R180). -/
theorem writeSpecial_trip {v : Word} {t : State} (hv : bitAt v.toNat 0 = true) (htrip : t.loop.trip = true) (hoff : t.curOff = true) :
    t.writeSpecial 0x34014 v.toNat 0xFFFFFFFF = some (none, { t with loop := { t.loop with trip := false } }) := by
  simp [State.writeSpecial, word_and_full, hv, htrip, hoff]

/-- A write of 1 to the FAULT of the door stage whose cause is absent clears it (R257). -/
theorem writeSpecial_doorFault {v : Word} {t : State} (hv : bitAt v.toNat 8 = true) (hfault : t.door.fault = true)
    (habsent : t.stageCauseAbsent = true) :
    t.writeSpecial 0x50000 v.toNat 0xFFFFFFFF = some (none, t.setDoor { t.door with fault := false }) := by
  simp [State.writeSpecial, word_and_full, hv, hfault, habsent]

/-- LOOP_CAPSEL is a plain stored register of each of the 16 signals. -/
theorem capsel_stored : ∀ k : Fin 16, plainStored (0x37000 + 4 * k.val) = true ∧ ownEffect (0x37000 + 4 * k.val) = false := by
  decide

/-- LOOP_CAPSEL only stores its code (R188). -/
theorem afterWrite_capsel (k : Fin 16) (old new m : Nat) (u : State) : u.afterWrite (0x37000 + 4 * k.val) old new m = u := by
  rw [afterWrite_loopBlock (by omega) (by omega)]
  simp (disch := omega) only [State.loopAfter, if_neg]

/-- What storing SSI0_CFG does besides (R203), `q` and `n` the parts of the state that the store leaves. -/
theorem afterWrite_ssiConfig {u : State} {q : SenseSt} {n : Postmark} (hq : u.sense = q) (hn : u.now = n) (old new m : Nat) :
    u.afterWrite 0x40400 old new m =
      if bitsAt new 15 1 = 0 then { u with sense := { q with known := q.known.set 1 false, ssiGood := 0 } }
      else if bitsAt old 15 1 = 0 then
        { u with sense := { q with ssiBad := 0, ssiGood := 0, ssiNew := none, ssiOld := none, ssiFrom := n } }
      else u := by
  subst hq hn
  simp (disch := omega) only [State.afterWrite, if_neg, if_true]

/-- SSI0_TIMING only stores its fields. -/
theorem afterWrite_ssiTiming (old new m : Nat) (u : State) : u.afterWrite 0x40404 old new m = u := by
  simp (disch := omega) only [State.afterWrite, State.loopAfter, if_neg]

/-- NOTCH_CFG only stores its fields. -/
theorem afterWrite_notch (old new m : Nat) (u : State) : u.afterWrite 0x35000 old new m = u := by
  rw [afterWrite_loopBlock (by omega) (by omega)]
  simp (disch := omega) only [State.loopAfter, if_neg]

/-- What storing HOIST_K does besides (R172), `l` and `y` the parts of the state that the store leaves. -/
theorem afterWrite_hoistK {u : State} {l : LoopSt} {y : SysSt} (hl : u.loop = l) (hy : u.sys = y) (old new m : Nat) :
    u.afterWrite 0x34000 old new m = { u with loop := { l with kbad := !carrierOk (bitsAt new 0 5) y.period } } := by
  subst hl hy
  rw [afterWrite_loopBlock (by omega) (by omega)]
  simp (disch := omega) only [State.loopAfter, if_neg, if_true]

/-- The cogging range in force stays in use until the next sample (R170). -/
theorem afterWrite_cogAddr (old new m : Nat) (u : State) : u.afterWrite 0x36004 old new m =
    if u.fld 0x36000 0 1 = 1 then { u with loop := { u.loop with cogOld := some (u.loop.cogOld.getD old) } } else u := by
  rw [afterWrite_loopBlock (by omega) (by omega)]
  simp (disch := omega) only [State.loopAfter, if_neg, if_true]

/-- Settles O7: each row through the one write path, with its register's store or own effect. -/
theorem motionRegisterWritesComplete : Obligations.MotionRegisterWritesComplete := by
  refine ⟨fun n => ?positionHi, fun k => ?encFault, ?ssiTiming, ?ssiConfig, ?landNone, fun k _ => ?land,
    fun n => ⟨?loopBank, ?loopMill⟩, fun n b k => ?coef, ?notch, ?hoistK, ?trip, ?cog, fun k => ?capsel, ?doorFault,
    fun o => ?doorPosition⟩
  case positionHi =>
    simp only [pairAddrs_getD]
    refine .of_write (fun h v s => ?_) (pairAddrs_hi_lt n) fun v t ⟨hok, hpos, hdoor⟩ =>
      writeReg_pairHi (List.getElem_mem _) hok hpos fun hlo => hdoor (pairAddrs_door n hlo)
    rw [← pairAddrs_getD n 0x20070]
    rfl
  case encFault =>
    refine .of_special (fun _ _ _ => rfl) (by omega) fun v t ⟨hv, hfault, habsent⟩ => ?_
    rw [writeSpecial_encFault hv hfault habsent, encFaultClear_of_fault hfault]
  case ssiTiming => exact .of_stored (fun _ _ _ => rfl) (by decide) rfl (fun _ _ => rfl) fun _ _ => afterWrite_ssiTiming ..
  case ssiConfig =>
    exact .of_stored (fun _ _ _ => rfl) (by decide) rfl (fun _ _ => rfl) fun _ _ =>
      afterWrite_ssiConfig (State.setReg_sense ..) (State.setReg_now ..) ..
  case landNone =>
    refine .of_write (fun _ _ _ => rfl) (by decide) fun v t ⟨hok, hcount⟩ => ?_
    rw [writeReg_allowed hok, writeEffect_land, writeLand_none t hcount]
  case land =>
    refine .of_write (fun _ _ _ => rfl) (by decide) fun v t ⟨hok, hcount, halign, hrange, hclean, hrising⟩ => ?_
    rw [writeReg_allowed hok, writeEffect_land]
    exact writeLand_table hcount rfl halign hrange hclean rfl hrising
  case loopBank =>
    refine .of_write (fun _ _ _ => rfl) (slotBase_stored n).2.2 fun v t hok => ?_
    rw [writeReg_slotBase hok, afterWrite_slotBase]
    rfl
  case loopMill =>
    refine .of_write (fun _ _ _ => rfl) (slotBase_stored n).2.2 fun v t ⟨hok, hsame⟩ => ?_
    rw [writeReg_slotBase hok, afterWrite_slotBase, if_neg fun hchange => hchange.1 hsame]
  case coef =>
    refine .of_special (fun _ _ _ => rfl) (by omega) fun v t ⟨hsched, hroom, hstable⟩ => ?_
    refine (writeSpecial_coef (coefWrite_stable hsched hroom hstable)).trans ?_
    simp only [decide_eq_true_eq]
  case notch => exact .of_stored (fun _ _ _ => rfl) (by decide) rfl (fun _ _ => rfl) fun _ _ => afterWrite_notch ..
  case hoistK =>
    exact .of_stored (fun _ _ _ => rfl) (by decide) rfl (fun _ _ => rfl) fun _ _ =>
      afterWrite_hoistK (State.setReg_loop ..) (State.setReg_sys ..) ..
  case trip => exact .of_special (fun _ _ _ => rfl) (by decide) fun _ _ ⟨hv, htrip, hoff⟩ => writeSpecial_trip hv htrip hoff
  case cog => exact .of_stored (fun _ _ _ => rfl) (by decide) rfl (fun _ _ => rfl) fun _ _ => afterWrite_cogAddr ..
  case capsel =>
    obtain ⟨hstored, hown⟩ := capsel_stored k
    exact .of_stored (fun _ _ _ => rfl) (by omega) hstored (fun _ _ => writeSpecial_of_not_ownEffect hown ..)
      fun _ _ => afterWrite_capsel k ..
  case doorFault =>
    exact .of_special (fun _ _ _ => rfl) (by decide) fun _ _ ⟨hv, hfault, habsent⟩ => writeSpecial_doorFault hv hfault habsent
  case doorPosition =>
    obtain ⟨hmem, hlt⟩ := doorPositions_mem o
    have hhi : 0x50024 + 8 * b2n o = 0x50020 + 8 * b2n o + 4 := by omega
    refine .of_write (fun _ _ _ => rfl) hlt fun v t ⟨hok, hpos, htravel⟩ => ?_
    rw [hhi] at hok ⊢
    exact writeReg_pairHi hmem hok (.inr hpos) fun _ => htravel

end Sys2Proof.Machine

/-! ### The LOOP letters (R134, R135, R149, R156-R161, R184, R186) -/

namespace Sys2Proof.Machine

/-- A slot just loaded from a descriptor, its banks cleared (R134, R135); of `q` it keeps the injection value last used. -/
def SlotSt.loaded (b : List Byte) (q : SlotSt) : SlotSt :=
  { SlotSt.init with desc := b, bank0 := clearedBank (u8 b 2), bank1 := clearedBank (u8 b 2), eff := clearedBank (u8 b 2),
                     tickEff := clearedBank (u8 b 2), injVal := q.injVal }

/-- LOOP_CONFIG with address 0 takes an OFF slot back to unconfigured (R134). -/
theorem loopConfig_run_cleared {q : Letter} {t : State} {n : Fin 16} (hn : slotIdx (u32 q.payload 0) = n)
    (hoff : t.loop.slots[n].off = true) (ha : u32 q.payload 4 = 0) :
    loopConfigHandler.run q t = (.done 0 [], t.setSlot n SlotSt.init) := by
  simp only [loopConfigHandler, handler, hn, hoff, ha, doneWith, Bool.not_true, Bool.false_eq_true, if_false, if_true]

/-- LOOP_CONFIG of an OFF slot loads a descriptor that can be read and passes the checks (R134-R136). -/
theorem loopConfig_run_loaded {q : Letter} {t v : State} {n : Fin 16} {a : Nat} {b : List Byte} (ha0 : a ≠ 0)
    (hn : slotIdx (u32 q.payload 0) = n) (ha : u32 q.payload 4 = a) (hoff : t.loop.slots[n].off = true)
    (hclean : (t.eccRead a 64).1 = none) (hv : (t.eccRead a 64).2 = v) (hb : v.cellsFrom a 64 = b) (hdesc : descBad b = none)
    (hrole : v.descRole b = false) (hfits : v.descRefused n b = none) :
    loopConfigHandler.run q t = (.done 0 [], v.setSlot n (v.loop.slots[n].loaded b)) := by
  simp only [loopConfigHandler, handler, hn, hoff, ha, ha0, hclean, hv, hb, hdesc, hrole, hfits, doneWith, SlotSt.loaded,
    Bool.not_true, Bool.false_eq_true, if_false]

/-- LOOP_MODE records the mode of a configured slot, at the current rate with neither TRIP nor a bad carrier factor (R149). -/
theorem loopMode_run {q : Letter} {t : State} {n : Fin 16} (hn : slotIdx (u8 q.payload 0) = n) (hmode : u8 q.payload 1 ≤ 4)
    (hconf : t.loop.slots[n].configured = true) (hcur : t.loop.slots[n].d 0 = 1 → t.loop.trip = false ∧ t.loop.kbad = false) :
    loopModeHandler.run q t =
      (.done 0 [], t.setSlot n { t.loop.slots[n] with req := some (u8 q.payload 1), reqBlk := false }) := by
  have htrip : ¬ (t.loop.slots[n].d 0 = 1 ∧ t.loop.trip = true) := fun ⟨hrate, h⟩ =>
    Bool.false_ne_true ((hcur hrate).1.symm.trans h)
  have hcarrier : ¬ (t.loop.slots[n].d 0 = 1 ∧ t.loop.kbad = true) := fun ⟨hrate, h⟩ =>
    Bool.false_ne_true ((hcur hrate).2.symm.trans h)
  simp only [loopModeHandler, handler, hn, hconf, if_neg (Nat.not_lt.2 hmode), if_neg htrip, if_neg hcarrier, doneWith,
    Bool.not_true, Bool.false_eq_true, if_false]

/-- The slot without the single writes that wait for bank `b`, which a set for the bank replaces (log 91). -/
def SlotSt.dropWaiting (b : Bool) (q : SlotSt) : SlotSt := { q with queue := q.queue.filter (·.1 ≠ b) }

/-- COEF_BANK of an unscheduled slot puts a stable set into its bank, or keeps it as the new set of a slot that runs on that bank
(R156, R157). -/
theorem coefBank_run_stable {q : Letter} {t v : State} {n : Fin 16} {a : Nat} {b : Bool} (hn : slotIdx (u8 q.payload 0) = n)
    (ha : u32 q.payload 4 = a) (hb : decide (u8 q.payload 1 = 1) = b) (hconf : t.loop.slots[n].configured = true)
    (hsched : t.scheduled n.val = false) (hclean : (t.eccRead a 192).1 = none) (hv : (t.eccRead a 192).2 = v)
    (hzero : firstNonzero (v.cellsFrom a 192) 168 24 = none)
    (hstable : t.loop.slots[n].unstable (coefSet (v.cellsFrom a 192)) = none) :
    coefBankHandler.run q t = (.done 0 [],
      if b = v.bankSel n.val ∧ (t.loop.slots[n].mode = 1 ∨ t.loop.slots[n].mode = 2) then
        v.setSlot n { t.loop.slots[n].dropWaiting b with newSet := some (coefSet (v.cellsFrom a 192)) }
      else v.setSlot n ((t.loop.slots[n].dropWaiting b).putBank b (coefSet (v.cellsFrom a 192)))) := by
  subst hb
  have hbank (c : Bool) : ((u8 q.payload 1 = 1) = (c = true)) = (decide (u8 q.payload 1 = 1) = c) := by
    cases c <;> simp
  have hwaits (c : Bool) : ((c = true) = (u8 q.payload 1 = 1)) = (c = decide (u8 q.payload 1 = 1)) := by
    cases c <;> simp
  simp only [coefBankHandler, handler, hn, ha, hconf, hsched, hclean, hv, hzero, hstable, doneWith, SlotSt.dropWaiting, hbank, hwaits,
    Bool.not_true, Bool.false_eq_true, Bool.and_eq_true, Bool.or_eq_true, decide_eq_true_eq, ne_eq, if_false]
  split <;> rfl

/-- A slot of the mask of a new schedule or of the one in force is scheduled or of the new mask. -/
theorem scheduled_of_testBit {t : State} {mask i : Nat}
    (h : (mask ||| if t.loop.var = 3 then 0 else t.loop.mask).testBit i = true) :
    t.scheduled i = true ∨ mask.testBit i = true := by
  rw [Nat.testBit_or, Bool.or_eq_true] at h
  refine h.symm.imp_left fun hold => ?_
  by_cases hvar : t.loop.var = 3
  · simp [hvar] at hold
  · simpa [State.scheduled, hvar] using hold

/-- No slot of a new schedule or of the one in force runs: SCHED_SET is not refused for it (R159). -/
theorem schedSet_slots_off {t : State} {mask : Nat}
    (hoff : ∀ n : Fin 16, t.scheduled n.val = true ∨ mask.testBit n.val = true → t.loop.slots[n].off = true) :
    ((List.finRange 16).any fun i =>
      (mask ||| if t.loop.var = 3 then 0 else t.loop.mask).testBit i.val && !t.loop.slots[i].off) = false := by
  refine List.any_eq_false.2 fun n _ hrun => ?_
  obtain ⟨hbit, hon⟩ := Bool.and_eq_true_iff.1 hrun
  simp only [hoff n (scheduled_of_testBit hbit), Bool.not_true, Bool.false_eq_true] at hon

/-- SCHED_SET with mask 0 switches the schedule off (R159). -/
theorem schedSet_run_off {q : Letter} {t : State} (hmask : u16 q.payload 0 = 0)
    (hoff : ∀ n : Fin 16, t.scheduled n.val = true → t.loop.slots[n].off = true) :
    schedSetHandler.run q t =
      (.done 0 [], { t with loop := { t.loop with var := 3, mask := 0, regions := [], schedFrozen := false } }) := by
  have hfree := schedSet_slots_off (t := t) (mask := 0) fun n h => hoff n (h.resolve_right (by simp))
  simp only [schedSetHandler, handler, hmask, hfree, doneWith, Bool.false_eq_true, if_false, if_true]

/-- The state in which SCHED_SET puts the schedule in force: the writes that wait for its slots dropped (log 91), the regions of
the table known, the banks not loaded yet. -/
def State.schedIn (var mask band : Nat) (g : List (Int × Nat)) (r : State) : State :=
  { r with loop := { r.loop with
      slots := Vector.ofFn fun n : Fin 16 =>
        if mask.testBit n.val then { r.loop.slots[n] with queue := [], newSet := none } else r.loop.slots[n]
      var := var, mask := mask, band := band, regions := g, schedFrozen := false } }

/-- SCHED_SET with a valid region table of stable sets puts the schedule in force and loads the banks of the present region (R159,
R160). -/
theorem schedSet_run_loaded {q : Letter} {t v r : State} {a k mask : Nat} {g : List (Int × Nat)} (hmask0 : mask ≠ 0)
    (hmask : u16 q.payload 0 = mask) (hk : u8 q.payload 3 = k) (ha : u32 q.payload 4 = a)
    (hoff : ∀ n : Fin 16, t.scheduled n.val = true ∨ mask.testBit n.val = true → t.loop.slots[n].off = true)
    (hclean : (t.eccRead a (16 * k)).1 = none) (hv : (t.eccRead a (16 * k)).2 = v)
    (htable : v.regionsBad a k ((List.range 16).filter mask.testBit).length = none) (hg : v.regionTable a k = g)
    (hsets : (v.regionSets mask g).1 = none) (hr : (v.regionSets mask g).2 = r) :
    schedSetHandler.run q t = (.done 0 [],
      let u := r.schedIn (u8 q.payload 2) mask (u32 q.payload 8) g
      { u with loop := { u.loop with near := nearBoundary u.schedValue.1 g } }.loadBanks (nearBoundary u.schedValue.1 g)) := by
  simp only [schedSetHandler, handler, hmask, hk, ha, schedSet_slots_off hoff, if_neg hmask0, hclean, hv, htable, hg, hsets, hr, doneWith,
    Bool.false_eq_true, if_false]
  rfl

/-- INJECT into a running slot without an injection and without a mill's is QUEUED and starts (R184). -/
theorem inject_run_started {q : Letter} {t : State} {n : Fin 16} (hn : slotIdx (u8 q.payload 0) = n)
    (hconf : t.loop.slots[n].configured = true) (hruns : t.loop.slots[n].mode ≠ 0) (hnone : t.loop.slots[n].inj = none)
    (hmill : t.fld (slotBase n.val) 10 3 = 0) :
    injectHandler.run q t = (.queued (.inject n),
      t.setSlot n { t.loop.slots[n] with inj := some ⟨u8 q.payload 1, u32 q.payload 4, u32 q.payload 8, 0⟩ }) := by
  simp only [injectHandler, handler, hn, hconf, hruns, hnone, hmill, decide_false, Bool.not_true, Bool.or_self,
    Option.isSome_none, ne_eq, not_true_eq_false, Bool.false_eq_true, if_false]

/-- The capture that a CAPTURE letter arms, nothing recorded yet (R186). -/
def capArmed (p : List Byte) : CapSt :=
  { dec := u8 p 0, mask := u16 p 2, trig := u32 p 4, count := u32 p 8, triggered := false, hit := false, skip := 0, last := none }

/-- CAPTURE without a capture in progress, at a clock that the station has, is QUEUED and arms (R186). -/
theorem capture_run_armed {q : Letter} {t : State} (hnone : t.loop.cap = none)
    (hclock : bitsAt (u32 q.payload 4) 4 1 = 1 → t.carStation = false) :
    captureHandler.run q t = (.queued .capture,
      { t with loop := { t.loop with capRecs := 0, capTrig := false, cap := some (capArmed q.payload) } }) := by
  have hallowed : ¬ (bitsAt (u32 q.payload 4) 4 1 = 1 ∧ t.carStation = true) := fun ⟨hcur, hcar⟩ =>
    Bool.false_ne_true ((hclock hcur).symm.trans hcar)
  simp only [captureHandler, handler, if_neg hallowed, hnone, Option.isSome_none, capArmed, Bool.false_eq_true, if_false]

/-- Settles O11: what each handler runs, by the letter and the state of its slots. -/
theorem loopLettersComplete : Obligations.LoopLettersComplete := by
  refine ⟨fun n => ⟨?cleared, fun a ha0 => ⟨?loaded, ?mode⟩⟩, fun n a b => ?bank, ?schedOff, fun a k mask hmask0 => ?sched,
    fun n => ?inject, ?capture⟩
  case cleared =>
    exact .of_run (fun _ _ => rfl) (fun _ _ ⟨hn, hoff, ha⟩ => loopConfig_run_cleared hn hoff ha) fun _ _ _ => rfl
  case loaded =>
    exact .of_run (fun _ _ => rfl) (fun _ _ ⟨hn, ha, hoff, hclean, hdesc, hrole, hfits⟩ =>
      loopConfig_run_loaded ha0 hn ha hoff hclean rfl rfl hdesc hrole hfits) fun _ _ _ => rfl
  case mode =>
    exact .of_run (fun _ _ => rfl) (fun _ _ ⟨hn, hmode, hconf, hcur⟩ => loopMode_run hn hmode hconf hcur) fun _ _ _ => rfl
  case bank =>
    exact .of_run (fun _ _ => rfl) (fun _ _ ⟨hn, ha, hb, hconf, hsched, hclean, hzero, hstable⟩ =>
      coefBank_run_stable hn ha hb hconf hsched hclean rfl hzero hstable) fun _ _ _ => rfl
  case schedOff => exact .of_run (fun _ _ => rfl) (fun _ _ ⟨hmask, hoff⟩ => schedSet_run_off hmask hoff) fun _ _ _ => rfl
  case sched =>
    exact .of_run (fun _ _ => rfl) (fun _ _ ⟨hmask, hk, ha, hoff, hclean, htable, hsets⟩ =>
      schedSet_run_loaded hmask0 hmask hk ha hoff hclean rfl htable rfl hsets rfl) fun _ _ _ => rfl
  case inject =>
    exact .of_run (fun _ _ => rfl) (fun _ _ ⟨hn, hconf, hruns, hnone, hmill⟩ =>
      inject_run_started hn hconf hruns hnone hmill) fun _ _ _ => rfl
  case capture =>
    exact .of_run (fun _ _ => rfl) (fun _ _ ⟨hnone, hclock⟩ => capture_run_armed hnone hclock) fun _ _ _ => rfl

end Sys2Proof.Machine

/-! ### The current sample, trips, saturation and brakes (R143, R172-R181, R182, R212) -/

namespace Sys2Proof.Machine

/-- The duty computed last takes effect at this sample (R172, R177). -/
def State.dutyTaken (u : State) : State :=
  { u with loop := { u.loop with dutyPrev := u.loop.duty, duty := u.loop.dutyNext, sampledAt := some u.now, cogOld := none } }

/-- The electrical angle of a state whose encoder stands at `tm` (R174). -/
def State.elecAngle (tm : Nat) (s : State) : Nat := (s.fld 0x34008 0 8 * tm + s.fld 0x34008 16 16 * 2 ^ 16) % 2 ^ 32

/-- The current vector of the currents `i`, after their sum check (R174, R181). -/
def State.vectorTaken (i : Vector Int 3) (s : State) : State := (s.sumCheck i).clarkePark i ((s.sumCheck i).elecAngle s.encAngle)

/-- A due CURRENT_SAMPLE of a machine station with a valid carrier factor: `u` the state with the samples and bits since taken
(R172-R178, R187). -/
theorem exec_currentSample_due {dt : Nat} {x : CurIn} {s t u v : State} (ht : t = s.advance dt) (hreset : t.inReset = false)
    (hmachine : t.machine = true) (hcarrier : t.loop.kbad = false) (hdue : t.sampleDue = true)
    (hu : u = (((t.encRun 0 x.enc).sdRun 0 x.sd[0]).sdRun 1 x.sd[1]).sdRun 2 x.sd[2])
    (hv : v = u.dutyTaken.vectorTaken u.dutyTaken.sampleCurrents) :
    exec (.currentSample dt x) s = .next (((v.curSlots u.dutyTaken.encAngle).1.modulate u.dutyTaken.sampleCurrents
      (v.curSlots u.dutyTaken.encAngle).2).capStep 1) := by
  subst hu hv
  show execCurrentSample dt x s = _
  simp only [execCurrentSample, ← ht, hreset, hmachine, hcarrier, hdue, Bool.not_true, Bool.or_self, Bool.false_eq_true, if_false]
  rfl

/-- A bit that completes a value, and is neither the 512th without a change nor the one that makes the channel valid, brings the
channel's current to the trip check and does no more: `q` is the channel after it (R180, R212). -/
theorem sdStep_value {k : Fin 3} {b : Bool} {u : State} {q : SdCh} (hq : q = SdCh.push (u.sdLen k) b u.sense.sd[k])
    (hsame : q.same ≠ 512) (hvalid : q.good < 3 * u.sdLen k ∨ u.sense.sdValid[k] = true) (hclk : q.clk = 0) :
    u.sdStep k b = { u with sense := { u.sense with sd := u.sense.sd.set k q } }.tripCheck k := by
  have hkeeps : ¬ (3 * u.sdLen k ≤ q.good ∧ u.sense.sdValid[k] = false) := fun ⟨hlong, hinvalid⟩ =>
    hvalid.elim (Nat.not_lt.2 hlong) fun h => Bool.false_ne_true (hinvalid.symm.trans h)
  have hset : u.sense.sdValid.set k u.sense.sdValid[k] = u.sense.sdValid := Vector.set_getElem_self _
  simp only [State.sdStep, ← hq, if_neg hsame, if_neg hkeeps, hclk, if_true, hset]

/-- A current above TRIP in a machine station trips the hoist stage (R180). -/
theorem tripCheck_beyond {k : Fin 3} {w : State} (hmachine : w.machine = true)
    (hbeyond : w.fld 0x3400C 0 20 * 10 < (w.sdCurrent k).natAbs) :
    w.tripCheck k = { w with loop := { w.loop with trip := true, phase := k.val, enabled := false } }.post 0x0303 k.val := by
  simp only [State.tripCheck, hmachine, hbeyond, decide_true, Bool.and_self, if_true]

/-- OVERCURRENT on a channel that is on: the bit that completes a value beyond TRIP trips the hoist stage (R180, R212). -/
theorem exec_overcurrent_beyond {dt : Nat} {k : Fin 3} {bits : List Bool} {b : Bool} {s t u w : State} {q : SdCh}
    (ht : t = s.advance dt) (hreset : t.inReset = false) (hon : t.sdOn k = true) (hu : u = bits.foldl (State.sdStep k) t)
    (hmachine : u.machine = true) (hq : q = SdCh.push (u.sdLen k) b u.sense.sd[k]) (hsame : q.same ≠ 512)
    (hvalid : q.good < 3 * u.sdLen k ∨ u.sense.sdValid[k] = true) (hclk : q.clk = 0)
    (hw : w = { u with sense := { u.sense with sd := u.sense.sd.set k q } })
    (hbeyond : w.fld 0x3400C 0 20 * 10 < (w.sdCurrent k).natAbs) :
    exec (.overcurrent dt k (bits ++ [b])) s =
      .next ({ w with loop := { w.loop with trip := true, phase := k.val, enabled := false } }.post 0x0303 k.val) := by
  have hrun : t.sdRun k (bits ++ [b]) = u.sdStep k b := by
    simp only [State.sdRun, hon, if_true, List.foldl_append, ← hu, List.foldl_cons, List.foldl_nil]
  have hmachine' : w.machine = true := by rw [hw]; exact hmachine
  show execOvercurrent dt k (bits ++ [b]) s = _
  simp only [execOvercurrent, ← ht, hreset, Bool.false_eq_true, if_false, hrun, sdStep_value hq hsame hvalid hclk, ← hw,
    tripCheck_beyond hmachine' hbeyond]

/-- LOOP_SAT of a slot at a limit for SATTIME posts its event once (R143). -/
theorem exec_loopSat_due {dt : Nat} {n : Fin 16} {s t : State} {hi : Bool} {pm : Postmark} (ht : t = s.advance dt)
    (hreset : t.inReset = false) (hsat : t.loop.slots[n].satAt = some (hi, pm)) (hnew : t.loop.slots[n].satPosted = false)
    (hdue : pm + u16 t.loop.slots[n].desc 48 * 80000 ≤ t.now) :
    exec (.loopSat dt n) s = .next ((t.setSlot n { t.loop.slots[n] with satPosted := true }).post 0x0301
      (n.val + (if hi then 0 else 256))) := by
  show execLoopSat dt n s = _
  simp only [execLoopSat, ← ht, hreset, hsat, hnew, hdue, decide_true, Bool.not_false, Bool.and_self, Bool.false_eq_true, if_false,
    if_true]

/-- BRAKE_PICK_END of a brake whose PICKTIME has passed gives its HOLD profile (R182). -/
theorem exec_brakePickEnd_due {dt : Nat} {b : Fin 2} {s t : State} (ht : t = s.advance dt) (hreset : t.inReset = false)
    (hpick : t.loop.brake[b] = 1) (hdue : t.loop.brakeAt[b] + t.fld (0x34020 + 0x10 * b.val) 16 16 * 80000 ≤ t.now) :
    exec (.brakePickEnd dt b) s = .next { t with loop := { t.loop with brake := t.loop.brake.set b 2 } } := by
  show execBrakePickEnd dt b s = _
  simp only [execBrakePickEnd, ← ht, hreset, hpick, hdue, and_self, Bool.false_eq_true, if_false, if_true]

/-- Settles O12: one lemma for each event. -/
theorem loopEventsComplete : Obligations.LoopEventsComplete :=
  ⟨fun _ _ _ _ _ ht hreset hmachine hcarrier hdue hu => exec_currentSample_due ht hreset hmachine hcarrier hdue hu rfl,
    fun _ _ _ _ _ _ _ _ _ ht hreset _ hon => exec_overcurrent_beyond ht hreset hon,
    fun _ _ _ _ _ _ => exec_loopSat_due, fun _ _ _ _ => exec_brakePickEnd_due⟩

end Sys2Proof.Machine

/-! ### The events of SENSE: tape, encoders, sigma-delta channels, mismatch (R193-R213) -/

namespace Sys2Proof.Machine

/-- A register field is no matter of what SENSE holds. -/
theorem fld_of_sense (t : State) (q : SenseSt) (a lo len : Nat) : { t with sense := q }.fld a lo len = t.fld a lo len := rfl

/-- A good SSI read becomes the latest one and clears the count of bad reads; the second good one makes an invalid source valid
(R193, R205, R206). -/
def State.ssiAccept (r : SsiRead) (u : State) : State :=
  let q : SenseSt := { u.sense with
    ssiBad := 0, ssiGood := u.sense.ssiGood + 1, ssiOld := u.sense.ssiNew, ssiNew := some r, ssiLast := some r }
  if u.sense.known[1] = false ∧ 2 ≤ u.sense.ssiGood + 1 then
    { u with sense := { q with known := u.sense.known.set 1 true } }.post 0x0405 1
  else { u with sense := q }

/-- A bad SSI read counts, and at ERRMAX the source becomes invalid and its two reads are forgotten (R205). -/
def State.ssiReject (kind : Nat) (u : State) : State :=
  let q : SenseSt := { u.sense with
    ssiBad := u.sense.ssiBad + 1, ssiGood := 0, ssiErr := satAdd 0xFFFF u.sense.ssiErr 1 }
  if u.sense.ssiBad + 1 = u.fld 0x40400 16 4 ∨ (u.fld 0x40400 16 4 < u.sense.ssiBad + 1 ∧ u.sense.known[1] = true) then
    ({ u with sense := { q with
      known := u.sense.known.set 1 false, ssiNew := none, ssiOld := none } }.clearHomed 1).post 0x0402 kind
  else { u with sense := q }

/-- The raw value of a read's data bits under a configuration word (R203). -/
def ssiRaw (cfg data : Nat) : Nat :=
  if bitAt cfg 6 then grayDecode (data % 2 ^ bitsAt cfg 0 6) else data % 2 ^ bitsAt cfg 0 6

section Ssi

variable {dt : Nat} {x : SsiIn} {s t u : State} {raw : Nat} {pm : Postmark} (ht : t = s.advance dt) (hreset : t.inReset = false)
  (hon : t.ssiOn = true) (hpm : pm = t.now - ssiFrameNs (t.reg 0x40400) (t.reg 0x40404) * 8 / 100) (hdue : t.ssiDue pm = true)
  (hraw : raw = ssiRaw (t.reg 0x40400) x.data) (hu : u = { t with sense := { t.sense with ssiStart := some pm } })

include ht hreset hon hpm hdue hraw hu

/-- SSI_READ of a good read at an instant that the grid serves (R204-R206). -/
theorem exec_ssiRead_good (hgood : u.ssiBadKind x raw pm = none) : exec (.ssiRead dt x) s = .next (u.ssiAccept ⟨raw, pm⟩) := by
  show execSsiRead dt x s = _
  subst hu hraw
  rw [ssiRaw] at hgood
  simp only [execSsiRead, ← ht, hreset, hon, ← hpm, hdue, hgood, Bool.not_true, Bool.false_eq_true, if_false, State.ssiAccept, ssiRaw,
    Bool.and_eq_true, Bool.not_eq_true', decide_eq_true_eq]
  exact (apply_ite Host.Outcome.next ..).symm

/-- SSI_READ of a bad read at an instant that the grid serves (R204, R205). -/
theorem exec_ssiRead_bad {kind : Nat} (hbad : u.ssiBadKind x raw pm = some kind) :
    exec (.ssiRead dt x) s = .next (u.ssiReject kind) := by
  show execSsiRead dt x s = _
  subst hu hraw
  rw [ssiRaw] at hbad
  simp only [execSsiRead, ← ht, hreset, hon, ← hpm, hdue, hbad, Bool.not_true, Bool.false_eq_true, if_false, State.ssiReject,
    fld_of_sense]
  exact (apply_ite Host.Outcome.next ..).symm

end Ssi

section AbsAngle

variable {dt : Nat} {c d : Int} {s t : State} (ht : t = s.advance dt) (hreset : t.inReset = false) (hmode : t.encMode 0 = 2)
  (habs : t.fld 0x40100 4 2 ≠ 0) (hangle : t.sense.angleValid = false) (hnow : t.now = t.sense.encOn + 4000)

include ht hreset hmode habs hangle hnow

/-- ENC_ABS_ANGLE_SET with an amplitude within AMPWIN sets the absolute offset (R197). -/
theorem exec_encAbsAngleSet_inWindow (hlo : t.fld 0x40130 0 16 ^ 2 ≤ (c * c + d * d).toNat)
    (hhi : (c * c + d * d).toNat ≤ t.fld 0x40130 16 16 ^ 2) :
    exec (.encAbsAngleSet dt c d) s = .next ({ t with sense := { t.sense with
      cabs := (ceilDiv (atanStep c d * t.encCpr 0) 4096 : Int) - t.sense.cnt[0], angleValid := true } }.encRevive 0) := by
  show execEncAbsAngleSet dt c d s = _
  simp only [execEncAbsAngleSet, ← ht, hreset, hmode, habs, hangle, hnow, Nat.not_lt.2 hlo, Nat.not_lt.2 hhi, ne_eq, not_false_eq_true,
    and_self, or_self, Bool.false_eq_true, if_false, if_true]

/-- ENC_ABS_ANGLE_SET with an amplitude outside AMPWIN is fault kind 8 (R197, R200). -/
theorem exec_encAbsAngleSet_outside
    (hout : (c * c + d * d).toNat < t.fld 0x40130 0 16 ^ 2 ∨ t.fld 0x40130 16 16 ^ 2 < (c * c + d * d).toNat) :
    exec (.encAbsAngleSet dt c d) s = .next (t.encFault 0 8) := by
  show execEncAbsAngleSet dt c d s = _
  simp only [execEncAbsAngleSet, ← ht, hreset, hmode, habs, hangle, hnow, hout, ne_eq, not_false_eq_true, and_self, Bool.false_eq_true,
    if_false, if_true]

end AbsAngle

section ZSync

variable {dt : Nat} {k : Fin 3} {l : List EncSample} {s t u : State} {tol : Int} (ht : t = s.advance dt) (hreset : t.inReset = false)
  (hon : t.encMode k.val ≠ 0) (hhall : t.encMode k.val ≠ 3) (hu : u = t.encRun k l) (hrefchk : u.fld (encBase k.val) 6 1 = 1)
  (hangle : ¬ (k.val = 0 ∧ t.encMode k.val = 2 ∧ u.fld 0x40100 4 2 = 2 ∧ u.sense.angleValid = true ∧ u.sense.zsync = false))

include ht hreset hon hhall hu hrefchk hangle

/-- ENC_Z_SYNC with REFCHK, the angle not to be corrected: the first mark is kept (R198). -/
theorem exec_encZSync_first (hnone : u.sense.refz[k] = none) :
    exec (.encZSync dt k l) s = .next { u with sense := { u.sense with refz := u.sense.refz.set k (some u.sense.cnt[k]) } } := by
  show execEncZSync dt k l s = _
  simp only [execEncZSync, ← ht, hreset, hon, hhall, ← hu, hangle, hrefchk, hnone, or_self, Bool.false_eq_true, if_false, if_true]

/-- ENC_Z_SYNC with REFCHK: a mark off the first one by more than the tolerance, modulo the revolution, is fault kind 4
(R198, R200). -/
theorem exec_encZSync_off (htol : tol = if t.encMode k.val = 2 then 64 else 2) {r : Int} (hsome : u.sense.refz[k] = some r)
    (hcpr : u.encCpr k.val ≠ 0) (hlo : tol < (u.sense.cnt[k] - r) % (u.encCpr k.val : Int))
    (hhi : (u.sense.cnt[k] - r) % (u.encCpr k.val : Int) < (u.encCpr k.val : Int) - tol) :
    exec (.encZSync dt k l) s = .next (u.encFaultNew k 4) := by
  show execEncZSync dt k l s = _
  simp only [execEncZSync, ← ht, hreset, hon, hhall, ← hu, hangle, hrefchk, hsome, hcpr, ← htol, Int.not_le.2 hlo, Int.not_le.2 hhi,
    or_self, Bool.false_eq_true, if_false, if_true]

end ZSync

/-- ENC_Z_SYNC of ENC0 with ABS 2 and without REFCHK: the first mark corrects the angle (R197). -/
theorem exec_encZSync_angle {dt : Nat} {l : List EncSample} {s t u : State} (ht : t = s.advance dt) (hreset : t.inReset = false)
    (hmode : t.encMode 0 = 2) (hu : u = t.encRun 0 l) (habs : u.fld 0x40100 4 2 = 2) (hrefchk : u.fld (encBase 0) 6 1 = 0)
    (hvalid : u.sense.angleValid = true) (hz : u.sense.zsync = false) :
    exec (.encZSync dt 0 l) s = .next { u with sense := { u.sense with
      cabs := (ceilDiv (u.reg 0x40134 * u.encCpr 0) (2 ^ 32) : Int) - u.sense.cnt[0], zsync := true } } := by
  show execEncZSync dt 0 l s = _
  simp only [execEncZSync, ← ht, hreset, Fin.val_zero, hmode, ← hu, habs, hvalid, hz, fld_of_sense, hrefchk, and_self,
    Nat.reduceEqDiff, or_self, Bool.false_eq_true, if_false, if_true]
  rfl

/-- ENC_FAULT of a channel that is on takes its samples and what its receivers find (R196, R198-R200). -/
theorem exec_encFault_on {dt : Nat} {k : Fin 3} {samples : List EncSample} {lineOk : Bool} {s t : State} (ht : t = s.advance dt)
    (hreset : t.inReset = false) (hon : t.encMode k.val ≠ 0) :
    exec (.encFault dt k samples lineOk) s = .next ((t.encRun k samples).encLine k lineOk) := by
  show execEncFault dt k samples lineOk s = _
  simp only [execEncFault, ← ht, hreset, hon, Bool.false_eq_true, if_false]

/-- An open or shorted pair of an A/B channel that is not in fault is fault kind 5 (R198, R200). -/
theorem encLine_open {k : Fin 3} {t : State} (hmode : t.encMode k.val = 1 ∨ t.encMode k.val = 4)
    (hfault : t.sense.fault[k] = false) :
    t.encLine k false = ({ t with sense := { t.sense with lineOk := t.sense.lineOk.set k false } }).encFault k 5 := by
  have hab : (!false && (decide (t.encMode k.val = 1) || decide (t.encMode k.val = 4))) = true := by simpa using hmode
  exact (if_pos hab).trans (if_neg (Bool.eq_false_iff.1 hfault))

/-- Bits of a channel that is on, the last of them taken by itself (R211). -/
theorem sdRun_concat {k : Fin 3} {bits : List Bool} {b : Bool} {t u : State} (hon : t.sdOn k = true)
    (hu : u = bits.foldl (State.sdStep k) t) : t.sdRun k (bits ++ [b]) = u.sdStep k b := by
  simp only [State.sdRun, hon, if_true, List.foldl_append, List.foldl_cons, List.foldl_nil, hu]

/-- The bit that makes 512 clocks without a change, and completes no value, makes its channel invalid (R213). -/
theorem sdStep_stuck {k : Fin 3} {b : Bool} {u : State} {q : SdCh} (hq : q = SdCh.push (u.sdLen k) b u.sense.sd[k])
    (hclk : q.clk ≠ 0) (hsame : q.same = 512) :
    u.sdStep k b = { u with sense := { u.sense with
      sd := u.sense.sd.set k { q with used := false }, sdValid := u.sense.sdValid.set k false } }.post 0x0403 (k.val + 256) := by
  simp only [State.sdStep, ← hq, hsame, hclk, if_true, if_false]

/-- The bit that completes 3M clocks without the cause, and completes no value, makes an invalid channel valid (R193, R213). -/
theorem sdStep_revived {k : Fin 3} {b : Bool} {u : State} {q : SdCh} (hq : q = SdCh.push (u.sdLen k) b u.sense.sd[k])
    (hclk : q.clk ≠ 0) (hsame : q.same ≠ 512) (hlong : 3 * u.sdLen k ≤ q.good) (hinvalid : u.sense.sdValid[k] = false) :
    u.sdStep k b = { u with sense := { u.sense with
      sd := u.sense.sd.set k q, sdValid := u.sense.sdValid.set k true } }.post 0x0405 (0x10 + k.val) := by
  simp only [State.sdStep, ← hq, hsame, hlong, hinvalid, and_self, hclk, if_true, if_false]

/-- SD_FAULT takes the bits of its channel (R213). -/
theorem exec_sdFault_run {dt : Nat} {x : SdIn} {s t : State} (ht : t = s.advance dt) (hreset : t.inReset = false) :
    exec (.sdFault dt x) s = .next (t.sdRun x.k x.bits) := by
  show execSdFault dt x s = _
  simp only [execSdFault, ← ht, hreset, Bool.false_eq_true, if_false]

/-- SD_VALID takes the bits of its channel (R193). -/
theorem exec_sdValid_run {dt : Nat} {x : SdIn} {s t : State} (ht : t = s.advance dt) (hreset : t.inReset = false) :
    exec (.sdValid dt x) s = .next (t.sdRun x.k x.bits) := by
  show execSdValid dt x s = _
  simp only [execSdValid, ← ht, hreset, Bool.false_eq_true, if_false]

/-- POSITION_MISMATCH after TIME ticks beyond the window, where MISMATCH is not set (R209). -/
theorem exec_positionMismatch_due {dt : Nat} {s t : State} (ht : t = s.advance dt) (hreset : t.inReset = false)
    (hon : t.fld 0x40800 0 1 = 1) (hnew : t.sense.mismatch = false) (htime : t.fld 0x40800 16 16 ≤ t.sense.cmpCnt)
    (hcount : t.sense.cmpCnt ≠ 0) :
    exec (.positionMismatch dt) s = .next ({ t with sense := { t.sense with mismatch := true } }.post 0x0404
      (ucode 32 (satS 32 t.sense.cmpDiff))) := by
  show execPositionMismatch dt s = _
  simp only [execPositionMismatch, ← ht, hreset, hon, hnew, htime, hcount, ne_eq, not_false_eq_true, and_self, Bool.false_eq_true,
    if_false, if_true]

/-- Settles O13: one lemma for each event and outcome. -/
theorem senseEventsComplete : Obligations.SenseEventsComplete := by
  refine ⟨?ssi, ?absAngle, ?zMark, ?zAngle, ?encFault, ?openPair, ?sd, ?mismatch⟩
  case ssi =>
    intro dt x s t u raw pm ht hreset hon hpm hdue hraw hu
    refine ⟨fun hgood => ?_, fun kind hbad => ?_⟩
    · rw [exec_ssiRead_good ht hreset hon hpm hdue hraw hu hgood, State.ssiAccept, apply_ite Host.Outcome.next, hu]
    · rw [exec_ssiRead_bad ht hreset hon hpm hdue hraw hu hbad, State.ssiReject, apply_ite Host.Outcome.next, hu]
      rfl
  case absAngle =>
    exact fun _ _ _ _ _ ht hreset hmode habs hangle hnow =>
      ⟨exec_encAbsAngleSet_inWindow ht hreset hmode habs hangle hnow, exec_encAbsAngleSet_outside ht hreset hmode habs hangle hnow⟩
  case zMark =>
    intro dt k l s t u tol ht hreset hon hhall htol hu hrefchk hkeep
    have hangle : ¬ (k.val = 0 ∧ t.encMode k.val = 2 ∧ u.fld 0x40100 4 2 = 2 ∧ u.sense.angleValid = true ∧ u.sense.zsync = false) :=
      fun ⟨hk, hm, habs, hvalid, hz⟩ => by simpa [hvalid, hz] using hkeep ⟨hk, hm, habs⟩
    exact ⟨exec_encZSync_first ht hreset hon hhall hu hrefchk hangle,
      fun _ => exec_encZSync_off ht hreset hon hhall hu hrefchk hangle htol⟩
  case zAngle => exact fun _ _ _ _ _ => exec_encZSync_angle
  case encFault => exact fun _ _ _ _ _ => exec_encFault_on
  case openPair =>
    intro dt k s t ht hreset hmode hfault
    have hon : t.encMode k.val ≠ 0 := by omega
    rw [exec_encFault_on ht hreset hon]
    exact congrArg Host.Outcome.next (encLine_open hmode hfault)
  case sd =>
    intro dt k bits b s t u q ht hreset hon hu hq hclk
    refine ⟨fun hsame => ?_, fun hsame hlong hinvalid => ?_⟩
    · rw [exec_sdFault_run ht hreset, sdRun_concat hon hu, sdStep_stuck hq hclk hsame]
    · rw [exec_sdValid_run ht hreset, sdRun_concat hon hu, sdStep_revived hq hclk hsame hlong hinvalid]
  case mismatch => exact fun _ _ _ => exec_positionMismatch_due

end Sys2Proof.Machine

/-! ### The door letters (R222, R236, R237, R242, R245, R249, R252, R254) -/

namespace Sys2Proof.Machine

/-- What DOOR_MODE `m` needs of the door's sources: an encoder and a slot for modes 1 and 3, a slot that is OFF, where there is
one, for modes 2 and 4, two unused counter inputs for mode 4 (R222). -/
structure State.DoorSources (m : Nat) (t : State) : Prop where
  brushless : m = 1 → (t.encMode 2 = 3 ∨ t.encMode 2 = 4) ∧ (t.destSlot 5).isSome = true
  brushed : m = 3 → t.encMode 2 = 1 ∧ (t.destSlot 5).isSome = true
  slot_off : m = 2 ∨ m = 4 → ∀ n, t.destSlot 5 = some n → t.loop.slots[n].off = true
  inputs_apart : m = 4 → bitsAt (t.reg 0x50008) 0 3 ≠ bitsAt (t.reg 0x50008) 4 3
  inputs_free : m = 4 → ∀ c ∈ [bitsAt (t.reg 0x50008) 0 3, bitsAt (t.reg 0x50008) 4 3],
    t.fio.ctr[(⟨c % 8, Nat.mod_lt _ (by decide)⟩ : Fin 8)].mode = 0 ∧
      ∀ n, t.fio.ctr[(⟨c % 8, Nat.mod_lt _ (by decide)⟩ : Fin 8)].next = some n → n.1 = 0

section Mode

variable {m : Nat} {t : State} (hsources : t.DoorSources m)
include hsources

/-- The encoder of the door is in a mode that DOOR_MODE `m` works with. -/
theorem State.DoorSources.encoder :
    ¬ ((m = 1 ∧ t.encMode 2 ≠ 3 ∧ t.encMode 2 ≠ 4) ∨ (m = 3 ∧ t.encMode 2 ≠ 1)) := by
  rintro (⟨hm, hhall, hab⟩ | ⟨hm, hab⟩)
  · exact (hsources.brushless hm).1.elim hhall hab
  · exact hab (hsources.brushed hm).1

/-- Modes 1 and 3 have their slot. -/
theorem State.DoorSources.slot : ¬ ((m = 1 ∨ m = 3) ∧ (t.destSlot 5).isNone = true) := by
  rintro ⟨hm, hnone⟩
  have hsome : (t.destSlot 5).isSome = true := hm.elim (fun h => (hsources.brushless h).2) fun h => (hsources.brushed h).2
  rw [← Option.not_isNone, hnone] at hsome
  exact Bool.false_ne_true hsome

/-- No slot of the door runs where modes 2 and 4 are asked for. -/
theorem State.DoorSources.slot_still :
    ¬ ((m = 2 ∨ m = 4) ∧ ((t.destSlot 5).any fun i => !t.loop.slots[i].off) = true) := by
  rintro ⟨hm, hany⟩
  obtain ⟨n, hn, hruns⟩ := (Option.any_eq_true ..).1 hany
  rw [hsources.slot_off hm n hn] at hruns
  exact Bool.false_ne_true hruns

/-- Neither input of mode 4 is a counter, now or from the next tick on. -/
theorem State.DoorSources.input_free (hm : m = 4) {c : Nat} (hc : c ∈ [bitsAt (t.reg 0x50008) 0 3, bitsAt (t.reg 0x50008) 4 3]) :
    (decide (t.fio.ctr[(⟨c % 8, Nat.mod_lt _ (by decide)⟩ : Fin 8)].mode ≠ 0) ||
      match t.fio.ctr[(⟨c % 8, Nat.mod_lt _ (by decide)⟩ : Fin 8)].next with
      | some n => decide (n.1 ≠ 0)
      | none => false) = false := by
  obtain ⟨hmode, hnext⟩ := hsources.inputs_free hm c hc
  rw [hmode]
  split
  next n hn => simp [hnext n hn]
  next => rfl

/-- DOOR_MODE of a still door without a fault, with the sources that the mode needs, records the mode (R222). -/
theorem doorMode_run {q : Letter} (hm : u32 q.payload 0 = m) (hstill : t.doorMoving = false) (hfault : t.door.fault = false) :
    doorModeHandler.run q t = (.done 0 [], t.setDoor { t.door with modeReq := some m }) := by
  simp only [doorModeHandler, handler, hm, hstill, if_neg hsources.encoder, if_neg hsources.slot, if_neg hsources.slot_still,
    doneWith, Bool.false_eq_true, if_false]
  refine (if_neg (Bool.eq_false_iff.1 hfault)).trans (if_neg ?_)
  rintro ⟨hfour, hsame | hctr | hctr⟩
  · exact hsources.inputs_apart hfour hsame
  · exact Bool.false_ne_true ((hsources.input_free hfour (by simp)).symm.trans hctr)
  · exact Bool.false_ne_true ((hsources.input_free hfour (by simp)).symm.trans hctr)

end Mode

/-- DOOR_LIMITS of a still door records the limits (R252). -/
theorem doorLimits_run {q : Letter} {t : State} (hstill : t.doorMoving = false) :
    doorLimitsHandler.run q t =
      (.done 0 [], t.setDoor { t.door with limNext := some (u16 q.payload 0, u16 q.payload 2) }) := by
  simp only [doorLimitsHandler, handler, hstill, doneWith, Bool.false_eq_true, if_false]

/-- DOOR_STOP of a door that moves, or whose move is to follow a stop, asks for the stop (R254). -/
theorem doorStop_run_acting {q : Letter} {t : State} (hacts : t.doorActs = true) :
    doorStopHandler.run q t = (.queued .doorStop, t.setDoor { t.door with stopReq := true }) := by
  simp only [doorStopHandler, handler, hacts, if_true]

/-- DOOR_STOP of a door at rest ends DONE at once; what waits fails and no move is to follow (R254). -/
theorem doorStop_run_resting {q : Letter} {t : State} (hrests : t.doorActs = false) :
    doorStopHandler.run q t = (.ended .doorStop .done 0 0,
      (t.doorFail 0x5A).setDoor { t.door with holdAt := none, next := none, close := none }) := by
  simp only [doorStopHandler, handler, hrests, Bool.false_eq_true, if_false]

/-- A DOOR_OPEN with profile `k` and hold time `h` that no check refuses: a stage in mode 1 to 3 without a fault, the permit given, the
position known, the profile valid (R236, R237, R244). -/
structure State.OpenAdmitted (k h : Nat) (q : Letter) (t : State) : Prop where
  profile_eq : u16 q.payload 0 = k
  hold_eq : u16 q.payload 2 = h
  mode_ne_off : t.door.mode ≠ 0
  mode_ne_legacy : t.door.mode ≠ 4
  fault : t.door.fault = false
  permit : t.openPermit = true
  state_ne_unknown : t.door.state ≠ 1
  state_ne_homing : t.door.state ≠ 2
  profile_valid : t.profileBad k = false

/-- None of the refusals of DOOR_OPEN applies. -/
theorem State.OpenAdmitted.passes {α : Type} {k h : Nat} {q : Letter} {t : State} (hok : t.OpenAdmitted k h q)
    (off fault permit unknown bad served : α) :
    (if t.door.mode = 0 ∨ t.door.mode = 4 then off
      else if t.door.fault then fault
      else if !t.openPermit then permit
      else if t.door.state = 1 ∨ t.door.state = 2 then unknown
      else if t.profileBad (u16 q.payload 0) then bad
      else served) = served := by
  obtain ⟨hk, -, hoff, hlegacy, hfault, hpermit, hunknown, hhoming, hprofile⟩ := hok
  simp only [hk, hoff, hlegacy, hfault, hpermit, hunknown, hhoming, hprofile, or_self, Bool.not_true, Bool.false_eq_true, if_false]

/-- What a DOOR_OPEN with profile `k` and hold time `h` leaves for the sequencer, whatever the state of the door (R236, R241). -/
def State.openNoted (k h : Nat) (t : State) : State :=
  t.setDoor { t.door with hold := h, openProfile := k, nudge := false, firstHold := none }

section Open

variable {q : Letter} {t v : State} {k h : Nat} (hok : t.OpenAdmitted k h q) (hv : v = t.openNoted k h)
include hok hv

/-- DOOR_OPEN of an opening door with no move to follow renews the open (R236). -/
theorem doorOpen_run_opening (hstate : t.door.state = 5) (hnext : t.door.next = none) :
    doorOpenHandler.run q t = (.queued .doorOpen, v.complete .doorOpen .failed 0x5E 0) := by
  obtain rfl := hok.profile_eq
  obtain rfl := hok.hold_eq
  subst hv
  refine (hok.passes ..).trans ?_
  simp only [hstate, hnext, State.openNoted, Bool.false_eq_true, if_false]

/-- DOOR_OPEN of an opening door that is to close after a stop opens it after the stop instead (R236). -/
theorem doorOpen_run_opening_stopping (hstate : t.door.state = 5) (hnext : t.door.next ≠ none) :
    doorOpenHandler.run q t = (.queued .doorOpen,
      let u := v.complete .doorOpen .failed 0x5E 0
      (u.complete .doorClose .failed 0x5E 0).setDoor { u.door with close := none, next := some (.openMove k) }) := by
  obtain ⟨move, hmove⟩ := Option.ne_none_iff_exists'.1 hnext
  obtain rfl := hok.profile_eq
  obtain rfl := hok.hold_eq
  subst hv
  refine (hok.passes ..).trans ?_
  simp only [hstate, hmove, State.openNoted, if_true]

/-- DOOR_OPEN of an open door ends DONE at once and starts the hold time anew (R236, R241). -/
theorem doorOpen_run_open (hstate : t.door.state = 6) :
    doorOpenHandler.run q t =
      (.ended .doorOpen .done 0 0, v.setDoor { v.door with holdAt := if h = 0 then none else some t.now }) := by
  obtain rfl := hok.profile_eq
  obtain rfl := hok.hold_eq
  subst hv
  refine (hok.passes ..).trans ?_
  simp only [hstate, State.openNoted, State.setDoor_door, State.setDoor_now]

/-- DOOR_OPEN of a closing or nudging door stops it first, the open to follow (R236). -/
theorem doorOpen_run_closing (hstate : t.door.state = 7 ∨ t.door.state = 8) :
    doorOpenHandler.run q t = (.queued .doorOpen,
      let u := (v.complete .doorClose .failed 0x5E 0).orderStop v.doorUnit false .door
      (u.setDoor { u.door with close := none, next := some (.openMove k) }).doorTo 9) := by
  obtain rfl := hok.profile_eq
  obtain rfl := hok.hold_eq
  subst hv
  refine (hok.passes ..).trans ?_
  obtain hstate | hstate := hstate <;>
    simp only [hstate, State.openNoted, doorOpenHandler.stopFirst]

/-- DOOR_OPEN of a reversing door lets the reopen go on, or takes the place of a close to follow (R236). -/
theorem doorOpen_run_stopping (hstate : t.door.state = 9) :
    doorOpenHandler.run q t = (.queued .doorOpen,
      let u := (v.complete .doorOpen .failed 0x5E 0).complete .doorClose .failed 0x5E 0
      u.setDoor { u.door with
        close := none,
        next := match t.door.next with
          | some (.closeMove ..) => some (.openMove k)
          | x => x }) := by
  obtain rfl := hok.profile_eq
  obtain rfl := hok.hold_eq
  subst hv
  refine (hok.passes ..).trans ?_
  simp only [hstate, State.openNoted] <;> rfl

/-- DOOR_OPEN of a door in any other state opens it, once a stop in progress has ended (R236, log 61). -/
theorem doorOpen_run_resting (hstate : ¬ (5 ≤ t.door.state ∧ t.door.state ≤ 9)) :
    doorOpenHandler.run q t = (.queued .doorOpen,
      ((v.complete .doorOpen .failed 0x5E 0).complete .doorClose .failed 0x5E 0).openSoon k) := by
  obtain rfl := hok.profile_eq
  obtain rfl := hok.hold_eq
  subst hv
  refine (hok.passes ..).trans ?_
  rw [State.openNoted]
  split
  case h_6 => rfl
  all_goals omega

end Open

/-- A DOOR_CLOSE with profile `k`, as a nudge if `n`, that no check but the one for obstructions refuses: a stage in mode 1 to
3 without a fault, the profile valid (R236, R237). -/
structure State.CloseAdmitted (k : Nat) (n : Bool) (q : Letter) (t : State) : Prop where
  profile_eq : u8 q.payload 0 = k
  nudge_eq : decide (u8 q.payload 1 = 1) = n
  mode_ne_off : t.door.mode ≠ 0
  mode_ne_legacy : t.door.mode ≠ 4
  fault : t.door.fault = false
  profile_valid : t.profileBad k = false

/-- None of the refusals of DOOR_CLOSE but the one for an obstruction applies. -/
theorem State.CloseAdmitted.passes {α : Type} {k : Nat} {n : Bool} {q : Letter} {t : State} (hok : t.CloseAdmitted k n q)
    (off fault bad served : α) :
    (if t.door.mode = 0 ∨ t.door.mode = 4 then off
      else if t.door.fault then fault
      else if t.profileBad (u8 q.payload 0) then bad
      else served) = served := by
  obtain ⟨hk, -, hoff, hlegacy, hfault, hprofile⟩ := hok
  simp only [hk, hoff, hlegacy, hfault, hprofile, or_self, Bool.false_eq_true, if_false]

section Close

variable {q : Letter} {t : State} {k : Nat} {n : Bool} (hok : t.CloseAdmitted k n q)
include hok

/-- DOOR_CLOSE of a closed and locked door ends DONE at once (R236). -/
theorem doorClose_run_locked (hstate : t.door.state = 3) : doorCloseHandler.run q t = (.ended .doorClose .done 0 0, t) :=
  (hok.passes ..).trans (if_pos hstate)

/-- DOOR_CLOSE of a closed door that is not locked yet waits for the lock, whatever the obstruction inputs (R236, log 61). -/
theorem doorClose_run_closed (hstate : t.door.state = 4) :
    doorCloseHandler.run q t = (.queued .doorClose,
      (t.complete .doorClose .failed 0x5E 0).setDoor { t.door with close := some ⟨k, n, t.now⟩ }) := by
  obtain rfl := hok.profile_eq
  obtain rfl := hok.nudge_eq
  refine (hok.passes ..).trans ?_
  simp only [hstate, Nat.reduceEqDiff, if_false, if_true]

/-- DOOR_CLOSE in a homing close that is not obstructed renews it (R236, R242). -/
theorem doorClose_run_homing (hstate : t.door.state = 2) (hclear : t.obstInput false = none) :
    doorCloseHandler.run q t = (.queued .doorClose,
      (t.complete .doorClose .failed 0x5E 0).setDoor { t.door with close := some ⟨k, n, t.now⟩ }) := by
  obtain rfl := hok.profile_eq
  obtain rfl := hok.nudge_eq
  refine (hok.passes ..).trans ?_
  simp only [hstate, hclear, Nat.reduceEqDiff, if_false, ne_eq, not_true_eq_false, and_false, decide_false, Bool.and_false]

/-- DOOR_CLOSE of an opening door that is not obstructed stops it first, the close to follow (R236). -/
theorem doorClose_run_opening (hstate : t.door.state = 5) (hclear : t.obstInput n = none) :
    doorCloseHandler.run q t = (.queued .doorClose,
      let u := (t.complete .doorOpen .failed 0x5E 0).complete .doorClose .failed 0x5E 0
      let u := u.orderStop t.doorUnit false .door
      u.setDoor { u.door with openAt := none, next := some (.closeMove k n), close := some ⟨k, n, u.now⟩ }) := by
  obtain rfl := hok.profile_eq
  obtain rfl := hok.nudge_eq
  refine (hok.passes ..).trans ?_
  simp only [hstate, hclear, Nat.reduceEqDiff, if_false, ne_eq, not_false_eq_true, and_self, decide_true, Bool.and_true]

/-- DOOR_CLOSE of a reversing door that is not obstructed is to follow the stop (R236). -/
theorem doorClose_run_stopping (hstate : t.door.state = 9) (hclear : t.obstInput n = none) :
    doorCloseHandler.run q t = (.queued .doorClose,
      let u := (t.complete .doorOpen .failed 0x5E 0).complete .doorClose .failed 0x5E 0
      u.setDoor { u.door with next := some (.closeMove k n), close := some ⟨k, n, u.now⟩ }) := by
  obtain rfl := hok.profile_eq
  obtain rfl := hok.nudge_eq
  refine (hok.passes ..).trans ?_
  simp only [hstate, hclear, Nat.reduceEqDiff, if_false, ne_eq, not_false_eq_true, and_self, decide_true, Bool.and_true]

/-- DOOR_CLOSE of a closing or nudging door that is not obstructed goes on at the speed of its own profile (R236, R249). -/
theorem doorClose_run_closing (hstate : t.door.state = 7 ∨ t.door.state = 8) (hclear : t.obstInput n = none) :
    doorCloseHandler.run q t = (.queued .doorClose,
      let u := t.complete .doorClose .failed 0x5E 0
      let w := u.closeSpeed k (if n then 2 else 1)
      let x := u.setRamp u.doorUnit { u.ramp[u.doorUnit] with next := some { u.limitsLane u.doorUnit with speed := w } }
      (x.setDoor { u.door with vplan := w, close := some ⟨k, n, u.now⟩ }).doorTo (if n then 8 else 7)) := by
  obtain rfl := hok.profile_eq
  obtain rfl := hok.nudge_eq
  refine (hok.passes ..).trans ?_
  obtain hstate | hstate := hstate <;>
    simp only [hstate, hclear, Nat.reduceEqDiff, if_false, ne_eq, not_false_eq_true, and_self, decide_true, Bool.and_true,
      doorCloseHandler.renew, decide_eq_true_eq]

/-- DOOR_CLOSE of a door in any other state, not obstructed, closes or homes it, once a stop in progress has ended (R236, R242,
log 61); in state 1 every input counts, as in the homing close to come. -/
theorem doorClose_run_resting
    (hstate : t.door.state = 1 ∧ t.obstInput false = none ∨
      t.obstInput n = none ∧ (t.door.state = 0 ∨ t.door.state = 6 ∨ 10 ≤ t.door.state)) :
    doorCloseHandler.run q t = (.queued .doorClose,
      ((t.complete .doorOpen .failed 0x5E 0).complete .doorClose .failed 0x5E 0).closeSoon k n) := by
  obtain rfl := hok.profile_eq
  obtain rfl := hok.nudge_eq
  have hclear : t.obstInput (decide (u8 q.payload 1 = 1) && decide (t.door.state ≠ 1 ∧ t.door.state ≠ 2)) = none := by
    obtain ⟨hunknown, hclear⟩ | ⟨hclear, hrests⟩ := hstate
    · simpa only [hunknown, ne_eq, not_true_eq_false, false_and, decide_false, Bool.and_false] using hclear
    · have hknown : t.door.state ≠ 1 ∧ t.door.state ≠ 2 := by omega
      rwa [decide_eq_true hknown, Bool.and_true]
  have hunlocked : t.door.state ≠ 3 := by omega
  have hnotClosed : t.door.state ≠ 4 := by omega
  refine (hok.passes ..).trans ((if_neg hunlocked).trans ((if_neg hnotClosed).trans ?_))
  simp only [hclear]
  split
  case h_6 => rfl
  all_goals omega

end Close

/-- Settles O14: what each handler runs, by the letter and the state of the door. -/
theorem doorLettersComplete : Obligations.DoorLettersComplete := by
  refine ⟨?mode, ?limits, ?stop, ?stopRest, fun k h ok v hok hv => ?opens, fun k n ok hok => ?closes⟩
  case mode =>
    exact .of_run (fun _ _ => rfl) (fun _ _ ⟨hstill, hfault, hbrushless, hbrushed, hoff, hlegacy⟩ =>
      doorMode_run ⟨hbrushless, hbrushed, hoff, fun hm => (hlegacy hm).1, fun hm => (hlegacy hm).2⟩ rfl hstill hfault)
      fun _ _ _ => rfl
  case limits => exact .of_run (fun _ _ => rfl) (fun _ _ hstill => doorLimits_run hstill) fun _ _ _ => rfl
  case stop => exact .of_run (fun _ _ => rfl) (fun _ _ hacts => doorStop_run_acting hacts) fun _ _ _ => rfl
  case stopRest => exact .of_run (fun _ _ => rfl) (fun _ _ hrests => doorStop_run_resting hrests) fun _ _ _ => rfl
  case opens =>
    have hadmit {q : Letter} {t : State} (hqt : ok q t) : t.OpenAdmitted k h q := by
      subst hok
      obtain ⟨hk, hh, hoff, hlegacy, hfault, hpermit, hunknown, hhoming, hprofile⟩ := hqt
      exact ⟨hk, hh, hoff, hlegacy, hfault, hpermit, hunknown, hhoming, hprofile⟩
    have hnoted (t : State) : v t = t.openNoted k h := congrFun hv t
    refine ⟨?resting, ?opening, ?openingStopping, ?isOpen, ?closing, ?stopping⟩
    case resting =>
      exact .of_run (fun _ _ => rfl) (fun _ t ⟨hqt, hstate⟩ =>
        doorOpen_run_resting (hadmit hqt) (hnoted t) hstate) fun _ _ _ => rfl
    case opening =>
      exact .of_run (fun _ _ => rfl) (fun _ t ⟨hqt, hstate, hnext⟩ =>
        doorOpen_run_opening (hadmit hqt) (hnoted t) hstate hnext) fun _ _ _ => rfl
    case openingStopping =>
      exact .of_run (fun _ _ => rfl) (fun _ t ⟨hqt, hstate, hnext⟩ =>
        doorOpen_run_opening_stopping (hadmit hqt) (hnoted t) hstate hnext) fun _ _ _ => rfl
    case isOpen =>
      exact .of_run (fun _ _ => rfl) (fun _ t ⟨hqt, hstate⟩ =>
        doorOpen_run_open (hadmit hqt) (hnoted t) hstate) fun _ _ _ => rfl
    case closing =>
      exact .of_run (fun _ _ => rfl) (fun _ t ⟨hqt, hstate⟩ =>
        doorOpen_run_closing (hadmit hqt) (hnoted t) hstate) fun _ _ _ => rfl
    case stopping =>
      exact .of_run (fun _ _ => rfl) (fun _ t ⟨hqt, hstate⟩ =>
        doorOpen_run_stopping (hadmit hqt) (hnoted t) hstate) fun _ _ _ => rfl
  case closes =>
    have hadmit {q : Letter} {t : State} (hqt : ok q t) : t.CloseAdmitted k n q := by
      subst hok
      obtain ⟨hk, hn, hoff, hlegacy, hfault, hprofile⟩ := hqt
      exact ⟨hk, hn, hoff, hlegacy, hfault, hprofile⟩
    refine ⟨?locked, ?waiting, ?opening, ?stopping, ?closing, ?resting⟩
    case locked =>
      exact .of_run (fun _ _ => rfl) (fun _ _ ⟨hqt, hstate⟩ => doorClose_run_locked (hadmit hqt) hstate) fun _ _ _ => rfl
    case waiting =>
      exact .of_run (fun _ _ => rfl) (fun _ _ ⟨hqt, hstate⟩ => hstate.elim (doorClose_run_closed (hadmit hqt))
        fun ⟨hhoming, hclear⟩ => doorClose_run_homing (hadmit hqt) hhoming hclear) fun _ _ _ => rfl
    case opening =>
      exact .of_run (fun _ _ => rfl) (fun _ _ ⟨hqt, hstate, hclear⟩ =>
        doorClose_run_opening (hadmit hqt) hstate hclear) fun _ _ _ => rfl
    case stopping =>
      exact .of_run (fun _ _ => rfl) (fun _ _ ⟨hqt, hstate, hclear⟩ =>
        doorClose_run_stopping (hadmit hqt) hstate hclear) fun _ _ _ => rfl
    case closing =>
      exact .of_run (fun _ _ => rfl) (fun _ _ ⟨hqt, hstate, hclear⟩ =>
        doorClose_run_closing (hadmit hqt) hstate hclear) fun _ _ _ => rfl
    case resting =>
      exact .of_run (fun _ _ => rfl) (fun _ _ ⟨hqt, hstate⟩ => doorClose_run_resting (hadmit hqt) hstate) fun _ _ _ => rfl

end Sys2Proof.Machine

/-! ### The door events (R226, R233, R238-R241, R245, R248, R256) -/

namespace Sys2Proof.Machine

/-- A stage that is on and may stay on holds (R253, R259). -/
theorem stageHolds_of_on {t : State} (hon : t.door.on = true) (hstage : t.stageOk = true) : t.stageHolds = true := by
  rw [State.stageHolds, hon, hstage, Bool.and_self]

/-- An enabled and active input stops a close in progress, and a homing close that has not met its contact (R242, R245). -/
theorem obstStops_of_closing {t : State} {k : Fin 4} (hinput : t.obstOf t.door.use (decide (t.door.state = 8)) k = true)
    (hclosing : t.door.state = 7 ∨ t.door.state = 8 ∨ t.door.state = 2 ∧ t.contact = false ∧ t.door.found = false) :
    t.obstStops k = true := by
  have hphase : (t.door.state = 7 || t.door.state = 8 || (t.door.state = 2 && !t.contact && !t.door.found)) = true := by
    simpa [or_assoc, and_assoc] using hclosing
  rw [State.obstStops, hinput, hphase, Bool.and_self]

section Events

variable {dt : Nat} {s t : State} (ht : t = s.advance dt) (hreset : t.inReset = false) (hcar : t.carStation = true)
include ht hreset hcar

section StageHolds

variable (hholds : t.stageHolds = true)
include hholds

/-- DOOR_OBSTRUCTED of an input that stops the close, which does not end at this tick, reverses the door (R245, R259). -/
theorem exec_doorObstructed_closing {k : Fin 4} (hobst : t.obstStops k = true) (hgoes : t.closesNow = false) :
    exec (.doorObstructed dt k) s = .next ((t.post 0x0504 (bitsAt t.door.use.obst[k] 0 6)).reverseDoor) := by
  show execDoorObstructed dt k s = _
  simp only [execDoorObstructed, ← ht, hreset, hcar, hholds, hobst, hgoes, Bool.and_self, Bool.not_false,
    Bool.false_eq_true, if_false, if_true]

section Stall

variable {a : Postmark} (hmode : t.door.mode = 1) (hstall : t.door.stallAt = some a)
  (hdue : a + t.fld 0x50070 0 8 * 80000 ≤ t.now) (hgoes : t.closesNow = false)
  (hclear : (List.finRange 4).any t.obstStops = false)
include hmode hstall hdue hgoes hclear

/-- DOOR_STALL of a close or homing close that neither ends at this tick nor is stopped by an input reverses the door (R248, R259,
log 109). -/
theorem exec_doorStall_closing (hstate : t.door.state = 2 ∨ t.door.state = 7 ∨ t.door.state = 8) :
    exec (.doorStall dt) s =
      .next (((t.setDoor { t.door with stallAt := none }).post 0x0507 (ucode 32 t.door.fr)).reverseDoor) := by
  show execDoorStall dt s = _
  have hcloses : t.door.state = 7 ∨ t.door.state = 8 ∨ t.door.state = 2 := by omega
  simp only [execDoorStall, ← ht, hreset, hstall, hcar, hmode, hholds, hdue, hgoes, hclear, hcloses, Bool.and_self,
    Bool.not_false, decide_true, Bool.false_eq_true, if_false, if_true]

/-- DOOR_STALL of an opening or preopening door stops it hard and fails the open (R248). -/
theorem exec_doorStall_opening (hstate : t.door.state = 5 ∨ t.door.state = 11) :
    exec (.doorStall dt) s = .next (
      let u := (t.setDoor { t.door with stallAt := none, openAt := none, next := none }).post 0x0507 (ucode 32 t.door.fr)
      let u := if u.moving u.doorUnit then u.orderStop u.doorUnit true .door else u
      (u.complete .doorOpen .failed 0x58 0).doorTo 10) := by
  show execDoorStall dt s = _
  have hcloses : ¬ (t.door.state = 7 ∨ t.door.state = 8 ∨ t.door.state = 2) := by omega
  simp only [execDoorStall, ← ht, hreset, hstall, hcar, hmode, hholds, hdue, hgoes, hclear, hcloses, hstate, Bool.and_self,
    Bool.not_false, decide_true, Bool.false_eq_true, if_false, if_true]

end Stall

/-- DOOR_OPEN_TIMEOUT after OPEN_TIME, of an open that does not end at this tick, stops the door and fails the open (R238). -/
theorem exec_doorOpenTimeout_due {a : Postmark} (hstate : t.door.state = 5) (hopen : t.door.openAt = some a)
    (hdue : a + bitsAt t.door.use.time 16 16 * 80000 ≤ t.now) (hgoes : t.endsNow t.doorUnit = false) :
    exec (.doorOpenTimeout dt) s = .next (
      let u := (t.orderStop t.doorUnit false .door).complete .doorOpen .failed 0x5D 0
      (u.setDoor { u.door with openAt := none, next := none }).doorTo 10) := by
  show execDoorOpenTimeout dt s = _
  simp only [execDoorOpenTimeout, ← ht, hreset, hopen, hcar, hstate, hholds, hdue, hgoes, Bool.and_self, Bool.not_false,
    decide_true, Bool.false_eq_true, if_false, if_true]

/-- DOOR_CLOSE_TIMEOUT after CLOSE_TIME, of a close that does not end at this tick, fails the close and stops the door; after a
homing close its position stays unknown, else it is to reopen (R240, R242). -/
theorem exec_doorCloseTimeout_due {c : CloseSt} (hclose : t.door.close = some c)
    (hdue : c.since + bitsAt t.door.use.time 0 16 * 80000 ≤ t.now) (hgoes : t.closesNow = false) :
    exec (.doorCloseTimeout dt) s = .next (
      let u := (t.post 0x0505 ((t.now - c.since) / 80000)).complete .doorClose .failed 0x59 0
      let u := if u.moving u.doorUnit then u.orderStop u.doorUnit false .door else u
      let u := u.setDoor { u.door with close := none, next := none, reopen := c.profile }
      if t.door.state = 1 ∨ t.door.state = 2 then u.doorUnknown else u.doorTo 9) := by
  show execDoorCloseTimeout dt s = _
  simp only [execDoorCloseTimeout, ← ht, hreset, hclose, hcar, hholds, hdue, hgoes, Bool.and_self, Bool.not_false, decide_true,
    Bool.false_eq_true, if_false, if_true]

end StageHolds

section Serving

variable (hserves : t.serving = true)
include hserves

/-- DOOR_REOPEN at standstill after a reversal or time-out opens the door with the close's profile (R240, R245, R258). -/
theorem exec_doorReopen_due (hon : t.door.on = true) (hstate : t.door.state = 9) (hnext : t.door.next = none)
    (hstill : t.moving t.doorUnit = false) (hpermit : t.openPermit = true) :
    exec (.doorReopen dt) s = .next (t.openDoor t.door.reopen) := by
  show execDoorReopen dt s = _
  simp only [execDoorReopen, ← ht, hreset, hcar, hserves, hon, hstate, hnext, hstill, hpermit, Option.isNone_none,
    Bool.and_self, Bool.not_false, decide_true, Bool.false_eq_true, if_false, if_true]

/-- DOOR_HOLD_EXPIRY after the hold time closes the door, or starts the hold anew while an input obstructs or the profile is
not valid (R241, log 62). -/
theorem exec_doorHoldExpiry_due {a : Postmark} (hon : t.door.on = true) (hstate : t.door.state = 6) (hhold : t.door.holdAt = some a)
    (hdue : a + t.door.hold * 8000000 ≤ t.now) :
    exec (.doorHoldExpiry dt) s = .next (
      let u := t.setDoor { t.door with firstHold := some (t.door.firstHold.getD t.now) }
      if u.obstructed t.door.nudge = true ∨ u.profileBad t.door.openProfile = true then
        u.setDoor { u.door with holdAt := some t.now }
      else u.closeDoor t.door.openProfile t.door.nudge t.now) := by
  show execDoorHoldExpiry dt s = _
  simp only [execDoorHoldExpiry, ← ht, hreset, hcar, hserves, hon, hstate, hhold, hdue, Bool.and_self, decide_true,
    Bool.or_eq_true, Bool.false_eq_true, if_false, if_true]
  cases t.door.firstHold <;> exact (apply_ite Host.Outcome.next ..).symm

/-- DOOR_NUDGE after NUDGE_AFTER makes later automatic closes nudges (R241). -/
theorem exec_doorNudge_due {a : Postmark} (hfirst : t.door.firstHold = some a) (hafter : bitsAt t.door.use.seq 0 8 ≠ 0)
    (hnew : t.door.nudge = false) (hdue : a + bitsAt t.door.use.seq 0 8 * 80000000 ≤ t.now) :
    exec (.doorNudge dt) s = .next ((t.setDoor { t.door with nudge := true }).post 0x0508 0) := by
  show execDoorNudge dt s = _
  simp only [execDoorNudge, ← ht, hreset, hcar, hserves, hfirst, hafter, hnew, hdue, ne_eq, not_false_eq_true, Bool.and_self,
    Bool.not_false, decide_true, Bool.false_eq_true, if_false, if_true]

end Serving

/-- STAGE_FAULT of a value that meets its condition latches the fault and switches the stage off; `d` holds the measured
value (R256). -/
theorem exec_stageFault_met {kind : Fin 6} {v : Int} {d : DoorSt} (hmet : t.stageFaultMet kind.val v = true)
    (hd : d = if kind.val = 3 then { t.door with temp := v }
      else if 4 ≤ kind.val then { t.door with vdoor := v.toNat } else t.door) :
    exec (.stageFault dt kind v) s =
      .next ((t.setDoor { d with fault := true, fkind := kind.val }).post 0x0506 kind.val).doorSwitch := by
  subst hd
  show execStageFault dt kind v s = _
  simp only [execStageFault, ← ht, hreset, hcar, hmet, Bool.and_self, Bool.false_eq_true, if_false, if_true]

/-- DOOR_MODULATOR_UPDATE takes the samples, counts the legacy input in mode 4, and modulates a stage that is on (R226, R228,
R234). -/
theorem exec_doorModulatorUpdate_car {x : DoorIn} :
    exec (.doorModulatorUpdate dt x) s = .next (
      let u := ((t.encRun 2 x.enc).setDoor { (t.encRun 2 x.enc).door with vdoor := x.vdoor, temp := x.temp }).doorHeat x
      let u := if u.door.mode = 4 then u.legacyCount else u
      if u.door.on then u.doorModulate x else u.setDoor { u.door with
        duty := openDuty, vlimit := false,
        sector := if 1 ≤ u.sense.hall ∧ u.sense.hall ≤ 6 then u.sense.hall else u.door.sector }) := by
  show execDoorModulatorUpdate dt x s = _
  simp only [execDoorModulatorUpdate, ← ht, hreset, hcar, Bool.not_true, Bool.false_eq_true, if_false]

/-- LEGACY_STEP of the polarity of EDGE, in mode 4 and not ignored, moves the target by Δ and takes its rate from the step before
(R233, R234, R254). -/
theorem exec_legacyStep_step {active dir up : Bool} (hmode : t.door.mode = 4) (hheard : t.door.stepIgnore = false)
    (hedge : active = decide (t.fld 0x50008 13 1 = 0)) (hup : up = (dir != decide (t.fld 0x50008 14 1 = 1))) :
    exec (.legacyStep dt ⟨active, dir⟩) s = .next (t.setDoor { t.door with
      target := if up then t.door.target + t.legacyDelta else t.door.target - t.legacyDelta,
      stepAt := some t.now, stepUp := up,
      stepTs := match t.door.stepAt with
        | some a => if t.now ≤ a + 4000000 ∧ up = t.door.stepUp then some (t.now - a) else none
        | none => none }) := by
  subst hedge hup
  show execLegacyStep dt _ s = _
  simp only [execLegacyStep, ← ht, hreset, hcar, hmode, hheard, bne_self_eq_false, ne_eq, not_true_eq_false, decide_false,
    Bool.or_self, Bool.not_true, Bool.false_eq_true, if_false] <;> rfl

end Events

/-- Settles O15: one lemma for each event and outcome. -/
theorem doorEventsComplete : Obligations.DoorEventsComplete := by
  refine ⟨?obstructed, ?stall, ?openTimeout, ?closeTimeout, ?reopen, ?holdExpiry, ?nudge, ?stageFault, ?modulator, ?legacy⟩
  case obstructed =>
    exact fun _ _ _ _ ht hreset hcar hon hstage hinput hgoes hclosing =>
      exec_doorObstructed_closing ht hreset hcar (stageHolds_of_on hon hstage) (obstStops_of_closing hinput hclosing) hgoes
  case stall =>
    intro dt s t a ht hreset hcar hmode hon hstage hstall hdue hgoes hfree
    have hholds := stageHolds_of_on hon hstage
    have hclear : (List.finRange 4).any t.obstStops = false := List.any_eq_false.2 fun k _ => Bool.eq_false_iff.1 (hfree k)
    exact ⟨exec_doorStall_closing ht hreset hcar hholds hmode hstall hdue hgoes hclear,
      exec_doorStall_opening ht hreset hcar hholds hmode hstall hdue hgoes hclear⟩
  case openTimeout =>
    exact fun _ _ _ _ ht hreset hcar hstate hopen hon hstage =>
      exec_doorOpenTimeout_due ht hreset hcar (stageHolds_of_on hon hstage) hstate hopen
  case closeTimeout =>
    exact fun _ _ _ _ ht hreset hcar hclose hon hstage =>
      exec_doorCloseTimeout_due ht hreset hcar (stageHolds_of_on hon hstage) hclose
  case reopen => exact fun _ _ _ ht hreset hcar => exec_doorReopen_due ht hreset hcar
  case holdExpiry =>
    intro dt s t a ht hreset hcar hserves hon hstate hhold hdue
    exact (exec_doorHoldExpiry_due ht hreset hcar hserves hon hstate hhold hdue).trans (apply_ite Host.Outcome.next ..)
  case nudge => exact fun _ _ _ _ ht hreset hcar hserves => exec_doorNudge_due ht hreset hcar hserves
  case stageFault => exact fun _ _ _ _ _ _ ht hreset hcar => exec_stageFault_met ht hreset hcar
  case modulator => exact fun _ _ _ _ ht hreset hcar => exec_doorModulatorUpdate_car ht hreset hcar
  case legacy => exact fun _ _ _ _ _ _ ht hreset hcar => exec_legacyStep_step ht hreset hcar

end Sys2Proof.Machine

/-! ### The register writes of LOCK, MILL, FIO, CAN and GROUP (R266, R324, R408, R413, R424, R444, R454, R463) -/

namespace Sys2Proof.Machine

/-- A write of LOCK_STAT that names a latched cause clears the causes named and posts them (R324). -/
theorem writeSpecial_lockStat {v : Word} {t : State} (hcauses : t.causeBits v.toNat ≠ 0) :
    t.writeSpecial 0x70000 v.toNat 0xFFFFFFFF = some (none, (t.setLock { t.lock with
      ucm := t.lock.ucm && !bitAt (t.causeBits v.toNat) 3,
      bridge := t.lock.bridge && !bitAt (t.causeBits v.toNat) 4,
      disagree := t.lock.disagree && !bitAt (t.causeBits v.toNat) 5,
      bypass := t.lock.bypass && !bitAt (t.causeBits v.toNat) 6 }).post 0x070B (t.causeBits v.toNat)) := by
  simp (disch := omega) only [State.writeSpecial, if_neg, if_true, if_false, State.causeClear, word_and_full, hcauses]

/-- A write of MILLk_FLAGS clears the sticky flags written 1 (R408). -/
theorem writeSpecial_millFlags (m : Fin 4) (v : Word) (t : State) :
    t.writeSpecial (0x90004 + 0x100 * m.val) v.toNat 0xFFFFFFFF = some (none, t.millFlagsClear m v.toNat) := by
  have hm : fidx 3 ((0x90004 + 0x100 * m.val - 0x90000) / 0x100) = m := Fin.ext (by simp only [fidx]; omega)
  have ha : 0x90000 ≤ 0x90004 + 0x100 * m.val ∧ 0x90004 + 0x100 * m.val < 0x90400 ∧ (0x90004 + 0x100 * m.val) % 0x100 = 4 := by
    omega
  simp (disch := omega) only [State.writeSpecial, if_neg, if_pos ha, hm, word_and_full]

/-- A write of 1 to MILLk_SIG of a mill that executes raises SIG (R413). -/
theorem writeSpecial_millSig {m : Fin 4} {v : Word} {t : State} (hv : bitAt v.toNat 0 = true)
    (hexec : (t.mill.mill[m]).executes = true) :
    t.writeSpecial (0x90010 + 0x100 * m.val) v.toNat 0xFFFFFFFF = some (none, t.millRaise m 5) := by
  have hm : fidx 3 ((0x90010 + 0x100 * m.val - 0x90000) / 0x100) = m := Fin.ext (by simp only [fidx]; omega)
  have ha : 0x90000 ≤ 0x90010 + 0x100 * m.val ∧ 0x90010 + 0x100 * m.val < 0x90400 ∧
      (0x90010 + 0x100 * m.val) % 0x100 = 0x10 := by
    omega
  simp (disch := omega) only [State.writeSpecial, if_neg, if_pos ha, hm, word_and_full, State.millSig, hv, hexec, Bool.and_self,
    if_true]

/-- A write of 1 to LINKOFF of FIO_STAT clears it (R444). -/
theorem writeSpecial_linkOff {v : Word} {t : State} (hv : bitAt v.toNat 3 = true) :
    t.writeSpecial 0xA0000 v.toNat 0xFFFFFFFF = some (none, t.setFio { t.fio with linkOff := false }) := by
  simp (disch := omega) only [State.writeSpecial, if_neg, if_true, word_and_full, hv, State.linkOffClear]

/-- A write of CANx_LOCKw sets the locks of its 32 buffers (R463). -/
theorem writeSpecial_canLock (c : Fin 3) (w : Fin 8) (v : Word) (t : State) :
    t.writeSpecial (canBase c.val + 0x20 + 4 * w.val) v.toNat 0xFFFFFFFF = some (none, t.lockWrite c w.val v.toNat) := by
  have hc : fidx 2 ((canBase c.val + 0x20 + 4 * w.val - 0xB0000) / 0x10000) = c :=
    Fin.ext (by simp only [fidx, canBase]; omega)
  have hw : ((canBase c.val + 0x20 + 4 * w.val) % 0x10000 - 0x20) / 4 = w.val := by simp only [canBase]; omega
  have hbase : canBase c.val = 0xB0000 + 0x10000 * c.val := rfl
  have ha : 0xB0000 ≤ canBase c.val + 0x20 + 4 * w.val ∧ canBase c.val + 0x20 + 4 * w.val < 0xE0000 ∧
      0x20 ≤ (canBase c.val + 0x20 + 4 * w.val) % 0x10000 ∧ (canBase c.val + 0x20 + 4 * w.val) % 0x10000 < 0x40 := by
    omega
  simp (disch := omega) only [State.writeSpecial, if_neg, if_pos ha, hc, hw, mixBits_full _ v.isLt]

/-- Storing a register of DOOR or a later block does nothing else, PWR_CFG and the input configurations apart. -/
theorem afterWrite_storeOnly {a : Nat} (hlo : 0x50000 ≤ a) (hpwr : a ≠ 0xF0004) (hin : ¬ (0xA0020 ≤ a ∧ a < 0xA0038))
    (old new m : Nat) (u : State) : u.afterWrite a old new m = u := by
  simp (disch := omega) only [State.afterWrite, State.loopAfter, if_neg]

/-- The row of a plain stored register without an effect besides the store. -/
theorem ServesWrite.of_plain {row : Head → Word → Instr} {a : Nat} (he : ∀ h v s, exec (row h v) s = .next (s.writeRow h a v))
    (ha : a < 0x100000) (hplain : plainStored a = true ∧ ownEffect a = false)
    (hafter : ∀ (old new m : Nat) (u : State), u.afterWrite a old new m = u) :
    ServesWrite row a (Allowed a) fun v t => t.setReg a (written a v t) :=
  .of_stored he ha hplain.1 (fun _ _ => writeSpecial_of_not_ownEffect hplain.2 ..) fun _ _ => hafter ..

/-- MILLk_EVVEC is a plain stored register of each mill. -/
theorem evvec_plain : ∀ m : Fin 4,
    plainStored (0x9000C + 0x100 * m.val) = true ∧ ownEffect (0x9000C + 0x100 * m.val) = false := by
  decide

/-- CANx_NBT and CANx_DBT are plain stored registers of each controller. -/
theorem bitTiming_plain : ∀ (c : Fin 3) (d : Bool),
    plainStored (canBase c.val + 8 + 4 * b2n d) = true ∧ ownEffect (canBase c.val + 8 + 4 * b2n d) = false := by
  decide

/-- GROUP_CFG and GROUP_TIMING are plain stored registers. -/
theorem groupCfg_plain : ∀ d : Bool, plainStored (0x60004 + 4 * b2n d) = true ∧ ownEffect (0x60004 + 4 * b2n d) = false := by
  decide

/-- A Boolean as a number is 0 or 1. -/
theorem b2n_le_one (d : Bool) : b2n d ≤ 1 := by
  cases d <;> decide

/-- Settles O8: each row through the one write path, with its register's store or own effect. -/
theorem unitRegisterWritesComplete : Obligations.UnitRegisterWritesComplete := by
  refine ⟨?lockStat, fun m => ⟨?flags, ?sig, ?evvec⟩, ?linkOff, fun c w => ?canLock, fun c d => ?bitTiming, fun d => ?groupCfg⟩
  case lockStat => exact .of_special (fun _ _ _ => rfl) (by decide) fun _ _ => writeSpecial_lockStat
  case flags =>
    exact .of_write (fun _ _ _ => rfl) (by omega) fun v t hok => by
      rw [writeReg_allowed hok, writeEffect_of_special (writeSpecial_millFlags m v t)]
      rfl
  case sig =>
    exact .of_special (fun _ _ _ => rfl) (by omega) fun _ _ ⟨hv, hexec⟩ => writeSpecial_millSig hv hexec
  case evvec =>
    exact .of_plain (fun _ _ _ => rfl) (by omega) (evvec_plain m) (afterWrite_storeOnly (by omega) (by omega) (by omega))
  case linkOff => exact .of_special (fun _ _ _ => rfl) (by decide) fun _ _ => writeSpecial_linkOff
  case canLock =>
    have hbase : canBase c.val = 0xB0000 + 0x10000 * c.val := rfl
    exact .of_write (fun _ _ _ => rfl) (by omega) fun v t hok => by
      rw [writeReg_allowed hok, writeEffect_of_special (writeSpecial_canLock c w v t)]
      rfl
  case bitTiming =>
    have hbase : canBase c.val = 0xB0000 + 0x10000 * c.val := rfl
    have hd := b2n_le_one d
    exact .of_plain (fun _ _ _ => rfl) (by omega) (bitTiming_plain c d)
      (afterWrite_storeOnly (by omega) (by omega) (by omega))
  case groupCfg =>
    have hd := b2n_le_one d
    exact .of_plain (fun _ _ _ => rfl) (by omega) (groupCfg_plain d) (afterWrite_storeOnly (by omega) (by omega) (by omega))

end Sys2Proof.Machine

/-! ### The group letters (R278, R286-R288, R301, R303) -/

namespace Sys2Proof.Machine

/-- The join that begins to listen at `now` (R301). -/
def JoinSt.listening (now : Postmark) : JoinSt :=
  { since := now, strokes := 0, heard := [], anyStroke := false, claimed := false, nonce := 0 }

/-- GROUP_JOIN in state OFF, with every bus of its mask active and its bit timing sufficient, is QUEUED and listens (R301). -/
theorem groupJoin_run_off {q : Letter} {t : State} (hoff : t.group.state = 0)
    (hbus : ∀ b : Fin 2, (BitVec.ofNat 2 (u8 q.payload 1)).getLsbD b.val = true →
      t.can[busCtrl b].state = 1 ∧ t.timingNeeded b = none) :
    groupJoinHandler.run q t = (.queued .groupJoin, t.setGroup { t.group.left with
      state := 1, car := u8 q.payload 0, mask := BitVec.ofNat 2 (u8 q.payload 1), join := some (.listening t.now), cur := 0,
      gt := { t.group.left.gt with state := 1 } }) := by
  have hactive (b : Fin 2) :
      ((BitVec.ofNat 2 (u8 q.payload 1)).getLsbD b.val && decide (t.can[busCtrl b].state ≠ 1)) = false := by
    rw [Bool.and_eq_false_imp]
    exact fun hmask => decide_eq_false (not_not_intro (hbus b hmask).1)
  have htiming (b : Fin 2) : (if (BitVec.ofNat 2 (u8 q.payload 1)).getLsbD b.val then t.timingNeeded b else none) = none :=
    ite_eq_right_iff.2 fun hmask => (hbus b hmask).2
  simp only [groupJoinHandler, handler, hoff, hactive, htiming, Option.or_none, Bool.or_self, ne_eq, not_true_eq_false,
    Bool.false_eq_true, if_false, JoinSt.listening]

/-- GROUP_LEAVE of an isolated station ends DONE at once (log 75). -/
theorem groupLeave_run_isolated {q : Letter} {t : State} (hiso : t.group.state = 5) :
    groupLeaveHandler.run q t = (.ended .groupLeave .done 0 0, t.setGroup t.group.left) := by
  simp [groupLeaveHandler, handler, hiso]

/-- GROUP_LEAVE of a member that is not isolated is QUEUED for its last slot (R303). -/
theorem groupLeave_run_member {q : Letter} {t : State} (hmember : 3 ≤ t.group.state) (hjoined : t.group.state ≠ 5) :
    groupLeaveHandler.run q t =
      (.queued .groupLeave, t.setGroup { t.group with state := 6, gt := { t.group.gt with state := 0, c := 0 } }) := by
  simp only [groupLeaveHandler, handler, if_neg (Nat.not_lt.2 hmember), if_neg hjoined]

/-- A readable table of its length that passes its check is staged (R288). -/
theorem setTable_valid {len : List Byte → Nat} {bad : List Byte → Option Nat} (put : List Byte → GroupSt → GroupSt) {q : Letter}
    {t : State} {a n : Nat} {b : List Byte} (ha : u32 q.payload 0 = a) (hn : u32 q.payload 4 = n)
    (hclean : (t.eccRead a n).1 = none) (hb : t.cellsFrom a n = b) (hlen : n = len b) (hvalid : bad b = none) :
    setTable len bad put q t = (.done 0 [], (t.eccRead a n).2.setGroup (put b (t.eccRead a n).2.group)) := by
  simp only [setTable, ha, hn, hclean, hb, hvalid, if_neg (not_not_intro hlen), doneWith]

/-- POLICY_SET of a valid table of 2048 bytes stages it (R286, R288). -/
theorem policySet_run_valid {q : Letter} {t : State} {a : Nat} {b : List Byte} (ha : u32 q.payload 0 = a)
    (hn : u32 q.payload 4 = 2048) (hclean : (t.eccRead a 2048).1 = none) (hb : t.cellsFrom a 2048 = b)
    (hvalid : policyBad b = none) :
    policySetHandler.run q t =
      (.done 0 [], (t.eccRead a 2048).2.setGroup { (t.eccRead a 2048).2.group with policyNext := some b }) := by
  simp only [policySetHandler, handler, if_neg (not_not_intro hn)]
  exact setTable_valid _ ha hn hclean hb rfl hvalid

/-- FLIGHT_SET of a valid table of the length that its header calls for stages it (R287, R288). -/
theorem flightSet_run_valid {q : Letter} {t : State} {a n : Nat} {b : List Byte} (ha : u32 q.payload 0 = a)
    (hn : u32 q.payload 4 = n) (hmin : 16 ≤ n) (hmax : n ≤ 16 + 4 * 65535 + 8 * 255 * 255) (hclean : (t.eccRead a n).1 = none)
    (hb : t.cellsFrom a n = b) (hlen : n = flightLen b) (hvalid : flightBad b = none) :
    flightSetHandler.run q t =
      (.done 0 [], (t.eccRead a n).2.setGroup { (t.eccRead a n).2.group with flightNext := some b }) := by
  have hrange : ¬ (u32 q.payload 4 < 16 ∨ 16 + 4 * 65535 + 8 * 255 * 255 < u32 q.payload 4) := by omega
  simp only [flightSetHandler, handler, if_neg hrange]
  exact setTable_valid _ ha hn hclean hb hlen hvalid

/-- A call letter at a member of the group queues its frame and answers the round of its window (R278). -/
theorem call_run_member {opc : Nat} {cancel : Bool} {q : Letter} {t : State} (hmachine : t.machine = true)
    (hmember : 3 ≤ t.group.state) :
    (callHandler opc cancel).run q t = (.done (word t.callRound) [], t.setGroup { t.group with calls := t.group.calls ++ [{
      round := t.callRound, cancel := cancel, panel := u16 q.payload 4,
      data := u32 q.payload 0 + q.seq.toNat % 4096 * 2 ^ 32, toA := t.busSends 0, toB := t.busSends 1 }] }) := by
  simp only [callHandler, handler, hmachine, if_neg (Nat.not_lt.2 hmember), Bool.not_true, Bool.false_eq_true, if_false]

/-- A call letter at a car station whose link is up and has room is passed over it (R278). -/
theorem call_run_car {opc : Nat} {cancel : Bool} {q : Letter} {t : State} (hcar : t.machine = false) (hlink : t.link.state = 3)
    (hroom : t.lb.rcpt4.length < 16) :
    (callHandler opc cancel).run q t = (.done 0xFFFFFFFF#32 [],
      { t with lb := { t.lb with rcpt4 := t.lb.rcpt4 ++ [.letter (headFull opc 8 q ++ q.payload)] } }) := by
  simp only [callHandler, handler, hcar, if_neg (not_not_intro hlink), if_neg (Nat.not_le.2 hroom), Bool.not_false, if_true]

/-- Both call letters are served by the handler of calls. -/
theorem exec_call {cancel : Bool} {opc : Nat} {row : Letter → Instr}
    (h : cancel = false ∧ opc = 0x064 ∧ row = .callEnter ∨ cancel = true ∧ opc = 0x065 ∧ row = .callCancel) (l : Letter)
    (s : State) : exec (row l) s = .next (s.serve opc (callHandler opc cancel) l) := by
  obtain ⟨rfl, rfl, rfl⟩ | ⟨rfl, rfl, rfl⟩ := h <;> rfl

/-- Settles O16: what each handler runs, by the state of the station. -/
theorem groupLettersComplete : Obligations.GroupLettersComplete := by
  refine ⟨?join, ?leaveIsolated, ?leaveMember, fun a n b => ⟨?policy, ?flight⟩, fun cancel opc row hrow => ⟨?queued, ?passed⟩⟩
  case join => exact .of_run (fun _ _ => rfl) (fun _ _ ⟨hoff, hbus⟩ => groupJoin_run_off hoff hbus) fun _ _ _ => rfl
  case leaveIsolated => exact .of_run (fun _ _ => rfl) (fun _ _ => groupLeave_run_isolated) fun _ _ _ => rfl
  case leaveMember =>
    exact .of_run (fun _ _ => rfl) (fun _ _ ⟨hmember, hjoined⟩ => groupLeave_run_member hmember hjoined) fun _ _ _ => rfl
  case policy =>
    exact .of_run (fun _ _ => rfl) (fun _ _ ⟨ha, hn, hclean, hb, hvalid⟩ => policySet_run_valid ha hn hclean hb hvalid)
      fun _ _ _ => rfl
  case flight =>
    exact .of_run (fun _ _ => rfl) (fun _ _ ⟨ha, hn, hmin, hmax, hclean, hb, hlen, hvalid⟩ =>
      flightSet_run_valid ha hn hmin hmax hclean hb hlen hvalid) fun _ _ _ => rfl
  case queued =>
    exact .of_run (exec_call hrow) (fun _ _ ⟨hmachine, hmember⟩ => call_run_member hmachine hmember) fun _ _ _ => rfl
  case passed =>
    exact .of_run (exec_call hrow) (fun _ _ ⟨hcar, hlink, hroom⟩ => call_run_car hcar hlink hroom) fun _ _ _ => rfl

end Sys2Proof.Machine

/-! ### The events of a round (R264, R268-R274, R280, R295, R302, R476-R482) -/

namespace Sys2Proof.Machine

/-- A sender and a length that R263 gives a status slot. -/
theorem slot_listed {c : Fin 64} {b : List Byte} (hsender : c ≠ 0) (hlen : b.length = 64) :
    ¬ (c.val = 0 ∨ (0 : Fin 4096).val ≠ 0 ∨ b.length ≠ 64) := by
  simp [hsender, hlen]

section RoundEvents

variable {dt : Nat} {s t : State} (ht : t = s.advance dt) (hreset : t.inReset = false)
include ht hreset

/-- BELL_STROKE at a station of the group is taken as a stroke of another station (R269). -/
theorem exec_bellStroke_group {x : StrokeIn} (hmachine : t.machine = true) (hstate : t.group.state ≠ 0) :
    exec (.bellStroke dt x) s = .next (t.strokeFrom x) := by
  show execBellStroke dt x s = _
  simp only [execBellStroke, ← ht, hreset, hmachine, hstate, ne_eq, not_false_eq_true, and_self, Bool.false_eq_true, if_false,
    if_true]

/-- BELL_YIELDED at the bell is taken as a stroke of another station (R482). -/
theorem exec_bellYielded_bell {x : StrokeIn} (hmachine : t.machine = true) (hstate : t.group.state ≠ 0)
    (hbell : t.group.bell = true) : exec (.bellYielded dt x) s = .next (t.strokeFrom x) := by
  show execBellYielded dt x s = _
  simp only [execBellYielded, ← ht, hreset, hmachine, hstate, hbell, ne_eq, not_false_eq_true, and_self, Bool.false_eq_true,
    if_false, if_true]

/-- BELL_STROKE_TX after a nominal instant whose stroke is outstanding: a bell that still is one once the round before is closed
opens its own round (R476, log 74). -/
theorem exec_bellStrokeTx_due (hmachine : t.machine = true) (hbell : t.group.bell = true) (hdue : t.strokeDue = true)
    (hsends : t.busSends 0 = true ∨ t.busSends 1 = true) (hspace : t.spacingOk t.now = true)
    (hstays : t.lateClose.group.bell = true) :
    exec (.bellStrokeTx dt) s = .next (t.lateClose.validStroke t.lateClose.ownStroke true
      (if t.busSends 0 then some t.now else none) (if t.busSends 1 then some t.now else none) (!t.lateClose.busSends 0)
      t.lateClose.now) := by
  show execBellStrokeTx dt s = _
  simp only [execBellStrokeTx, ← ht, hreset, hmachine, hbell, hdue, hsends, hspace, hstays, and_self, Bool.false_eq_true,
    if_false, if_true]

/-- BELL_MISSING after T_round + 500 µs without the next stroke puts group time on hold and counts; the second one running is
posted, and the car whose rank has come takes the bell (R478, R480, R481). -/
theorem exec_bellMissing_late {m : Nat} {u v : State} (hmember : t.group.state ≠ 0) (hstays : t.group.state ≠ 6)
    (hbell : t.group.bell = false) (hcur : t.group.cur ≠ 0) (hm : m = t.group.gt.missed + 1)
    (hlate : t.group.t0 + m * t.roundLen + 40000 ≤ t.now)
    (hu : u = t.setGt { t.group.gt with
      missed := m, state := if t.group.gt.state = 2 then 3 else t.group.gt.state,
      c := if t.group.gt.state = 2 then t.group.gt.f else t.group.gt.c })
    (hv : v = if m = 2 then u.post (u.lowBusEvent 5) t.group.cur else u) :
    exec (.bellMissing dt) s =
      if ((carsOf (carMask (t.group.slotList.map (·.1)))).filter (· ≠ t.group.bellCar))[m - 1]? = some t.group.car ∧
          (t.group.state = 3 ∨ t.group.state = 4) ∧ t.fld 0xB0204 0 1 = 1 then
        .next (v.takeBell (roundAfter (nextRound t.group.cur) m))
      else .next v := by
  have hfld : v.fld 0xB0204 0 1 = t.fld 0xB0204 0 1 := by
    rw [hv, hu]
    split <;> rfl
  show execBellMissing dt s = _
  simp only [execBellMissing, ← ht, hreset, ← hm, hmember, hstays, hbell, hcur, Nat.not_lt.2 hlate, or_self, ← hu, ← hv, hfld,
    Bool.false_eq_true, if_false]

/-- STATUS_SLOT_TX within the own window composes the slot and loads it, with the fields that the lane offers or, in a service
gap, those that it wrote last (R271, R272). -/
theorem exec_statusSlotTx_window {x c : CarIn} (hmachine : t.machine = true) (hsends : t.group.sends = true)
    (hnew : t.group.slotLoaded = false) (hawake : t.pwr.mode ≠ .sleep) (hfrom : t.ownSlotAt ≤ t.now)
    (hto : t.now < t.ownSlotAt + t.slotLen) (hbus : t.busSends 0 = true ∨ t.busSends 1 = true)
    (hc : c = if t.serving then x else t.group.ownCar) :
    exec (.statusSlotTx dt x) s = .next (t.setGroup { t.group with
      ownCar := c, ownSlot := some (t.composeSlot c), slotLoaded := true,
      slots := insSlot t.group.car (t.composeSlot c) false t.group.slots }) := by
  have hbus' : (t.busSends 0 || t.busSends 1) = true := (Bool.or_eq_true ..).mpr hbus
  show execStatusSlotTx dt x s = _
  simp only [execStatusSlotTx, ← ht, hreset, hmachine, hsends, hnew, hawake, Nat.not_lt.2 hfrom, Nat.not_le.2 hto, hbus', ← hc,
    decide_false, Bool.not_true, Bool.or_self, Bool.false_eq_true, if_false]

/-- SLOT_LATE_CANCEL takes a slot that has not started by T_slot − 125 µs back and counts it (R273). -/
theorem exec_slotLateCancel_due (hslot : t.group.ownSlot.isSome = true) (hopen : t.group.refDone = false)
    (hlate : t.ownSlotAt + t.slotLen ≤ t.now + 10000) :
    exec (.slotLateCancel dt) s = .next (t.setGroup { t.group with
      ownSlot := none, slots := t.group.slots.filter (·.1 ≠ t.group.car), slotLate := satAdd 0xFF t.group.slotLate 1 }) := by
  show execSlotLateCancel dt s = _
  simp only [execSlotLateCancel, ← ht, hreset, hslot, hopen, hlate, and_self, Bool.false_eq_true, if_false, if_true]

/-- REFERENCE_DIGEST at the end of the last slot closes the slots of the round (R295). -/
theorem exec_referenceDigest_due (hmember : t.group.state ≠ 0) (hjoined : t.group.state ≠ 5) (hopen : t.group.refDone = false)
    (hcur : t.group.cur ≠ 0) (hend : t.group.t0 + t.bellLen + t.slots * t.slotLen ≤ t.now) :
    exec (.referenceDigest dt) s = .next t.closeSlots := by
  show execReferenceDigest dt s = _
  simp only [execReferenceDigest, ← ht, hreset, hmember, hjoined, hopen, hcur, Nat.not_lt.2 hend, or_self, Bool.false_eq_true,
    if_false]

section SlotReceived

variable {bus : Bool} {c : Fin 64} {b : List Byte} (hmachine : t.machine = true) (hmember : t.group.state ≠ 0)
  (hjoined : t.group.state ≠ 5) (hbus : t.busJoined (if bus then 1 else 0) = true)
include hmachine hmember hjoined hbus

/-- STATUS_SLOT_RX with a sender, qualifier or length that R263 does not give is discarded (R264). -/
theorem exec_statusSlotRx_unlisted {qual : Fin 4096} (hbad : c = 0 ∨ qual ≠ 0 ∨ b.length ≠ 64) :
    exec (.statusSlotRx dt bus c qual b) s = .next t.groupDiscard := by
  have hbad' : c.val = 0 ∨ qual.val ≠ 0 ∨ b.length ≠ 64 :=
    hbad.imp (congrArg Fin.val) (.imp_left Fin.val_ne_zero_iff.2)
  show execStatusSlotRx dt bus c qual b s = _
  simp only [execStatusSlotRx, ← ht, hreset, hmachine, hmember, hjoined, hbus, if_pos hbad', Bool.not_true, or_self,
    Bool.false_eq_true, if_false]

section Listed

variable (hlen : b.length = 64) (hsender : c ≠ 0)
include hlen hsender

/-- A slot with the own number is seen by a member as that of a twin (R302). -/
theorem exec_statusSlotRx_own (hown : c.val = t.group.car)
    (hin : t.group.state = 3 ∨ t.group.state = 4 ∨ t.group.state = 6) :
    exec (.statusSlotRx dt bus c 0 b) s = .next t.numberTwin := by
  show execStatusSlotRx dt bus c 0 b s = _
  simp only [execStatusSlotRx, ← ht, hreset, hmachine, hmember, hjoined, hbus, if_neg (slot_listed hsender hlen),
    if_pos (And.intro hown hin), Bool.not_true, or_self, Bool.false_eq_true, if_false]

section OtherCar

variable {x : SlotMsg} (hx : x = SlotMsg.ofBytes b)
  (hother : ¬ (c.val = t.group.car ∧ (t.group.state = 3 ∨ t.group.state = 4 ∨ t.group.state = 6))) (hslot : c.val ≤ t.slots)
include hx hother hslot

/-- A slot of another car of the group goes through the checks of R274 in their order: the check value, the round, the entries. -/
theorem exec_statusSlotRx_other :
    exec (.statusSlotRx dt bus c 0 b) s = .next (
      if u32 b 56 ≠ (crc32c (b.take 56)).toNat then t.slotBad c.val 1
      else if x.round ≠ t.group.cur ∨ t.group.refDone = true then t.slotBad c.val 2
      else if x.count ≠ 0 ∧ (x.mute = true ∨ t.group.knowsP = true ∧ t.group.p.getLsbD (c.val - 1) = false) then t.slotBad c.val 3
      else t.setGroup (t.group.takeSlot bus c.val x)) := by
  show execStatusSlotRx dt bus c 0 b s = _
  simp only [execStatusSlotRx, ← ht, hreset, hmachine, hmember, hjoined, hbus, if_neg (slot_listed hsender hlen), if_neg hother,
    Nat.not_lt.2 hslot, ← hx, Bool.not_true, Bool.not_eq_true', or_self, Bool.false_eq_true, if_false,
    apply_ite Host.Outcome.next]

/-- A slot whose check value is not that of its bytes is discarded, cause 1 (R274). -/
theorem exec_statusSlotRx_badCrc (hcrc : u32 b 56 ≠ (crc32c (b.take 56)).toNat) :
    exec (.statusSlotRx dt bus c 0 b) s = .next (t.slotBad c.val 1) := by
  rw [exec_statusSlotRx_other ht hreset hmachine hmember hjoined hbus hlen hsender hx hother hslot, if_pos hcrc]

section GoodCrc

variable (hcrc : u32 b 56 = (crc32c (b.take 56)).toNat)
include hcrc

/-- A slot of another round, or one after the end of the slots, is discarded, cause 2 (R274). -/
theorem exec_statusSlotRx_badRound (hround : x.round ≠ t.group.cur ∨ t.group.refDone = true) :
    exec (.statusSlotRx dt bus c 0 b) s = .next (t.slotBad c.val 2) := by
  rw [exec_statusSlotRx_other ht hreset hmachine hmember hjoined hbus hlen hsender hx hother hslot,
    if_neg (not_not_intro hcrc), if_pos hround]

variable (hround : x.round = t.group.cur) (hopen : t.group.refDone = false)
include hround hopen

/-- A slot with entries of a mute car, or of one outside P where P is known, is discarded, cause 3 (R274). -/
theorem exec_statusSlotRx_badEntries (hcount : x.count ≠ 0)
    (hentries : x.mute = true ∨ t.group.knowsP = true ∧ t.group.p.getLsbD (c.val - 1) = false) :
    exec (.statusSlotRx dt bus c 0 b) s = .next (t.slotBad c.val 3) := by
  rw [exec_statusSlotRx_other ht hreset hmachine hmember hjoined hbus hlen hsender hx hother hslot,
    if_neg (not_not_intro hcrc), if_neg (by simp [hround, hopen]), if_pos ⟨hcount, hentries⟩]

/-- A slot that passes every check is recorded for the round (R274, R304). -/
theorem exec_statusSlotRx_valid
    (hentries : x.count ≠ 0 → x.mute = false ∧ (t.group.knowsP = true → t.group.p.getLsbD (c.val - 1) = true)) :
    exec (.statusSlotRx dt bus c 0 b) s = .next (t.setGroup (t.group.takeSlot bus c.val x)) := by
  have hgood : ¬ (x.count ≠ 0 ∧ (x.mute = true ∨ t.group.knowsP = true ∧ t.group.p.getLsbD (c.val - 1) = false)) := by
    rintro ⟨hcount, hmute | ⟨hknown, hout⟩⟩
    · exact Bool.false_ne_true ((hentries hcount).1.symm.trans hmute)
    · exact Bool.false_ne_true (hout.symm.trans ((hentries hcount).2 hknown))
  rw [exec_statusSlotRx_other ht hreset hmachine hmember hjoined hbus hlen hsender hx hother hslot,
    if_neg (not_not_intro hcrc), if_neg (by simp [hround, hopen]), if_neg hgood]

end GoodCrc

end OtherCar

end Listed

end SlotReceived

end RoundEvents

/-- Settles O17: one lemma for each event and outcome; a slot of another car by the first check that it fails. -/
theorem groupRoundEventsComplete : Obligations.GroupRoundEventsComplete := by
  refine ⟨?stroke, ?strokeTx, ?missing, ?slotTx, ?slotLate, ?slotRx, ?unlisted, ?reference⟩
  case stroke =>
    exact fun _ _ _ _ ht hreset hmachine hstate =>
      ⟨exec_bellStroke_group ht hreset hmachine hstate, exec_bellYielded_bell ht hreset hmachine hstate⟩
  case strokeTx =>
    exact fun _ _ _ ht hreset hmachine hbell hdue =>
      exec_bellStrokeTx_due ht hreset hmachine hbell (decide_eq_true hdue)
  case missing =>
    exact fun _ _ _ _ _ ht hreset hmember hstays hbell hcur hm hlate hu =>
      exec_bellMissing_late ht hreset hmember hstays hbell hcur hm hlate hu rfl
  case slotTx => exact fun _ _ _ _ _ ht hreset => exec_statusSlotTx_window ht hreset
  case slotLate => exact fun _ _ _ ht hreset => exec_slotLateCancel_due ht hreset
  case slotRx =>
    intro dt bus c b x s t member ht hlen hx hreset hmachine hmember hjoined hbus hsender hin
    rw [hin, decide_eq_true_eq]
    refine ⟨exec_statusSlotRx_own ht hreset hmachine hmember hjoined hbus hlen hsender, fun hother hslot =>
      ⟨exec_statusSlotRx_badCrc ht hreset hmachine hmember hjoined hbus hlen hsender hx hother hslot, fun hcrc =>
        ⟨?badRound, ?badEntries, ?valid⟩⟩⟩
    case badRound =>
      exact exec_statusSlotRx_badRound ht hreset hmachine hmember hjoined hbus hlen hsender hx hother hslot hcrc
    case badEntries =>
      exact exec_statusSlotRx_badEntries ht hreset hmachine hmember hjoined hbus hlen hsender hx hother hslot hcrc
    case valid =>
      exact exec_statusSlotRx_valid ht hreset hmachine hmember hjoined hbus hlen hsender hx hother hslot hcrc
  case unlisted =>
    exact fun _ _ _ _ _ _ _ ht hreset hmachine hmember hjoined hbus =>
      exec_statusSlotRx_unlisted ht hreset hmachine hmember hjoined hbus
  case reference => exact fun _ _ _ ht hreset => exec_referenceDigest_due ht hreset

end Sys2Proof.Machine

/-! ### Twins, call frames, joining, the two buses and resynchronisation (R278, R280, R297-R306, R480) -/

namespace Sys2Proof.Machine

/-- A request or cancel frame on a joined bus is collected, unless it is the other bus's copy, and the own call frame of its
content has been sent on that bus (R280, R304). -/
theorem requestFrame_joined {cancel bus : Bool} {panel sender data : Nat} {t : State} (hmachine : t.machine = true)
    (hmember : t.group.state ≠ 0) (hbus : t.busJoined (if bus then 1 else 0) = true) (hpanel : panel ≠ 0) :
    t.requestFrame cancel bus panel sender data = t.setGroup { t.group with
      reqs := if t.group.reqs.any fun q => decide (q.busB ≠ bus ∧ t.group.t0 ≤ q.endAt) &&
          decide (({ busB := q.busB, cancel := cancel, panel := panel, sender := sender, data := data,
                     endAt := q.endAt } : ReqRec) = q)
        then t.group.reqs else t.group.reqs ++ [⟨bus, cancel, panel, sender, data, t.now⟩],
      calls := t.group.calls.filterMap fun c =>
        if sender = t.group.car ∧ c.cancel = cancel ∧ c.panel = panel ∧ c.data = data then
          if c.toA && bus || c.toB && !bus then some { c with toA := c.toA && bus, toB := c.toB && !bus } else none
        else some c } := by
  simp only [State.requestFrame, hmachine, hmember, hbus, if_neg hpanel, Bool.not_true, or_self, Bool.false_eq_true, if_false]

/-- REQUEST_FRAME and CANCEL_FRAME collect a frame of their kind. -/
theorem exec_callFrame (dt : Nat) (bus cancel : Bool) (panel : Fin 4096) (sender : Fin 64) (data : BitVec 64) (s : State) :
    exec (if cancel then .cancelFrame dt bus panel sender data else .requestFrame dt bus panel sender data) s =
      .next ((s.advance dt).requestFrame cancel bus panel.val sender.val data.toNat) := by
  cases cancel <;> rfl

section GroupEvents

variable {dt : Nat} {s t : State} (ht : t = s.advance dt) (hreset : t.inReset = false)
include ht hreset

/-- A claim that ends in TWIN fails the join (R301, R302). -/
theorem exec_carNumberTwin_claim {f : Fin 2} {buf : Fin 8} (hbus : t.busSends f = true) (hclaims : t.group.state = 2) :
    exec (.carNumberTwin dt ⟨0, f, buf⟩) s =
      .next ((t.twinPost (busCtrl f) ⟨buf.val, by omega⟩).leaveGroup .failed 0x60 t.group.car) := by
  show execCarNumberTwin dt _ s = _
  simp only [execCarNumberTwin, ← ht, hreset, hbus, hclaims, Fin.val_zero, and_self, Bool.false_eq_true, if_false, if_true]

/-- An own slot that ends in TWIN is that of a twin (R302). -/
theorem exec_carNumberTwin_slot {f : Fin 2} {buf : Fin 8} (hbus : t.busSends f = true)
    (hin : t.group.state = 3 ∨ t.group.state = 4 ∨ t.group.state = 6) (hslot : t.group.ownSlot.isSome = true) :
    exec (.carNumberTwin dt ⟨1, f, buf⟩) s = .next (t.twinPost (busCtrl f) ⟨buf.val, by omega⟩).numberTwin := by
  show execCarNumberTwin dt _ s = _
  simp only [execCarNumberTwin, ← ht, hreset, hbus, hin, hslot, Fin.val_one, and_self, Nat.one_ne_zero, Bool.false_eq_true, if_false,
    if_true]

/-- The own number seen from elsewhere is that of a twin (R302). -/
theorem exec_carNumberTwin_seen {f : Fin 2} {buf : Fin 8} (hin : t.group.state = 3 ∨ t.group.state = 4 ∨ t.group.state = 6) :
    exec (.carNumberTwin dt ⟨2, f, buf⟩) s = .next t.numberTwin := by
  show execCarNumberTwin dt _ s = _
  simp only [execCarNumberTwin, ← ht, hreset, hin, Fin.val_two, Nat.reduceEqDiff, Bool.false_eq_true, if_false, if_true]

/-- CALL_FRAME_TX_DROP from the quiet gap on drops and counts the frames of the window that ends (R278). -/
theorem exec_callFrameTxDrop_gap (hgap : t.group.t0 + t.roundLen ≤ t.now + 24000) :
    exec (.callFrameTxDrop dt) s = .next (t.setGroup { t.group with
      calls := t.group.calls.filter fun c => decide (c.round = nextRound t.group.cur),
      txDrop := satAdd 0xFF t.group.txDrop
        (t.group.calls.filter fun c => decide (c.round ≠ nextRound t.group.cur)).length }) := by
  show execCallFrameTxDrop dt s = _
  simp only [execCallFrameTxDrop, ← ht, hreset, if_neg (Nat.not_lt.2 hgap), Bool.false_eq_true, if_false]

section Joining

variable {j : JoinSt} (hlistens : t.group.state = 1) (hj : t.group.join = some j)
include hlistens hj

/-- JOIN_LISTEN_TIMEOUT after three rounds without a stroke makes a station that may be the bell take it with round 1
(R301, R480). -/
theorem exec_joinListenTimeout_due (hquiet : j.anyStroke = false) (hbell : t.group.bell = false)
    (hdue : j.since + 3 * t.roundLen ≤ t.now) (hmay : t.fld 0xB0204 0 1 = 1) :
    exec (.joinListenTimeout dt) s =
      .next ((t.setGroup { t.group with cur := 0, t0 := t.now - t.now % t.roundLen }).takeBell 1) := by
  show execJoinListenTimeout dt s = _
  simp only [execJoinListenTimeout, ← ht, hreset, hj, hlistens, hquiet, hbell, hdue, hmay, Bool.not_false, and_self,
    Bool.false_eq_true, if_false, if_true]

section Window

variable (hheard : 2 ≤ j.strokes) (hopen : t.group.t0 + t.bellLen + t.slots * t.slotLen ≤ t.now)
  (hgap : t.now + 24000 < t.group.t0 + t.roundLen)
include hheard hopen hgap

/-- JOIN_CLAIM of a number that a slot has shown in use meets a twin (R301, R302). -/
theorem exec_joinClaim_used (hused : t.group.car ∈ j.heard) : exec (.joinClaim dt) s = .next t.numberTwin := by
  show execJoinClaim dt s = _
  simp only [execJoinClaim, ← ht, hreset, hj, hlistens, Nat.not_lt.2 hheard, Nat.not_lt.2 hopen, Nat.not_le.2 hgap,
    List.contains_iff_mem.2 hused, ne_eq, not_true_eq_false, or_self, Bool.false_eq_true, if_false, if_true]

/-- JOIN_CLAIM of a free number claims it with a fresh nonce (R301). -/
theorem exec_joinClaim_free (hfree : t.group.car ∉ j.heard) :
    exec (.joinClaim dt) s = .next { t with
      free := t.free + 1,
      group := { t.group with state := 2, join := some { j with claimed := true, nonce := Config.freeWord t.free } } } := by
  have hunheard : j.heard.contains t.group.car = false := Bool.eq_false_iff.2 fun h => hfree (List.contains_iff_mem.1 h)
  show execJoinClaim dt s = _
  simp only [execJoinClaim, ← ht, hreset, hj, hlistens, Nat.not_lt.2 hheard, Nat.not_lt.2 hopen, Nat.not_le.2 hgap, hunheard,
    ne_eq, not_true_eq_false, or_self, Bool.false_eq_true, if_false]
  rfl

end Window

end Joining

/-- GROUP_BUS_LOST of a joined bus that is bus-off or has missed two rounds loses it, and with the last bus the group
(R305, R306). -/
theorem exec_groupBusLost_joined {b : Fin 2} {g : GroupSt} (hmember : t.group.state ≠ 0)
    (hmask : t.group.mask.getLsbD b.val = true) (hlive : t.group.lost.getLsbD b.val = false)
    (hoff : 2 ≤ t.can[busCtrl b].errst ∨ 2 ≤ t.group.missBus[b])
    (hg : g = { t.group with
      lost := t.group.lost ||| (1#2 <<< b.val), goodBus := t.group.goodBus.set b 0, missBus := t.group.missBus.set b 0 }) :
    exec (.groupBusLost dt b) s = .next (if g.mask &&& ~~~ g.lost = 0 then ((t.setGroup g).post 0x0605 b.val).allBusesLost
      else (t.setGroup g).post 0x0605 b.val) := by
  subst hg
  show execGroupBusLost dt b s = _
  simp only [execGroupBusLost, ← ht, hreset, hmember, hmask, hlive, hoff, decide_true, Bool.not_true, or_self,
    Bool.false_eq_true, if_false]

/-- RESYNC_REQUEST of another car is kept by the lowest member of P that is not mute (R297). -/
theorem exec_resyncRequest_source {c : Fin 64} (hsender : c ≠ 0) (hmember : t.group.state = 4) (hvoice : t.group.mute = false)
    (hother : c.val ≠ t.group.car)
    (hlowest : (carsOf (if t.group.refDone then t.group.pNext else t.group.p)).head? = some t.group.car) :
    exec (.resyncRequest dt c) s = .next (t.setGroup { t.group with
      resyncReq := if t.group.resyncReq.contains c.val then t.group.resyncReq else t.group.resyncReq ++ [c.val] }) := by
  show execResyncRequest dt c s = _
  simp only [execResyncRequest, ← ht, hreset, if_neg (Fin.val_ne_zero_iff.2 hsender), hmember, hvoice, hother, hlowest,
    Bool.not_false, ne_eq, not_false_eq_true, and_self, Bool.false_eq_true, if_false, if_true]

section Resync

variable {r : ResyncSt} (hr : t.group.resync = some r) (hbehind : r.caught = false)
include hr hbehind

/-- RESYNC_DATA of the source to this station takes the frame in (R299). -/
theorem exec_resyncData_source {sender car : Fin 64} {data : List Byte} (hmachine : t.machine = true)
    (hmember : t.group.state ≠ 0) (hlen : data.length = 64) (hsender : sender ≠ 0) (hcar : car ≠ 0) (hown : car.val = t.group.car)
    (hsource : sender.val = r.source) (hcollects : r.core = none) :
    exec (.resyncData dt sender car data) s = .next (t.setGroup (t.group.takeFrame data r)) := by
  have hlisted : ¬ (data.length ≠ 64 ∨ sender.val = 0 ∨ car.val = 0) := by
    simp [hlen, hsender, hcar]
  show execResyncData dt sender car data s = _
  simp only [execResyncData, ← ht, hreset, hmachine, hmember, if_neg hlisted, hr, if_pos (And.intro hown (And.intro hsource
    (And.intro hcollects hbehind))), Bool.not_true, or_self, Bool.false_eq_true, if_false]

section Replay

variable {k : Nat} {c : GroupCore} (hcore : r.core = some (k, c)) (hopen : t.group.refDone = true) (hleft : r.left ≠ 0)
include hcore hopen hleft

/-- RESYNC_REPLAY restarts the resync where the log lacks a round (R299). -/
theorem exec_resyncReplay_lacks
    (hreplay : replay t.group.tables (t.fld 0x60004 24 4) t.group.log t.group.round r.left (k, c, none) = none) :
    exec (.resyncReplay dt) s =
      .next (t.setGroup { t.group with resync := some (newResync t.group.pNext t.group.car r.attempt t.group.cur) }) := by
  show execResyncReplay dt s = _
  simp only [execResyncReplay, ← ht, hreset, hr, hcore, hbehind, hopen, hleft, hreplay, or_self, reduceCtorEq, Bool.false_eq_true,
    if_false, if_true]

/-- RESYNC_REPLAY that ends at the round of the live seals has caught up, else it goes on in the next open window (R299). -/
theorem exec_resyncReplay_ran {k' : Nat} {c' : GroupCore} {d : Option Word}
    (hreplay : replay t.group.tables (t.fld 0x60004 24 4) t.group.log t.group.round r.left (k, c, none) = some (k', c', d)) :
    exec (.resyncReplay dt) s =
      if k' = t.group.round then .next (t.setGroup { t.group with
        core := c', digest := d.getD t.group.digest, resync := some { r with caught := true, core := none, left := 0 } })
      else .next (t.setGroup { t.group with resync := some { r with core := some (k', c'), left := 0 } }) := by
  show execResyncReplay dt s = _
  simp only [execResyncReplay, ← ht, hreset, hr, hcore, hbehind, hopen, hleft, hreplay, or_self, reduceCtorEq, Bool.false_eq_true,
    if_false]

end Replay

end Resync

end GroupEvents

/-- Settles O18: one lemma for each event and outcome. -/
theorem groupEventsComplete : Obligations.GroupEventsComplete := by
  refine ⟨fun dt s t ht hreset => ⟨fun f buf hbus => ⟨?claim, ?slot⟩, fun f buf => ?seen⟩, ?callFrame, ?txDrop, ?listen, ?claims,
    ?busLost, ?request, ?data, ?replay⟩
  case claim => exact exec_carNumberTwin_claim ht hreset hbus
  case slot => exact exec_carNumberTwin_slot ht hreset hbus
  case seen => exact exec_carNumberTwin_seen ht hreset
  case callFrame =>
    intro dt bus cancel panel sender data s t ht hmachine hmember hbus hpanel
    rw [exec_callFrame, ← ht, requestFrame_joined hmachine hmember hbus (Fin.val_ne_zero_iff.2 hpanel)]
  case txDrop => exact fun _ _ _ => exec_callFrameTxDrop_gap
  case listen =>
    exact fun _ _ _ _ ht hreset hlistens hj hquiet hbell => exec_joinListenTimeout_due ht hreset hlistens hj hquiet hbell
  case claims =>
    exact fun _ _ _ _ ht hreset hlistens hj hheard hopen hgap =>
      ⟨exec_joinClaim_used ht hreset hlistens hj hheard hopen hgap, exec_joinClaim_free ht hreset hlistens hj hheard hopen hgap⟩
  case busLost => exact fun _ _ _ _ _ ht hreset => exec_groupBusLost_joined ht hreset
  case request => exact fun _ _ _ _ ht hreset => exec_resyncRequest_source ht hreset
  case data =>
    exact fun _ _ _ _ _ _ _ ht hreset hmachine hmember hlen hsender hcar hr hown hsource hcollects hbehind =>
      exec_resyncData_source ht hreset hr hbehind hmachine hmember hlen hsender hcar hown hsource hcollects
  case replay =>
    intro dt s t r k c ht hreset hr hcore hbehind hopen hleft
    split
    next hreplay => exact exec_resyncReplay_lacks ht hreset hr hbehind hcore hopen hleft hreplay
    next hreplay => exact exec_resyncReplay_ran ht hreset hr hbehind hcore hopen hleft hreplay

end Sys2Proof.Machine

/-! ### The interlock letters (R328, R332, R338, R339) -/

namespace Sys2Proof.Machine

/-- LOCK_LOAD of a readable image of its CRC without an offending byte holds it as the pending image (R338). -/
theorem lockLoad_run_clean {q : Letter} {t v : State} {a crc : Nat} {b : List Byte} (ha : u32 q.payload 0 = a)
    (hcrc : u32 q.payload 8 = crc) (hopen : t.imageLocked = false) (hclean : (t.eccRead a imageLen).1 = none)
    (hv : (t.eccRead a imageLen).2 = v) (hb : v.cellsFrom a imageLen = b) (hmatch : (crc32c b).toNat = crc)
    (hgood : imageOffending v.sys.role b = none) :
    lockLoadHandler.run q t = (.done 0 [], v.setLock { v.lock with pend := some b }) := by
  simp only [lockLoadHandler, handler, hopen, ha, hclean, hv, hb, hcrc, if_neg (not_not_intro hmatch), hgood, doneWith,
    Bool.false_eq_true, if_false]

/-- LOCK_COMMIT of a parked station with the CRC of the pending image is QUEUED for the next evaluation (R339). -/
theorem lockCommit_run_parked {q : Letter} {t : State} {b : List Byte} (hopen : t.imageLocked = false) (hparked : t.parked = true)
    (hpend : t.lock.pend = some b) (hmatch : (crc32c b).toNat = u32 q.payload 0) :
    lockCommitHandler.run q t = (.queued .lockCommit, t.setLock { t.lock with commit := some b }) := by
  simp only [lockCommitHandler, handler, hopen, hparked, hpend, if_neg (not_not_intro hmatch), Bool.not_true, Bool.false_eq_true,
    if_false]

section Test

variable {q : Letter} {t : State} {i : List Byte} (hopen : t.testLocked = false) (himage : t.image = some i)
include hopen himage

/-- LOCK_TEST 1 under an image with a trigger term is QUEUED for the outcome of a bridging test (R328). -/
theorem lockTest_run_bridge (htest : u32 q.payload 0 = 1) (htrigger : (bridgeTrigger i).isSome = true) :
    lockTestHandler.run q t = (.queued .lockTest1, t) := by
  have hset : (bridgeTrigger i).isNone = false := Option.isNone_eq_false_iff.2 htrigger
  simp only [lockTestHandler, handler, hopen, himage, if_pos htest, hset, Bool.false_eq_true, if_false]

/-- LOCK_TEST 2 of a parked station with both feedback inputs and both outputs asserted is QUEUED at its first step (R332). -/
theorem lockTest_run_sto (htest : u32 q.payload 0 = 2) (hfeedA : u8 i 0x9D7 ≠ 255) (hfeedB : u8 i 0x9D8 ≠ 255)
    (hparked : t.parked = true) (hstoA : t.lock.stoA = true) (hstoB : t.lock.stoB = true) :
    lockTestHandler.run q t = (.queued .lockTest2, t.setLock { t.lock with stoTest := some (1, t.now) }) := by
  have hsecond : ¬ u32 q.payload 0 = 1 := by omega
  simp only [lockTestHandler, handler, hopen, himage, if_neg hsecond, hfeedA, hfeedB, hparked, hstoA, hstoB, and_self, or_self,
    not_true_eq_false, Bool.false_eq_true, if_false]

end Test

/-- Settles O21: what each handler runs. -/
theorem lockLettersComplete : Obligations.LockLettersComplete := by
  refine ⟨fun a crc => ?load, fun b => ?commit, fun i => ⟨?bridge, ?sto⟩⟩
  case load =>
    exact .of_run (fun _ _ => rfl) (fun _ _ ⟨ha, hcrc, hopen, hclean, hmatch, hgood⟩ =>
      lockLoad_run_clean ha hcrc hopen hclean rfl rfl hmatch hgood) fun _ _ _ => rfl
  case commit =>
    exact .of_run (fun _ _ => rfl) (fun _ _ ⟨hopen, hparked, hpend, hmatch⟩ => lockCommit_run_parked hopen hparked hpend hmatch)
      fun _ _ _ => rfl
  case bridge =>
    exact .of_run (fun _ _ => rfl) (fun _ _ ⟨htest, hopen, himage, htrigger⟩ => lockTest_run_bridge hopen himage htest htrigger)
      fun _ _ _ => rfl
  case sto =>
    exact .of_run (fun _ _ => rfl) (fun _ _ ⟨htest, hopen, himage, hfeedA, hfeedB, hparked, hstoA, hstoB⟩ =>
      lockTest_run_sto hopen himage htest hfeedA hfeedB hparked hstoA hstoB) fun _ _ _ => rfl

end Sys2Proof.Machine

/-! ### The events of the interlocks (R314, R318, R319, R321, R325, R327, R332, R333, R339; logs 67, 68) -/

namespace Sys2Proof.Machine

/-- Both feedbacks are what step `n` of the safe torque off test asks: the path driven in that step reads not safe, every other safe
(R332). -/
def State.stoStepGood (t : State) (i : List Byte) (n : Nat) : Bool :=
  decide (t.stoSafe i 0x9D7 = some (decide (n ≠ 1))) && decide (t.stoSafe i 0x9D8 = some (decide (n ≠ 3)))

section LockEvents

variable {dt : Nat} {s t : State} (ht : t = s.advance dt) (hreset : t.inReset = false)
include ht hreset

/-- INTERLOCK_EVALUATION at an instant of the evaluators is one evaluation (R311, R319). -/
theorem exec_interlockEvaluation_due {x : EvalIn} (hruns : t.evaluates = true) :
    exec (.interlockEvaluation dt x) s = .next (t.evaluate x) := by
  show execInterlockEvaluation dt x s = _
  simp only [execInterlockEvaluation, ← ht, hreset, hruns, Bool.false_eq_true, if_false, if_true]

/-- LOCK_DISAGREE after two disagreeing evaluations latches the cause; it posts what disagrees, if anything still does (R318). -/
theorem exec_lockDisagree_due (hruns : 2 ≤ t.lock.disRun) (hnew : t.lock.disagree = false) :
    exec (.lockDisagree dt) s = .next ((match t.lock.disDetail with
      | some d => t.post 0x0705 d
      | none => t).setLock { t.lock with disagree := true }).reMatrix := by
  show execLockDisagree dt s = _
  simp only [execLockDisagree, ← ht, hreset, if_pos (And.intro hruns hnew), Bool.false_eq_true, if_false]
  cases t.lock.disDetail <;> rfl

/-- STO_TEST_DUE once DUE hours have passed since the latest passed test (R333). -/
theorem exec_stoTestDue_due {i : List Byte} {p : Postmark} (himage : t.image = some i) (hpass : t.lock.stoPass = some p)
    (hasked : u16 i 0x9DC ≠ 0) (hdue : p + u16 i 0x9DC * hourCounts ≤ t.now) (hnew : t.lock.duePosted = false) :
    exec (.stoTestDue dt) s = .next ((t.setLock { t.lock with duePosted := true }).post 0x070D 0) := by
  show execStoTestDue dt s = _
  simp only [execStoTestDue, ← ht, hreset, himage, hpass, if_pos (And.intro hasked (And.intro hdue hnew)), Bool.false_eq_true,
    if_false]

section Commit

variable {b : List Byte} (hcommit : t.lock.commit = some b) (hruns : t.evaluates = true)
include hcommit hruns

/-- LOCK_COMMITTED with a copy whose CRC differs drops the commit, FAILED 0x72 (R339). -/
theorem exec_lockCommitted_bad : exec (.lockCommitted dt true) s =
    .next ((t.setLock { t.lock with commit := none }).complete .lockCommit .failed 0x72 0) := by
  show execLockCommitted dt true s = _
  simp only [execLockCommitted, ← ht, hreset, hcommit, hruns, Bool.not_true, Bool.false_eq_true, if_false, if_true]

/-- LOCK_COMMITTED of a station no longer parked drops the commit, FAILED 0x74 (R339). -/
theorem exec_lockCommitted_moved (hmoved : t.parked = false) : exec (.lockCommitted dt false) s =
    .next ((t.setLock { t.lock with commit := none }).complete .lockCommit .failed 0x74 0) := by
  show execLockCommitted dt false s = _
  simp only [execLockCommitted, ← ht, hreset, hcommit, hruns, hmoved, Bool.not_true, Bool.not_false, Bool.false_eq_true, if_false,
    if_true]

/-- LOCK_COMMITTED of a parked station switches the image, posts its CRC and ends DONE (R339, R342). -/
theorem exec_lockCommitted_parked (hparked : t.parked = true) : exec (.lockCommitted dt false) s =
    .next (((t.switchImage b).post 0x0709 (t.switchImage b).lock.crc.toNat).complete .lockCommit .done 0 0) := by
  show execLockCommitted dt false s = _
  simp only [execLockCommitted, ← ht, hreset, hcommit, hruns, hparked, Bool.not_true, Bool.false_eq_true, if_false]

end Commit

section Image

variable {i : List Byte} (himage : t.image = some i)
include himage

/-- BRIDGE_FAIL after BRIDGE_TIME with the trigger term still true fails the test (R327). -/
theorem exec_bridgeFail_due {r : BridgeRun} (hrun : t.lock.bridgeRun = some r) (htrigger : t.trigNow i = true)
    (hdue : r.start + u16 i 0xA44 * 80000 ≤ t.now) : exec (.bridgeFail dt) s = .next t.bridgeFail.reMatrix := by
  show execBridgeFail dt s = _
  simp only [execBridgeFail, ← ht, hreset, himage, hrun, htrigger, hdue, decide_true, Bool.and_self, Bool.false_eq_true, if_false,
    if_true]

/-- LOCK_DISCREPANCY of an element whose inputs have differed for longer than TIME latches its output false (R314, log 67). -/
theorem exec_lockDiscrepancy_due {k : Fin 16} (hkind : u8 i (0x950 + 8 * k.val) = 3) (hnew : t.lock.delay[k].latched = false)
    (hdue : delayTime i k.val + 1 ≤ t.lock.delay[k].cnt) :
    exec (.lockDiscrepancy dt k) s = .next (((t.setLock ({ t.lock with
      delay := t.lock.delay.set k ⟨false, t.lock.delay[k].cnt, true⟩ }.putVal (72 + k.val) false)).post 0x070A k.val).reMatrix) := by
  show execLockDiscrepancy dt k s = _
  simp only [execLockDiscrepancy, ← ht, hreset, himage, hkind, hnew, hdue, decide_true, Bool.not_false, Bool.and_self,
    Bool.false_eq_true, if_false, if_true]

/-- DELAY_ELEMENT_EXPIRY of an on-delay whose input has been true for longer than TIME sets its output (R314, log 67). -/
theorem exec_delayElementExpiry_on {k : Fin 16} (hkind : u8 i (0x950 + 8 * k.val) = 1) (hoff : t.lock.delay[k].out = false)
    (hdue : delayTime i k.val + 1 ≤ t.lock.delay[k].cnt) :
    exec (.delayElementExpiry dt k) s = .next (t.setLock ({ t.lock with
      delay := t.lock.delay.set k { t.lock.delay[k] with out := true } }.putVal (72 + k.val) true)).reMatrix := by
  show execDelayElementExpiry dt k s = _
  simp only [execDelayElementExpiry, ← ht, hreset, himage, hkind, hoff, hdue, decide_true, Bool.not_false, Bool.and_self,
    Bool.true_or, Bool.false_eq_true, if_false, if_true]

/-- DELAY_ELEMENT_EXPIRY of an off-delay whose input has been false for TIME clears its output (R314, log 67). -/
theorem exec_delayElementExpiry_off {k : Fin 16} (hkind : u8 i (0x950 + 8 * k.val) = 2) (hon : t.lock.delay[k].out = true)
    (hdue : delayTime i k.val ≤ t.lock.delay[k].cnt) :
    exec (.delayElementExpiry dt k) s = .next (t.setLock ({ t.lock with
      delay := t.lock.delay.set k { t.lock.delay[k] with out := false } }.putVal (72 + k.val) false)).reMatrix := by
  show execDelayElementExpiry dt k s = _
  simp only [execDelayElementExpiry, ← ht, hreset, himage, hkind, hon, hdue, decide_true, Bool.and_self, Bool.or_true,
    Nat.reduceEqDiff, decide_false, Bool.false_eq_true, if_false, if_true]

/-- SAFETY_CHAIN_OPEN of an alarm tap low for FILT samples opens it, wakes and looks for a bypass (R325, R326). -/
theorem exec_safetyChainOpen_due {k : Fin 12} (hon : tapOn i k.val = true) (halarm : bitAt (u16 i 0xA12) k.val = true)
    (hlevel : t.lock.tap[k].level = true) (hraw : t.lock.tap[k].raw = false) (hdue : u8 i 0xA16 ≤ t.lock.tap[k].cnt) :
    exec (.safetyChainOpen dt k) s = .next ((((t.noteWake 9).setLock ({ t.lock with
      tap := t.lock.tap.set k { t.lock.tap[k] with level := false } }.putVal (48 + k.val) false)).post 0x0701 k.val).bypassStep
        i).reMatrix := by
  show execSafetyChainOpen dt k s = _
  simp only [execSafetyChainOpen, ← ht, hreset, himage, hon, halarm, hlevel, hraw, hdue, decide_true, Bool.not_false,
    Bool.and_self, Bool.false_eq_true, if_false, if_true]

/-- LOCK_IMAGE_CHECK withdraws the image for each evaluator whose copy is bad, the lower first (R321). -/
theorem exec_lockImageCheck {bad1 bad2 : Bool} : exec (.lockImageCheck dt bad1 bad2) s = .next (
    let u := if bad1 then t.imageFails 1 else t
    let v := if bad2 then u.imageFails 2 else u
    if bad1 || bad2 then v.reMatrix else v) := by
  show execLockImageCheck dt bad1 bad2 s = _
  simp only [execLockImageCheck, ← ht, hreset, himage, Option.isNone_some, Bool.false_eq_true, if_false]

section StoStep

variable {n a : Nat} (hstep : t.lock.stoTest = some (n, a)) (hdue : a + u8 i 0x9DA * 80000 ≤ t.now)
include hstep hdue

/-- STO_TEST_STEP with a wrong feedback ends the test FAILED 0x79 at its step (R332). -/
theorem exec_stoTestStep_bad (hbad : t.stoStepGood i n = false) : exec (.stoTestStep dt) s =
    .next (((t.setLock { t.lock with stoResult := 2, stoStep := n }).post 0x0707 n).stoTestEnd .failed 0x79 n).gateStep := by
  rw [State.stoStepGood] at hbad
  show execStoTestStep dt s = _
  simp only [execStoTestStep, ← ht, hreset, himage, hstep, Nat.not_lt.2 hdue, hbad, Bool.not_false, Bool.false_eq_true, if_false,
    if_true]

/-- STO_TEST_STEP before the fourth step goes on to the next (R332). -/
theorem exec_stoTestStep_next (hgood : t.stoStepGood i n = true) (hearly : n < 4) : exec (.stoTestStep dt) s =
    .next (t.setLock { t.lock with stoTest := some (n + 1, t.now) }).gateStep := by
  rw [State.stoStepGood] at hgood
  show execStoTestStep dt s = _
  simp only [execStoTestStep, ← ht, hreset, himage, hstep, Nat.not_lt.2 hdue, hgood, hearly, Bool.not_true, Bool.false_eq_true,
    if_false, if_true]

/-- STO_TEST_STEP at the fourth step ends the test DONE, a pass from now on (R332, R333). -/
theorem exec_stoTestStep_last (hgood : t.stoStepGood i n = true) (hlast : 4 ≤ n) : exec (.stoTestStep dt) s =
    .next ((t.setLock { t.lock with
      stoResult := 1, stoStep := 0, stoPass := some t.now, duePosted := false }).stoTestEnd .done 0 0).gateStep := by
  rw [State.stoStepGood] at hgood
  show execStoTestStep dt s = _
  simp only [execStoTestStep, ← ht, hreset, himage, hstep, Nat.not_lt.2 hdue, hgood, Nat.not_lt.2 hlast, Bool.not_true,
    Bool.false_eq_true, if_false]

end StoStep

end Image

end LockEvents

/-- Settles O22: one lemma for each event and outcome. -/
theorem lockEventsComplete : Obligations.LockEventsComplete := by
  refine ⟨?evaluation, ?bridge, fun dt k s t i ht hreset himage => ⟨?discrepancy, ?delayOn, ?delayOff⟩, ?disagree, ?chain,
    ?imageCheck, ?commit, ?stoStep, ?stoDue⟩
  case evaluation => exact fun _ _ _ _ ht hreset => exec_interlockEvaluation_due ht hreset
  case bridge => exact fun _ _ _ _ _ ht hreset himage => exec_bridgeFail_due ht hreset himage
  case discrepancy => exact exec_lockDiscrepancy_due ht hreset himage
  case delayOn => exact exec_delayElementExpiry_on ht hreset himage
  case delayOff => exact exec_delayElementExpiry_off ht hreset himage
  case disagree =>
    intro dt s t ht hreset hruns hnew
    have hlatch := exec_lockDisagree_due ht hreset hruns hnew
    exact ⟨fun d hdetail => by rw [hlatch, hdetail], fun hdetail => by rw [hlatch, hdetail]⟩
  case chain => exact fun _ _ _ _ _ ht hreset himage => exec_safetyChainOpen_due ht hreset himage
  case imageCheck =>
    intro dt s t i ht hreset himage
    simp only [exec_lockImageCheck ht hreset himage, Bool.or_self, Bool.or_true, Bool.or_false, Bool.false_eq_true, if_true,
      if_false, and_self]
  case commit =>
    exact fun _ _ _ _ ht hreset hcommit hruns => ⟨exec_lockCommitted_bad ht hreset hcommit hruns,
      exec_lockCommitted_moved ht hreset hcommit hruns, exec_lockCommitted_parked ht hreset hcommit hruns⟩
  case stoStep =>
    intro dt s t i n a good ht hreset himage hstep hdue hgood
    subst hgood
    exact ⟨exec_stoTestStep_bad ht hreset himage hstep hdue, exec_stoTestStep_next ht hreset himage hstep hdue,
      exec_stoTestStep_last ht hreset himage hstep hdue⟩
  case stoDue => exact fun _ _ _ _ _ ht hreset himage => exec_stoTestDue_due ht hreset himage

end Sys2Proof.Machine

/-! ### The lane letters (R375, R376) -/

namespace Sys2Proof.Machine

/-- WATCH_CHANGE of a parked station whose standby lane can take over is QUEUED for the end of the tick (R376). -/
theorem watchChange_run_free {q : Letter} {t : State} (hparked : t.parked = true) (hfree : t.watchFree = true) :
    watchChangeHandler.run q t = (.queued .watchChange, t.setLane { t.lane with watchGo := true }) := by
  simp only [watchChangeHandler, handler, hparked, hfree, Bool.not_true, Bool.false_eq_true, if_false]

/-- WATCH_SET writes MINUTE and EN of LANE_WATCH (R375). -/
theorem watchSet_run (q : Letter) (t : State) : watchSetHandler.run q t =
    (.done 0 [], (t.setFld 0x80020 0 11 (u16 q.payload 0)).setFld 0x80020 16 1 (u16 q.payload 2)) := rfl

/-- Settles O23: what each handler runs. -/
theorem laneLettersComplete : Obligations.LaneLettersComplete :=
  ⟨.of_run (fun _ _ => rfl) (fun _ _ ⟨hparked, hfree⟩ => watchChange_run_free hparked hfree) fun _ _ _ => rfl,
    .of_run (fun _ _ => rfl) (fun q t _ => watchSet_run q t) fun _ _ _ => rfl⟩

end Sys2Proof.Machine

/-! ### The lane events (R349, R350, R352, R353, R356, R363-R368, R370, R372, R376, R377; logs 65, 66, 71) -/

namespace Sys2Proof.Machine

/-- A fault report of the active lane while the other is ready begins the hand-over to it, in the state after the fault has been
counted and the service gap has begun; a watch change due or decided is dropped (R352, R372, log 66). -/
theorem laneFails_ready {b : Bool} {u q : State} (hq : q = (u.sealCut.countFault b).gapBegins)
    (hready : q.lane.cond (!b) = .ready) : u.laneFails b = (q.setLane { (q.lane.putCond b .held).putCond (!b) .active with
      stile := handTo (!b), hand := some ⟨q.now, q.sys.tickNo, false, false⟩ }).watchDrop := by
  simp only [State.laneFails, ← hq, hready, if_true]

/-- The role granted by a takeover: it is counted, and the lane that faulted is reset or marked unfit (R367, R372). -/
def State.takeoverGrant (b : Bool) (reason : Nat) (h : Handover) (len : Nat) (t : State) : State :=
  let q := t.grantRole b false reason h len
  (q.setLane { q.lane with cntTakeover := satAdd 0xFF q.lane.cntTakeover 1 }).afterFault (!b)

section LaneEvents

variable {dt : Nat} {s t : State} (ht : t = s.advance dt) (hreset : t.inReset = false)
include ht hreset

section Holder

variable {b : Bool} (hholder : t.lane.holder = some b)
include hholder

/-- PARCEL_SEAL in the seal interval writes the slot that the latest seal is not in (R356, R357). -/
theorem exec_parcelSeal_due {units : Fin 512} {n : Bool} {p : Parcel} (hserves : t.serving = true) (hopen : t.lane.sealed = false)
    (hdue : t.sealFrom ≤ t.now) (hslot : t.lane.sealSlot = n)
    (hp : p = ⟨b, units.val * 256, t.sys.tickNo, t.now, t.lane.jnext, t.fwVersion, t.sys.gen, t.sys.role.toNat⟩) :
    exec (.parcelSeal dt units) s = .next ((t.eccClear (slotBaseAddr n) 0x20000).setLane
      { (if n then { t.lane with slot1 := some p, torn1 := none } else { t.lane with slot0 := some p, torn0 := none }) with
        lastSlot := some n, sealed := true, sealEpoch := t.sys.tickNo }) := by
  subst hp
  show execParcelSeal dt units s = _
  cases n <;> simp only [execParcelSeal, ← ht, hreset, hholder, hserves, hopen, hdue, hslot, Bool.not_false, decide_true,
    Bool.and_self, Bool.false_eq_true, if_false, if_true, State.eccClear]

/-- LANE_FAULT of the active lane posts 0x0801 and reports the fault (R38, R349). -/
theorem exec_laneFault_active {word : Option Nat} (hawake : t.pwr.mode ≠ .sleep) :
    exec (.laneFault dt ⟨b, word⟩) s = .next (((t.laneWord word).post 0x0801 (b2n b)).laneFails b) := by
  show execLaneFault dt ⟨b, word⟩ s = _
  simp only [execLaneFault, ← ht, hreset, hholder, if_neg hawake, Bool.false_eq_true, if_false, if_true]

/-- WDOG_EXPIRED at the WDT-th tick instant without a service posts 0x0802 and reports a fault (R350). -/
theorem exec_wdogExpired_due (hserves : t.serving = true) (htick : t.now = t.sys.tickAt)
    (hcount : t.fld 0x80030 0 4 ≤ t.lane.wdog) :
    exec (.wdogExpired dt) s = .next ((t.post 0x0802 (b2n b)).laneFails b) := by
  show execWdogExpired dt s = _
  simp only [execWdogExpired, ← ht, hreset, hholder, if_pos (And.intro hserves (And.intro htick hcount)), Bool.false_eq_true,
    if_false]

/-- PARCEL_STALE after three tick instants without a heartbeat marks the parcel stale and posts 0x0804 and 0x0805 (R363). -/
theorem exec_parcelStale_due (hmissed : 3 ≤ t.lane.hbMissed) (hnew : t.lane.stale = false) (htick : t.now = t.sys.tickAt) :
    exec (.parcelStale dt) s = .next (((t.setLane { t.lane with
      stale := true, cntLinkFault := satAdd 0xFF t.lane.cntLinkFault 1 }).post 0x0804 (b2n (!b))).post 0x0805 t.lane.viewEpoch) := by
  show execParcelStale dt s = _
  simp only [execParcelStale, ← ht, hreset, hholder, if_pos (And.intro htick (And.intro hmissed hnew)), Bool.false_eq_true,
    if_false]

/-- WATCH_CHANGE_START at the tick instant after the seal begins the planned hand-over, where a letter decided it and the other
lane is ready, or it is due and R376 permits it (R376, R377, log 66). -/
theorem exec_watchChangeStart_due (hserves : t.serving = true) (htick : t.now = t.sys.tickAt)
    (hsealed : t.lane.sealEpoch + 1 = t.sys.tickNo)
    (hgo : (t.lane.watchGo = true ∧ t.lane.cond (!b) = .ready) ∨
      (t.lane.watchGo = false ∧ t.lane.watchDue.isSome = true ∧ t.parked = true ∧ t.watchFree = true)) :
    exec (.watchChangeStart dt) s = .next (t.setLane { (t.lane.putCond b .held).putCond (!b) .active with
      stile := handTo (!b), watchGo := false, watchDue := none, hand := some ⟨t.now, t.sys.tickNo, true, false⟩ }).gapBegins := by
  have hinstant : t.serving = true ∧ t.now = t.sys.tickAt ∧ t.lane.sealEpoch + 1 = t.sys.tickNo := ⟨hserves, htick, hsealed⟩
  have hready : ¬ (t.lane.watchGo = true ∧ t.lane.cond (!b) ≠ .ready) := fun ⟨hasked, hunready⟩ => hgo.elim
    (fun ⟨_, h⟩ => hunready h) fun ⟨h, _⟩ => Bool.false_ne_true (h.symm.trans hasked)
  have hstarts : t.lane.watchGo = true ∨ (t.lane.watchDue.isSome = true ∧ t.parked = true ∧ t.watchFree = true) :=
    hgo.imp And.left And.right
  show execWatchChangeStart dt s = _
  simp only [execWatchChangeStart, ← ht, hreset, hholder, if_neg (not_not_intro hinstant), if_neg hready, if_pos hstarts,
    Bool.false_eq_true, if_false]

end Holder

section Takeover

variable {bad0 bad1 bad : Bool} {errs : List Nat} {b : Bool} {h : Handover} {u : State} (hhand : t.lane.hand = some h)
  (hfault : h.planned = false) (hreceiver : t.lane.receiver = some b) (hlane : h.fromNone = false)
  (hheld : t.lane.cond (!b) = .held)
include hhand hfault hreceiver hlane hheld

/-- TAKEOVER at its instant with a slot to resume from grants the role and posts 0x0803 with the epoch (R364-R367). -/
theorem exec_takeover_resumes {n : Bool} {p : Parcel} (hdecision : t.takeDecision h bad0 bad1 bad errs = (.ok (n, p), u))
    (hdue : h.pm + handTime p.bodyLen (t.lane.jnext - p.jpos) / 5 = t.now) :
    exec (.takeover dt bad0 bad1 ⟨bad, errs⟩) s = .next (
      let v := u.takeoverGrant b 0 h (handTime p.bodyLen (t.lane.jnext - p.jpos))
      ((v.setLane { v.lane with lastSlot := some n }).post 0x0803 (b2n b + 256 * (p.epoch % 2 ^ 24))).flushDeferred) := by
  show execTakeover dt bad0 bad1 ⟨bad, errs⟩ s = _
  simp only [execTakeover, ← ht, hreset, hhand, hreceiver, hdecision, handLen, hfault, hlane, hdue, hheld, Nat.lt_irrefl,
    and_false, or_self, State.takeoverGrant, Bool.false_eq_true, if_false, if_true]

/-- TAKEOVER at its instant without one grants the role, posts 0x0803 and stops safely (R364, R365, R368). -/
theorem exec_takeover_stops {r : Nat} (hdecision : t.takeDecision h bad0 bad1 bad errs = (.error r, u))
    (hdue : h.pm + handTime 0 0 / 5 = t.now) :
    exec (.takeover dt bad0 bad1 ⟨bad, errs⟩) s =
      .next (((u.takeoverGrant b r h (handTime 0 0)).post 0x0803 (b2n b)).takeoverStop r) := by
  show execTakeover dt bad0 bad1 ⟨bad, errs⟩ s = _
  simp only [execTakeover, ← ht, hreset, hhand, hreceiver, hdecision, handLen, hfault, hlane, hdue, hheld, Nat.lt_irrefl,
    and_false, or_self, State.takeoverGrant, Bool.false_eq_true, if_false, if_true]

end Takeover

section StandbyReady

variable {b : Bool} {f : Fin 4} (hresetting : t.lane.cond b = .resetting)
include hresetting

/-- STANDBY_READY of a lane reset that failed a step marks the lane unfit with 0x080C (R370). -/
theorem exec_standbyReady_failed (hfailed : f.val ≠ 0) : exec (.standbyReady dt b f) s =
    .next ((t.setLane (t.lane.putCond b .unfit)).post 0x080C (b2n b + 256 * (f.val + 1))) := by
  show execStandbyReady dt b f s = _
  simp only [execStandbyReady, ← ht, hreset, if_neg (not_not_intro hresetting), if_pos hfailed, Bool.false_eq_true, if_false]

/-- STANDBY_READY of a lane whose keeper accepted a heartbeat makes it ready with 0x080B, its fault count at 0 (R370, R372,
log 65). -/
theorem exec_standbyReady_passed (hpassed : f.val = 0) (hheard : 0 < t.lane.hbOk) : exec (.standbyReady dt b f) s =
    .next ((t.setLane ((t.lane.putCond b .ready).clearCount b t.now)).post 0x080B (b2n b)) := by
  show execStandbyReady dt b f s = _
  simp only [execStandbyReady, ← ht, hreset, if_neg (not_not_intro hresetting), if_neg (not_not_intro hpassed),
    if_pos (Or.inr hheard), Bool.false_eq_true, if_false]

end StandbyReady

/-- STILE_FAULT cuts a seal in progress short, holds both lanes, posts 0x080E and begins a service gap (R353, R356, R367). -/
theorem exec_stileFault_new (hnew : t.lane.stile ≠ .fault) : exec (.stileFault dt) s =
    .next (((t.sealCut.setLane { t.sealCut.lane with
      stile := .fault, laneA := .held, laneB := .held, hand := none }).post 0x080E 0).gapBegins.doorSwitch) := by
  show execStileFault dt s = _
  simp only [execStileFault, ← ht, hreset, if_neg hnew, Bool.false_eq_true, if_false]

/-- WATCH_DUE in the instant at which the scheduled minute begins notes the change (R376). -/
theorem exec_watchDue_minute (hrun : t.pwr.phase = .run) (henabled : t.fld 0x80020 16 1 = 1) (hbegins : t.minuteAge < t.instantLen) :
    exec (.watchDue dt) s = .next (t.setLane { t.lane with watchDue := some t.now }) := by
  show execWatchDue dt s = _
  simp only [execWatchDue, ← ht, hreset, if_pos (And.intro hrun (And.intro henabled hbegins)), Bool.false_eq_true, if_false]

/-- WATCH_CHANGED at the end of a planned hand-over grants the role, resets the other lane, posts 0x0807 and ends the letter
DONE (R365, R377). -/
theorem exec_watchChanged_due {h : Handover} {b : Bool} {len : Nat} {q : State} (hhand : t.lane.hand = some h)
    (hreceiver : t.lane.receiver = some b) (hplanned : h.planned = true)
    (hlen : len = handTime (match t.lane.slot (t.lane.lastSlot.getD false) with | some p => p.bodyLen | none => 0) 0)
    (hdue : h.pm + len / 5 = t.now) (hq : q = t.grantRole b true 0 h len) :
    exec (.watchChanged dt) s = .next (((q.setLane { q.lane.resetLane (!b) with
      cntWatch := satAdd 0xFF (q.lane.resetLane (!b)).cntWatch 1 }).post 0x0807 (b2n b)).complete .watchChange .done 0
        0).flushDeferred := by
  subst hq hlen
  show execWatchChanged dt s = _
  cases hslot : t.lane.slot (t.lane.lastSlot.getD false) <;>
    simp only [hslot] at hdue ⊢ <;>
    simp only [execWatchChanged, ← ht, hreset, hhand, hreceiver, hplanned, hslot, hdue, ne_eq, not_true_eq_false, or_self,
      Bool.true_eq_false, Bool.false_eq_true, if_false]

/-- WATCH_SKIPPED after WINDOW minutes drops the scheduled change and posts 0x080D (R376). -/
theorem exec_watchSkipped_due {p : Postmark} (hdue : t.lane.watchDue = some p)
    (hend : t.now = p + t.fld 0x80020 24 8 * minuteCounts) :
    exec (.watchSkipped dt) s = .next ((t.setLane { t.lane with watchDue := none }).post 0x080D (t.fld 0x80020 24 8)) := by
  show execWatchSkipped dt s = _
  simp only [execWatchSkipped, ← ht, hreset, hdue, if_pos hend, Bool.false_eq_true, if_false]

end LaneEvents

/-- The next seal is written into slot 1 after a seal in slot 0, else into slot 0 (R356). -/
theorem sealSlot_eq_true_iff {l : LaneSt} : l.sealSlot = true ↔ l.lastSlot = some false := by
  rcases h : l.lastSlot with _ | _ | _ <;> simp [LaneSt.sealSlot, h]

/-- Settles O24: one lemma for each event and outcome. -/
theorem laneEventsComplete : Obligations.LaneEventsComplete := by
  refine ⟨?sealing, ?fault, ?watchdog, ?takeover, ?stale, ?standby, ?stile, ?due, ?start, ?changed, ?skipped⟩
  case sealing =>
    intro dt units s t b p ht hreset hholder hserves hopen hdue hp
    exact ⟨fun hlast => exec_parcelSeal_due ht hreset hholder hserves hopen hdue (sealSlot_eq_true_iff.2 hlast) hp,
      fun hlast => exec_parcelSeal_due ht hreset hholder hserves hopen hdue
        (Bool.eq_false_iff.2 (mt sealSlot_eq_true_iff.1 hlast)) hp⟩
  case fault =>
    intro dt b word s t q ht hreset hawake hholder hq hready
    rw [exec_laneFault_active ht hreset hholder hawake, laneFails_ready hq hready]
  case watchdog =>
    intro dt b s t q ht hreset hserves hholder htick hcount hq hready
    rw [exec_wdogExpired_due ht hreset hholder hserves htick hcount, laneFails_ready hq hready]
  case takeover =>
    intro dt bad0 bad1 bad errs s t b h x len q u ht hreset hhand hfault hreceiver hx hlane hlen hdue hq hu hheld
    refine ⟨fun n p hok => ?resumes, fun r herr => ?stops⟩
    case resumes =>
      subst hok hlen hq hu
      exact exec_takeover_resumes ht hreset hhand hfault hreceiver hlane hheld (Prod.ext hx.symm rfl) hdue
    case stops =>
      subst herr hlen hq hu
      exact exec_takeover_stops ht hreset hhand hfault hreceiver hlane hheld (Prod.ext hx.symm rfl) hdue
  case stale => exact fun _ _ _ _ ht hreset hholder => exec_parcelStale_due ht hreset hholder
  case standby =>
    exact fun _ _ _ _ _ ht hreset hresetting => ⟨exec_standbyReady_failed ht hreset hresetting,
      exec_standbyReady_passed ht hreset hresetting⟩
  case stile => exact fun _ _ _ ht hreset => exec_stileFault_new ht hreset
  case due => exact fun _ _ _ ht hreset => exec_watchDue_minute ht hreset
  case start => exact fun _ _ _ _ ht hreset hholder => exec_watchChangeStart_due ht hreset hholder
  case changed => exact fun _ _ _ _ _ _ _ ht hreset => exec_watchChanged_due ht hreset
  case skipped => exact fun _ _ _ _ ht hreset => exec_watchSkipped_due ht hreset

end Sys2Proof.Machine

/-! ### The power letters (R372, R510, R520-R522, R569; logs 11, 24) -/

namespace Sys2Proof.Machine

/-- POWER_MODE that no state check refuses records the entry at the end of the running tick (R510, log 24). -/
theorem powerMode_run_accepted {q : Letter} {t : State} (hfree : t.modeRefused (u32 q.payload 0) = none) :
    powerModeHandler.run q t = (.done 0 [], t.setPwr { t.pwr with
      askedEra := t.ev.era, askedAt := t.now, woken := 0,
      entry := some (pmodeOf (u32 q.payload 0), u32 q.payload 4, (t.now / t.tickLen + 1) * t.tickLen) }) := by
  simp only [powerModeHandler, handler, hfree, doneWith]

section Rescue

variable {q : Letter} {t : State} (hmachine : t.carStation = false) (hmains : t.pwr.mains = false) (hstill : t.moving 0 = false)
include hmachine hmains hstill

/-- RESCUE_START of a car at level ends DONE (R520). -/
theorem rescueStart_run_level (hlevel : t.sense.inLevel = true) : rescueStartHandler.run q t = (.ended .rescue .done 0 0, t) := by
  simp only [rescueStartHandler, handler, hmachine, hmains, hstill, hlevel, Bool.false_eq_true, if_false, if_true]

/-- RESCUE_START off level is QUEUED for the rescue to the landing chosen (R520, R521). -/
theorem rescueStart_run_goes {i : Nat} {y : Int} (hlevel : t.sense.inLevel = false)
    (htarget : t.rescueTarget (u32 q.payload 0) = some (i, y)) :
    rescueStartHandler.run q t = (.queued .rescue, t.rescueGo i y) := by
  simp only [rescueStartHandler, handler, hmachine, hmains, hstill, hlevel, htarget, Bool.false_eq_true, if_false]

end Rescue

/-- MODULE_RESET kind 1 with nothing moving answers DONE and leaves the reset due (R522, R569). -/
theorem moduleReset_run_module {q : Letter} {t : State} (hstill : t.carMoves = false) (hkind : u32 q.payload 0 = 1) :
    moduleResetHandler.run q t = (.done 0 [], t.setPwr { t.pwr with resetDue := true }) := by
  simp only [moduleResetHandler, handler, hstill, hkind, doneWith, Bool.false_eq_true, if_false, if_true]

/-- MODULE_RESET kind 2 with nothing moving starts the lane reset (R372, R569). -/
theorem moduleReset_run_lane {q : Letter} {t : State} (hstill : t.carMoves = false) (hkind : u32 q.payload 0 = 2)
    (hfree : t.laneResetRefused = none) : moduleResetHandler.run q t = (.done 0 [], t.laneReset true) := by
  have hlane : ¬ u32 q.payload 0 = 1 := by omega
  simp only [moduleResetHandler, handler, hstill, if_neg hlane, hfree, doneWith, Bool.false_eq_true, if_false]

/-- A letter kept for CONFIG_SAVE leaves the power block. -/
@[simp] theorem State.keepLetter_pwr (s : State) (opc : Nat) (p : List Byte) : (s.keepLetter opc p).pwr = s.pwr := by
  unfold State.keepLetter
  split <;> rfl

/-- The power block is outside the frame of an answer. -/
theorem AnswerFrame.pwr {t u : State} (h : AnswerFrame t u) : u.pwr = t.pwr := by
  unfold AnswerFrame at h
  rw [h]

/-- A letter answered DONE leaves the power block. -/
@[simp] theorem State.reply_done_pwr (s : State) (opc k : Nat) (q : Letter) (gap : Bool) (f : Word) (tail : List Byte) :
    (s.reply opc k q gap (.done f tail)).pwr = s.pwr :=
  (answerFrame_answer ..).pwr

/-- A lane reset leaves the power block. -/
@[simp] theorem State.laneReset_pwr (s : State) (forget : Bool) : (s.laneReset forget).pwr = s.pwr := by
  unfold State.laneReset
  split <;> rfl

/-- A module reset that is due follows the receipts that the port still holds (R71, log 11). -/
theorem resetIfDue_due {port : Fin 6} {u : State} (hdue : u.pwr.resetDue = true) : u.resetIfDue port =
    ((u.setPwr { u.pwr with resetDue := false }).portSent port).moduleReset 2 .sequence := if_pos hdue

/-- Without a module reset due nothing follows a letter. -/
theorem resetIfDue_notDue {port : Fin 6} {u : State} (hdue : u.pwr.resetDue = false) : u.resetIfDue port = u :=
  if_neg (Bool.eq_false_iff.1 hdue)

/-- Settles O29: what each handler runs, and whether a module reset is due after MODULE_RESET. -/
theorem powerLettersComplete : Obligations.PowerLettersComplete := by
  refine ⟨?powerMode, ?atLevel, fun i y => ?rescue, ?moduleReset, ?laneReset⟩
  case powerMode =>
    exact .of_run (fun _ _ => rfl) (fun _ _ ⟨_, _, _, hfree⟩ => powerMode_run_accepted hfree) fun _ _ _ => rfl
  case atLevel =>
    exact .of_run (fun _ _ => rfl) (fun _ _ ⟨_, hmachine, hmains, hstill, hlevel⟩ =>
      rescueStart_run_level hmachine hmains hstill hlevel) fun _ _ _ => rfl
  case rescue =>
    exact .of_run (fun _ _ => rfl) (fun _ _ ⟨_, hmachine, hmains, hstill, hlevel, htarget⟩ =>
      rescueStart_run_goes hmachine hmains hstill hlevel htarget) fun _ _ _ => rfl
  case moduleReset =>
    intro l s i q gap t u hadmitted hstill hkind hu
    have hserve : s.serve 0x008 moduleResetHandler l = u := by
      rw [serve_of_admitted hadmitted, conclude_of_run (moduleReset_run_module hstill hkind) rfl, hu]
    have hdue : u.pwr.resetDue = true := by simp [hu]
    show Host.Outcome.next ((s.serve 0x008 moduleResetHandler l).resetIfDue l.port) = _
    rw [hserve, resetIfDue_due hdue]
  case laneReset =>
    intro l s i q gap t hadmitted hstill hkind hfree hnone
    show Host.Outcome.next ((s.serve 0x008 moduleResetHandler l).resetIfDue l.port) = _
    rw [serve_of_admitted hadmitted, conclude_of_run (moduleReset_run_lane hstill hkind hfree) rfl, resetIfDue_notDue]
    simpa using hnone

end Sys2Proof.Machine

/-! ### The state at reset (R371, R395, R446, R508, R522, R524) -/

namespace Sys2Proof.Machine

/-- Every byte of memory reads 0 at reset. -/
theorem reset_cell (a : Nat) : State.reset.cell a = 0#8 := by
  rw [State.cell, reset_mem_wf.2, aget, memDefault]

/-- Every mill is stopped at reset (R395). -/
theorem reset_mill_stopped : ∀ m : Fin 4, (State.reset.mill.mill[m]).state = 0 := by
  decide

/-- Settles O59: each block as State.reset gives it. -/
theorem resetValues : Obligations.ResetValues :=
  ⟨rfl, rfl, rfl, rfl, rfl, rfl, reset_cell, rfl, rfl, rfl, reset_mill_stopped, rfl, rfl, rfl, rfl⟩

end Sys2Proof.Machine

/-! ### Mill words as opcodes and fields (R416-R418) -/

namespace Sys2Proof.Machine

/-- The fields of a form, each a lowest bit and a length, highest first, lie apart below bit `top`. -/
def fieldsApart : Nat → List (Nat × Nat) → Bool
  | _, [] => true
  | top, (lo, len) :: f => decide (lo + len ≤ top) && fieldsApart lo f

/-- Values for the fields of a form, none wider than its field. -/
def FieldsFit : List (Nat × Nat) → List (Nat × Nat) → Prop
  | [], [] => True
  | (lo, len) :: f, (i, v) :: l => i = lo ∧ v < 2 ^ len ∧ FieldsFit f l
  | _, _ => False

/-- The bits that values in their places make. -/
def fieldSum : List (Nat × Nat) → Nat
  | [] => 0
  | (lo, v) :: l => v * 2 ^ lo + fieldSum l

/-- The bits that the fields of a form take. -/
def fieldMask (f : List (Nat × Nat)) : Nat := fieldSum (f.map fun x => (x.1, 2 ^ x.2 - 1))

/-- What a word holds in the fields of a form: the lowest bit of each, and its value. -/
def fieldsOf (w : Nat) (f : List (Nat × Nat)) : List (Nat × Nat) := f.map fun x => (x.1, bitsAt w x.1 x.2)

/-- An instruction word is its opcode and its fields (R417). -/
theorem millWord_eq_add (opc : Nat) (l : List (Nat × Nat)) : millWord opc l = opc * 2 ^ 26 + fieldSum l := by
  have fold (w : Nat) : l.foldl (fun w f => w + f.2 * 2 ^ f.1) w = w + fieldSum l := by
    induction l generalizing w with
    | nil => rfl
    | cons x l ih => simp only [List.foldl_cons, ih, fieldSum, Nat.add_assoc]
  exact fold _

/-- A field of a word in arithmetic. -/
theorem bitsAt_eq_div_mod (w lo len : Nat) : bitsAt w lo len = w / 2 ^ lo % 2 ^ len := by
  rw [bitsAt, Nat.shiftRight_eq_div_pow]

/-- A field below bit `k` stands in the bits below `k`. -/
theorem bitsAt_mod_two_pow {w lo len k : Nat} (h : lo + len ≤ k) : bitsAt (w % 2 ^ k) lo len = bitsAt w lo len := by
  obtain ⟨d, rfl⟩ := Nat.exists_eq_add_of_le h
  rw [bitsAt_eq_div_mod, bitsAt_eq_div_mod, Nat.add_assoc, Nat.pow_add, Nat.mod_mul_right_div_self,
    Nat.mod_mod_of_dvd _ (Nat.pow_dvd_pow 2 (Nat.le_add_right len d))]

/-- A number has only bits of a mask if its upper and its lower part have. -/
theorem and_eq_self_iff_div_mod (x m k : Nat) :
    x &&& m = x ↔ x / 2 ^ k &&& m / 2 ^ k = x / 2 ^ k ∧ x % 2 ^ k &&& m % 2 ^ k = x % 2 ^ k := by
  rw [← Nat.and_div_two_pow, ← Nat.and_mod_two_pow]
  refine ⟨fun h => by rw [h]; exact ⟨rfl, rfl⟩, fun ⟨hd, hm⟩ => ?_⟩
  rw [← Nat.div_add_mod (x &&& m) (2 ^ k), hd, hm, Nat.div_add_mod]

/-- The upper and the lower part of a value above low bits. -/
theorem mul_two_pow_add_div_mod {v r k : Nat} (h : r < 2 ^ k) : (v * 2 ^ k + r) / 2 ^ k = v ∧ (v * 2 ^ k + r) % 2 ^ k = r := by
  rw [Nat.mul_comm, Nat.mul_add_div (Nat.two_pow_pos k), Nat.div_eq_of_lt h, Nat.add_zero, Nat.mul_add_mod, Nat.mod_eq_of_lt h]
  exact ⟨rfl, rfl⟩

/-- The fields that lie below bit `top` make a number below it. -/
theorem fieldSum_lt {top : Nat} {f l : List (Nat × Nat)} (ha : fieldsApart top f = true) (hl : FieldsFit f l) :
    fieldSum l < 2 ^ top := by
  induction f, l using FieldsFit.induct generalizing top with
  | case1 => exact Nat.two_pow_pos top
  | case2 lo len f i v l ih =>
    obtain ⟨rfl, hv, hl⟩ := hl
    simp only [fieldsApart, Bool.and_eq_true, decide_eq_true_eq] at ha
    calc v * 2 ^ i + fieldSum l < v * 2 ^ i + 2 ^ i := Nat.add_lt_add_left (ih ha.2 hl) _
      _ = (v + 1) * 2 ^ i := (Nat.succ_mul v _).symm
      _ ≤ 2 ^ len * 2 ^ i := Nat.mul_le_mul_right _ hv
      _ = 2 ^ (i + len) := by rw [Nat.pow_add, Nat.mul_comm]
      _ ≤ 2 ^ top := Nat.pow_le_pow_right (by decide) ha.1
  | case3 => simp_all [FieldsFit]

/-- The widest values fit. -/
theorem fieldsFit_full (f : List (Nat × Nat)) : FieldsFit f (f.map fun x => (x.1, 2 ^ x.2 - 1)) := by
  induction f with
  | nil => trivial
  | cons x f ih => exact ⟨rfl, Nat.sub_lt (Nat.two_pow_pos _) Nat.one_pos, ih⟩

/-- The mask of fields below bit `top` has no bit from there up. -/
theorem fieldMask_lt {top : Nat} {f : List (Nat × Nat)} (ha : fieldsApart top f = true) : fieldMask f < 2 ^ top :=
  fieldSum_lt ha (fieldsFit_full f)

/-- Values in their places have no bits but those of the form. -/
theorem fieldSum_and_mask {top : Nat} {f l : List (Nat × Nat)} (ha : fieldsApart top f = true) (hl : FieldsFit f l) :
    fieldSum l &&& fieldMask f = fieldSum l := by
  induction f, l using FieldsFit.induct generalizing top with
  | case1 => rfl
  | case2 lo len f i v l ih =>
    obtain ⟨rfl, hv, hl⟩ := hl
    simp only [fieldsApart, Bool.and_eq_true, decide_eq_true_eq] at ha
    obtain ⟨hd, hm⟩ := mul_two_pow_add_div_mod (v := v) (fieldSum_lt ha.2 hl)
    obtain ⟨hd', hm'⟩ := mul_two_pow_add_div_mod (v := 2 ^ len - 1) (fieldMask_lt ha.2)
    refine (and_eq_self_iff_div_mod (v * 2 ^ i + fieldSum l) ((2 ^ len - 1) * 2 ^ i + fieldMask f) i).2 ?_
    rw [hd, hm, hd', hm', Nat.and_two_pow_sub_one_of_lt_two_pow hv]
    exact ⟨rfl, ih ha.2 hl⟩
  | case3 => simp_all [FieldsFit]

/-- Values in their places read back, whatever stands above them. -/
theorem fieldsOf_fieldSum {top : Nat} {f l : List (Nat × Nat)} (ha : fieldsApart top f = true) (hl : FieldsFit f l) (up : Nat) :
    fieldsOf (up * 2 ^ top + fieldSum l) f = l := by
  induction f, l using FieldsFit.induct generalizing top up with
  | case1 => rfl
  | case2 lo len f i v l ih =>
    obtain ⟨rfl, hv, hl⟩ := hl
    simp only [fieldsApart, Bool.and_eq_true, decide_eq_true_eq] at ha
    obtain ⟨d, rfl⟩ := Nat.exists_eq_add_of_le ha.1
    have he : up * 2 ^ (i + len + d) + fieldSum ((i, v) :: l) = (up * 2 ^ d * 2 ^ len + v) * 2 ^ i + fieldSum l := by
      simp only [fieldSum]; ring
    have hhead : bitsAt ((up * 2 ^ d * 2 ^ len + v) * 2 ^ i + fieldSum l) i len = v := by
      rw [bitsAt_eq_div_mod, (mul_two_pow_add_div_mod (fieldSum_lt ha.2 hl)).1, (mul_two_pow_add_div_mod hv).2]
    rw [he, fieldsOf, List.map_cons, hhead]
    exact congrArg _ (ih ha.2 hl _)
  | case3 => simp_all [FieldsFit]

/-- Fields below bit `k` stand in the bits below `k`. -/
theorem fieldsOf_mod_two_pow {top k w : Nat} {f : List (Nat × Nat)} (ha : fieldsApart top f = true) (hk : top ≤ k) :
    fieldsOf (w % 2 ^ k) f = fieldsOf w f := by
  induction f generalizing top with
  | nil => rfl
  | cons x f ih =>
    obtain ⟨lo, len⟩ := x
    simp only [fieldsApart, Bool.and_eq_true, decide_eq_true_eq] at ha
    rw [fieldsOf, List.map_cons, bitsAt_mod_two_pow (ha.1.trans hk)]
    exact congrArg _ (ih ha.2 (by omega))

/-- A number that has only bits of a form is the sum of its fields. -/
theorem fieldSum_fieldsOf {top x : Nat} {f : List (Nat × Nat)} (ha : fieldsApart top f = true) (hm : x &&& fieldMask f = x) :
    fieldSum (fieldsOf x f) = x := by
  induction f generalizing top x with
  | nil => exact (Nat.and_zero x).symm.trans hm
  | cons y f ih =>
    obtain ⟨lo, len⟩ := y
    simp only [fieldsApart, Bool.and_eq_true, decide_eq_true_eq] at ha
    obtain ⟨hd', hm'⟩ := mul_two_pow_add_div_mod (v := 2 ^ len - 1) (fieldMask_lt ha.2)
    have hparts := (and_eq_self_iff_div_mod x ((2 ^ len - 1) * 2 ^ lo + fieldMask f) lo).1 hm
    rw [hd', hm', Nat.and_two_pow_sub_one_eq_mod, ← bitsAt_eq_div_mod] at hparts
    obtain ⟨hhead, htail⟩ := hparts
    have hrest := ih ha.2 htail
    rw [fieldsOf_mod_two_pow ha.2 (Nat.le_refl lo)] at hrest
    calc bitsAt x lo len * 2 ^ lo + fieldSum (fieldsOf x f) = x / 2 ^ lo * 2 ^ lo + x % 2 ^ lo := by rw [hhead, hrest]
      _ = x := Nat.div_add_mod' x _

/-- A word has an opcode, and these values in the fields of a form and no other bit (R417). -/
structure Spells (opc : Nat) (f l : List (Nat × Nat)) (w : Nat) : Prop where
  opcode : millOpcode w = opc
  rest : rest0 w (fieldMask f) = true
  fields : fieldsOf w f = l

/-- The word of an opcode and of values that fit spells them, in 32 bits. -/
theorem spells_millWord {opc : Nat} {f l : List (Nat × Nat)} (ha : fieldsApart 26 f = true) (ho : opc < 64)
    (hl : FieldsFit f l) : millWord opc l < 2 ^ 32 ∧ Spells opc f l (millWord opc l) := by
  obtain ⟨hd, hm⟩ := mul_two_pow_add_div_mod (v := opc) (fieldSum_lt ha hl)
  rw [millWord_eq_add]
  refine ⟨?_, ?_, ?_, fieldsOf_fieldSum ha hl opc⟩
  · have := fieldSum_lt ha hl
    omega
  · rw [millOpcode, hd, Nat.mod_eq_of_lt ho]
  · rw [rest0, hm, fieldSum_and_mask ha hl, decide_eq_true rfl]

/-- A word of 32 bits is the word of what it spells. -/
theorem Spells.eq_millWord {opc w : Nat} {f l : List (Nat × Nat)} (h : Spells opc f l w) (ha : fieldsApart 26 f = true)
    (hw : w < 2 ^ 32) : millWord opc l = w := by
  obtain ⟨ho, hr, rfl⟩ := h
  have hopc : w / 2 ^ 26 = opc := by rw [← ho, millOpcode, Nat.mod_eq_of_lt (by omega)]
  rw [millWord_eq_add, ← fieldsOf_mod_two_pow ha (Nat.le_refl 26), fieldSum_fieldsOf ha (of_decide_eq_true hr), ← hopc,
    Nat.div_add_mod']

/-- The fields of an instruction's form (R417, R418). -/
def MillOp.form : MillOp → List (Nat × Nat)
  | .nop | .halt | .endl | .rte => []
  | .add .. | .sub .. => [(25, 1), (21, 4), (17, 4), (13, 4)]
  | .min .. | .max .. | .and .. | .or .. | .xor .. => [(21, 4), (17, 4), (13, 4)]
  | .neg .. | .abs .. | .addl .. => [(25, 1), (21, 4), (17, 4)]
  | .mov .. | .not .. | .andl .. => [(21, 4), (17, 4)]
  | .cmp .. => [(17, 4), (13, 4)]
  | .cmpl .. => [(17, 4)]
  | .shl .. => [(25, 1), (21, 4), (17, 4), (11, 6)]
  | .asr .. | .lsr .. => [(21, 4), (17, 4), (11, 6)]
  | .movi .. | .movu .. => [(21, 4), (0, 16)]
  | .movai .. | .setb .. | .setl .. => [(21, 3), (0, 16)]
  | .movda .. => [(21, 3), (17, 4)]
  | .movad .. => [(21, 4), (17, 3)]
  | .movl .. | .ldxa .. | .ldya .. | .stxa .. | .stya .. => [(21, 4)]
  | .ldx .. | .ldy .. | .stx .. | .sty .. => [(21, 4), (18, 3), (16, 2), (0, 16)]
  | .mpy .. | .mac .. | .msu .. => [(25, 1), (23, 2), (19, 4), (15, 4)]
  | .macxy .. | .msuxy .. => [(25, 1), (23, 2), (20, 3), (18, 2), (13, 5), (10, 3), (8, 2), (3, 5)]
  | .clra .. => [(23, 2)]
  | .accld .. => [(21, 4), (19, 2), (12, 6)]
  | .accadd .. => [(25, 1), (21, 4), (19, 2), (12, 6)]
  | .ext .. => [(25, 1), (21, 4), (19, 2), (18, 1), (12, 6)]
  | .b .. | .call .. => [(22, 4), (0, 16)]
  | .ret .. => [(22, 4)]
  | .loop .. => [(21, 4), (10, 11), (0, 10)]
  | .clrf .. => [(0, 4)]

/-- The fields of every form lie apart below the opcode. -/
theorem form_apart (o : MillOp) : fieldsApart 26 o.form = true := by
  cases o <;> rfl

/-! ### What a field reads as -/

/-- A field holds a register's number where it reads as that register. -/
theorem bitsAt_eq_fin_iff {w lo len n : Nat} (hn : n + 1 = 2 ^ len) (d : Fin (n + 1)) :
    bitsAt w lo len = d.val ↔ fidx n (bitsAt w lo len) = d := by
  have hlt : bitsAt w lo len < n + 1 := by rw [bitsAt_eq_div_mod, hn]; exact Nat.mod_lt _ (Nat.two_pow_pos len)
  simp only [Fin.ext_iff, fidx, Nat.mod_eq_of_lt hlt]

/-- A data register's field. -/
theorem bitsAt_eq_reg_iff (w lo : Nat) (d : Fin 16) : bitsAt w lo 4 = d.val ↔ millReg w lo = d :=
  bitsAt_eq_fin_iff rfl d

/-- An address register's field. -/
theorem bitsAt_eq_addrReg_iff (w lo : Nat) (d : Fin 8) : bitsAt w lo 3 = d.val ↔ fidx 7 (bitsAt w lo 3) = d :=
  bitsAt_eq_fin_iff rfl d

/-- A field of an accumulator or of a mode. -/
theorem bitsAt_eq_acc_iff (w lo : Nat) (d : Fin 4) : bitsAt w lo 2 = d.val ↔ fidx 3 (bitsAt w lo 2) = d :=
  bitsAt_eq_fin_iff rfl d

/-- A bit holds a truth value where it reads as that value. -/
theorem bitsAt_eq_b2n_iff (w lo : Nat) (b : Bool) : bitsAt w lo 1 = b2n b ↔ bitAt w lo = b := by
  rw [bitAt, Nat.testBit_eq_decide_div_mod_eq, bitsAt_eq_div_mod]
  cases b <;> simp [b2n]

/-- The lowest bits of a word. -/
theorem bitsAt_zero (w n : Nat) : bitsAt w 0 n = w % 2 ^ n := by
  rw [bitsAt_eq_div_mod, Nat.pow_zero, Nat.div_one]

/-- The lowest bits hold an immediate where they read as it. -/
theorem bitsAt_eq_toNat_iff (w n : Nat) (i : BitVec n) : bitsAt w 0 n = i.toNat ↔ BitVec.ofNat n w = i := by
  rw [bitsAt_zero, ← BitVec.toNat_inj, BitVec.toNat_ofNat]

/-- A signed field is the integer of its bits. -/
theorem sext_eq_toInt (k w : Nat) : sext (k + 1) w = (BitVec.ofNat (k + 1) w).toInt := by
  have hhalf : w % 2 ^ (k + 1) < 2 ^ k ↔ 2 * (w % 2 ^ (k + 1)) < 2 ^ (k + 1) := by omega
  rw [BitVec.toInt, BitVec.toNat_ofNat, sext, Nat.add_sub_cancel]
  simp only [hhalf]

/-- The code of an integer is the number of its bits. -/
theorem ucode_eq_toNat (n : Nat) (x : Int) : ucode n x = (BitVec.ofInt n x).toNat := (BitVec.toNat_ofInt ..).symm

/-- The code of an integer has so many bits. -/
theorem ucode_lt (n : Nat) (x : Int) : ucode n x < 2 ^ n := by
  rw [ucode_eq_toNat]
  exact BitVec.isLt _

/-- A signed field lies in its range. -/
theorem sext_range (k w : Nat) : -(2 ^ k : Int) ≤ sext (k + 1) w ∧ sext (k + 1) w < (2 ^ k : Int) := by
  rw [sext_eq_toInt]
  exact ⟨BitVec.le_toInt _, BitVec.toInt_lt⟩

/-- A field holds the code of a signed number in its range where it reads as that number. -/
theorem bitsAt_eq_ucode_iff {w lo k : Nat} {x : Int} (hx : -(2 ^ k : Int) ≤ x ∧ x < (2 ^ k : Int)) :
    bitsAt w lo (k + 1) = ucode (k + 1) x ↔ sext (k + 1) (w / 2 ^ lo) = x := by
  rw [sext_eq_toInt, ucode_eq_toNat, bitsAt_eq_div_mod, ← BitVec.toNat_ofNat, BitVec.toNat_inj]
  constructor
  · intro h
    rw [h, BitVec.toInt_ofInt_eq_self (Nat.succ_pos k) hx.1 hx.2]
  · intro h
    rw [← h, BitVec.ofInt_toInt]

/-- Sixteen bits hold the code of an offset where they read as it. -/
theorem bitsAt_eq_off_iff {w : Nat} {x : Int} (hx : -(2 ^ 15 : Int) ≤ x ∧ x < (2 ^ 15 : Int)) :
    bitsAt w 0 16 = ucode 16 x ↔ sext 16 w = x := by
  rw [bitsAt_eq_ucode_iff (k := 15) hx, Nat.pow_zero, Nat.div_one]

/-- A memory operand fits where its step lies in its range. -/
theorem MillEa.fits_iff {k : Nat} {e : MillEa} : e.fits (k + 1) = true ↔ -(2 ^ k : Int) ≤ e.step ∧ e.step < (2 ^ k : Int) :=
  decide_eq_true_iff

/-- The operand of form F4 fits. -/
theorem eaF4_fits (w : Nat) : (eaF4 w).fits 16 = true := MillEa.fits_iff.2 (sext_range 15 w)
/-- The operands of form F6 fit. -/
theorem eaF6x_fits (w : Nat) : (eaF6x w).fits 5 = true := MillEa.fits_iff.2 (sext_range 4 _)
theorem eaF6y_fits (w : Nat) : (eaF6y w).fits 5 = true := MillEa.fits_iff.2 (sext_range 4 _)

/-- The fields of form F4 hold an operand where they read as it. -/
theorem fieldsOf_eaF4_iff {w : Nat} {e : MillEa} (h : e.fits 16 = true) :
    fieldsOf w [(18, 3), (16, 2), (0, 16)] = eaFieldsF4 e ↔ eaF4 w = e := by
  obtain ⟨n, mode, step⟩ := e
  have hstep := bitsAt_eq_off_iff (w := w) (MillEa.fits_iff.1 h)
  simp [fieldsOf, eaFieldsF4, eaF4, MillEa.mk.injEq, bitsAt_eq_addrReg_iff, bitsAt_eq_acc_iff, hstep]

/-- The fields of form F6 hold two operands where they read as these. -/
theorem fieldsOf_eaF6_iff {w : Nat} {x y : MillEa} (hx : x.fits 5 = true) (hy : y.fits 5 = true) :
    fieldsOf w [(20, 3), (18, 2), (13, 5), (10, 3), (8, 2), (3, 5)] = eaFieldsF6 x y ↔ eaF6x w = x ∧ eaF6y w = y := by
  obtain ⟨nx, modex, stepx⟩ := x
  obtain ⟨ny, modey, stepy⟩ := y
  have hstepx := bitsAt_eq_ucode_iff (w := w) (lo := 13) (MillEa.fits_iff.1 hx)
  have hstepy := bitsAt_eq_ucode_iff (w := w) (lo := 3) (MillEa.fits_iff.1 hy)
  simp [fieldsOf, eaFieldsF6, eaF6x, eaF6y, MillEa.mk.injEq, bitsAt_eq_addrReg_iff, bitsAt_eq_acc_iff, hstepx, hstepy, and_assoc]

/-- Fields hold values one by one. -/
theorem fieldsOf_cons_eq_iff {w lo len v : Nat} {f l : List (Nat × Nat)} :
    fieldsOf w ((lo, len) :: f) = (lo, v) :: l ↔ bitsAt w lo len = v ∧ fieldsOf w f = l := by
  simp [fieldsOf]

/-- An arm of the decoder answers an instruction where its condition holds. -/
theorem okIf_eq_some_iff {c : Bool} {o p : MillOp} : okIf c o = some p ↔ c = true ∧ o = p := by
  cases c <;> simp [okIf]

/-- Opcodes above 0x10 are no register forms. -/
theorem decodeAlu_eq_none {w : Nat} (h : 0x10 < millOpcode w) : decodeAlu w = none := by
  unfold decodeAlu
  split
  case h_18 => rfl
  all_goals omega

/-- Opcodes above 0x24 are no immediates, memory or accumulator forms. -/
theorem decodeMem_eq_none {w : Nat} (h : 0x24 < millOpcode w) : decodeMem w = none := by
  unfold decodeMem
  split
  case h_21 => rfl
  all_goals omega

/-- An opcode below 0x30 has one word (R417). -/
theorem millLong_eq_false {w : Nat} (h : millOpcode w < 0x30) : millLong w = false :=
  decide_eq_false (by omega)

/-- What a word of a register form decodes to. -/
theorem decodeMill_of_alu {w imm : Nat} {o : MillOp} (hopc : millOpcode w ≤ 0x10) (h : decodeAlu w = some o) :
    decodeMill w imm = some o := by
  rw [decodeMill, millLong_eq_false (by omega), if_neg Bool.false_ne_true, h, Option.some_or]

/-- What a word of a memory or accumulator form decodes to. -/
theorem decodeMill_of_mem {w imm : Nat} {o : MillOp} (hopc : 0x10 < millOpcode w ∧ millOpcode w < 0x30)
    (h : decodeMem w = some o) : decodeMill w imm = some o := by
  rw [decodeMill, millLong_eq_false hopc.2, if_neg Bool.false_ne_true, decodeAlu_eq_none hopc.1, h,
    Option.none_or, Option.some_or]

/-- What a word of a control form decodes to. -/
theorem decodeMill_of_ctl {w imm : Nat} {o : MillOp} (hopc : 0x24 < millOpcode w ∧ millOpcode w < 0x30)
    (h : decodeCtl w = some o) : decodeMill w imm = some o := by
  rw [decodeMill, millLong_eq_false hopc.2, if_neg Bool.false_ne_true, decodeAlu_eq_none (by omega), decodeMem_eq_none hopc.1, h,
    Option.none_or, Option.none_or]

/-- What two words decode to (R417). -/
theorem decodeMill_of_long {w imm : Nat} {o : MillOp} (hopc : 0x30 ≤ millOpcode w ∧ millOpcode w ≤ 0x37)
    (h : decodeLong w imm = some o) : decodeMill w imm = some o := by
  rw [decodeMill, millLong, decide_eq_true hopc, if_pos rfl, h]

/-- The opcode word of an instruction is an opcode and values that fit its form, and every word that spells these
decodes to it. -/
theorem encodeMill_spells (o : MillOp) (h : o.wf = true) : ∃ opc l, (encodeMill o).1 = millWord opc l ∧ opc < 64 ∧
    FieldsFit o.form l ∧ ∀ w, Spells opc o.form l w → decodeMill w (encodeMill o).2 = some o := by
  cases o with
  | nop | halt =>
    refine ⟨_, _, rfl, by decide, trivial, fun w ⟨ho, hr, hf⟩ => decodeMill_of_alu (by omega) ?_⟩
    simpa [MillOp.form, fieldMask, fieldSum, decodeAlu, okIf_eq_some_iff, ho] using hr
  | endl | rte =>
    refine ⟨_, _, rfl, by decide, trivial, fun w ⟨ho, hr, hf⟩ => decodeMill_of_ctl (by omega) ?_⟩
    simpa [MillOp.form, fieldMask, fieldSum, decodeCtl, okIf_eq_some_iff, ho] using hr
  | mov | add | sub | neg | abs | min | max | and | or | xor | not | shl | asr | lsr | cmp =>
    simp only [MillOp.wf, decide_eq_true_eq] at h
    refine ⟨_, _, rfl, by decide, ?_, fun w ⟨ho, hr, hf⟩ => ?_⟩
    · simp [MillOp.form, FieldsFit, b2n_le_one] <;> omega
    · simp only [MillOp.form, fieldsOf_cons_eq_iff, bitsAt_eq_b2n_iff, bitsAt_eq_reg_iff] at hf
      refine decodeMill_of_alu (by omega) ?_
      simpa [MillOp.form, fieldMask, fieldSum, decodeAlu, okIf_eq_some_iff, ho, hf, h] using hr
  | movi | movu | movai | setb | setl | movda | movad | mpy | mac | msu | clra | accld | accadd | ext =>
    simp only [MillOp.wf, decide_eq_true_eq] at h
    refine ⟨_, _, rfl, by decide, ?_, fun w ⟨ho, hr, hf⟩ => ?_⟩
    · simp [MillOp.form, FieldsFit, b2n_le_one] <;> omega
    · simp only [MillOp.form, fieldsOf_cons_eq_iff, bitsAt_eq_b2n_iff, bitsAt_eq_reg_iff, bitsAt_eq_addrReg_iff,
        bitsAt_eq_acc_iff, bitsAt_eq_toNat_iff] at hf
      refine decodeMill_of_mem (by omega) ?_
      simpa [MillOp.form, fieldMask, fieldSum, decodeMem, okIf_eq_some_iff, ho, hf, h] using hr
  | ldx d e | ldy d e | stx d e | sty d e =>
    refine ⟨_, _, rfl, by decide, ?_, fun w ⟨ho, hr, hf⟩ => ?_⟩
    · exact ⟨rfl, d.isLt, rfl, e.n.isLt, rfl, e.mode.isLt, rfl, ucode_lt 16 _, trivial⟩
    · have hea := (fieldsOf_eaF4_iff h).1 (List.cons.inj hf).2
      simp only [MillOp.form, fieldsOf_cons_eq_iff, bitsAt_eq_reg_iff] at hf
      refine decodeMill_of_mem (by omega) ?_
      simpa [MillOp.form, fieldMask, fieldSum, decodeMem, okIf_eq_some_iff, ho, hf, hea] using hr
  | macxy sat ac x y | msuxy sat ac x y =>
    obtain ⟨hx, hy⟩ := Bool.and_eq_true_iff.1 h
    refine ⟨_, _, rfl, by decide, ?_, fun w ⟨ho, hr, hf⟩ => ?_⟩
    · exact ⟨rfl, Nat.lt_succ_of_le (b2n_le_one sat), rfl, ac.isLt, rfl, x.n.isLt, rfl, x.mode.isLt, rfl, ucode_lt 5 _, rfl,
        y.n.isLt, rfl, y.mode.isLt, rfl, ucode_lt 5 _, trivial⟩
    · have hea := (fieldsOf_eaF6_iff hx hy).1 (List.cons.inj (List.cons.inj hf).2).2
      simp only [MillOp.form, List.cons_append, fieldsOf_cons_eq_iff, bitsAt_eq_b2n_iff, bitsAt_eq_acc_iff] at hf
      refine decodeMill_of_mem (by omega) ?_
      simpa [MillOp.form, fieldMask, fieldSum, decodeMem, okIf_eq_some_iff, ho, hf, hea] using hr
  | b cond off | call cond off =>
    obtain ⟨hcond, hoff⟩ := of_decide_eq_true h
    refine ⟨_, _, rfl, by decide, ?_, fun w ⟨ho, hr, hf⟩ => ?_⟩
    · exact ⟨rfl, by omega, rfl, ucode_lt 16 _, trivial⟩
    · simp only [MillOp.form, fieldsOf_cons_eq_iff, bitsAt_eq_off_iff hoff] at hf
      refine decodeMill_of_ctl (by omega) ?_
      simpa [MillOp.form, fieldMask, fieldSum, decodeCtl, okIf_eq_some_iff, ho, hf, hcond] using hr
  | ret cond =>
    have hcond : cond ≤ 10 := of_decide_eq_true h
    refine ⟨_, _, rfl, by decide, ?_, fun w ⟨ho, hr, hf⟩ => ?_⟩
    · exact ⟨rfl, by omega, trivial⟩
    · simp only [MillOp.form, fieldsOf_cons_eq_iff] at hf
      refine decodeMill_of_ctl (by omega) ?_
      simpa [MillOp.form, fieldMask, fieldSum, decodeCtl, okIf_eq_some_iff, ho, hf, hcond] using hr
  | loop d len count =>
    obtain ⟨hpos, hlen, hcount⟩ := of_decide_eq_true h
    refine ⟨_, _, rfl, by decide, ?_, fun w ⟨ho, hr, hf⟩ => ?_⟩
    · exact ⟨rfl, d.isLt, rfl, hlen, rfl, hcount, trivial⟩
    · simp only [MillOp.form, fieldsOf_cons_eq_iff, bitsAt_eq_reg_iff] at hf
      refine decodeMill_of_ctl (by omega) ?_
      simpa [MillOp.form, fieldMask, fieldSum, decodeCtl, okIf_eq_some_iff, ho, hf, Nat.ne_of_gt hpos] using hr
  | clrf mask =>
    refine ⟨_, _, rfl, by decide, ?_, fun w ⟨ho, hr, hf⟩ => ?_⟩
    · exact ⟨rfl, mask.isLt, trivial⟩
    · simp only [MillOp.form, fieldsOf_cons_eq_iff, bitsAt_eq_toNat_iff] at hf
      refine decodeMill_of_ctl (by omega) ?_
      simpa [MillOp.form, fieldMask, fieldSum, decodeCtl, okIf_eq_some_iff, ho, hf] using hr
  | movl | addl | andl | cmpl =>
    refine ⟨_, _, rfl, by decide, ?_, fun w ⟨ho, hr, hf⟩ => ?_⟩
    · simp [MillOp.form, FieldsFit, b2n_le_one]
    · simp only [MillOp.form, fieldsOf_cons_eq_iff, bitsAt_eq_b2n_iff, bitsAt_eq_reg_iff] at hf
      refine decodeMill_of_long (by omega) ?_
      simpa [MillOp.form, fieldMask, fieldSum, encodeMill, decodeLong, okIf_eq_some_iff, ho, hf] using hr
  | ldxa d a | ldya d a | stxa d a | stya d a =>
    have haddr : a < 65536 := of_decide_eq_true h
    refine ⟨_, _, rfl, by decide, ⟨rfl, d.isLt, trivial⟩, fun w ⟨ho, hr, hf⟩ => ?_⟩
    simp only [MillOp.form, fieldsOf_cons_eq_iff, bitsAt_eq_reg_iff] at hf
    refine decodeMill_of_long (by omega) ?_
    simpa [MillOp.form, fieldMask, fieldSum, encodeMill, decodeLong, okIf_eq_some_iff, ho, hf, haddr] using hr

/-- A word spells an instruction in its form: the instruction is well formed, and its opcode word is that of
what the word spells. -/
def MillOp.SpelledBy (o : MillOp) (w : Nat) : Prop :=
  o.wf = true ∧ ∃ opc l, (encodeMill o).1 = millWord opc l ∧ Spells opc o.form l w

/-- A word of opcodes 0x00-0x10 spells what it decodes to. -/
theorem decodeAlu_spelled {w : Nat} {o : MillOp} (h : decodeAlu w = some o) : o.SpelledBy w := by
  unfold decodeAlu at h
  split at h
  case h_18 => cases h
  all_goals
    rename_i hopc
    simp only [okIf_eq_some_iff, Bool.and_eq_true, decide_eq_true_eq] at h
  case h_14 | h_15 | h_16 =>
    obtain ⟨⟨hr, hsh⟩, rfl⟩ := h
    refine ⟨decide_eq_true hsh, _, _, rfl, hopc, hr, ?_⟩
    simp [fieldsOf, MillOp.form, bitsAt_eq_b2n_iff, bitsAt_eq_reg_iff]
  all_goals
    obtain ⟨hr, rfl⟩ := h
    refine ⟨rfl, _, _, rfl, hopc, hr, ?_⟩
    simp [fieldsOf, MillOp.form, bitsAt_eq_b2n_iff, bitsAt_eq_reg_iff]

/-- A word of opcodes 0x11-0x24 spells what it decodes to. -/
theorem decodeMem_spelled {w : Nat} {o : MillOp} (h : decodeMem w = some o) : o.SpelledBy w := by
  unfold decodeMem at h
  split at h
  case h_21 => cases h
  all_goals
    rename_i hopc
    simp only [okIf_eq_some_iff, Bool.and_eq_true, decide_eq_true_eq] at h
  case h_18 | h_19 | h_20 =>
    obtain ⟨⟨hr, hsh⟩, rfl⟩ := h
    refine ⟨decide_eq_true hsh, _, _, rfl, hopc, hr, ?_⟩
    simp [fieldsOf, MillOp.form, bitsAt_eq_b2n_iff, bitsAt_eq_reg_iff, bitsAt_eq_acc_iff]
  case h_3 | h_4 | h_5 | h_6 =>
    obtain ⟨hr, rfl⟩ := h
    refine ⟨eaF4_fits w, _, _, rfl, hopc, hr, ?_⟩
    exact congrArg₂ List.cons (by simp [bitsAt_eq_reg_iff]) ((fieldsOf_eaF4_iff (eaF4_fits w)).2 rfl)
  case h_15 | h_16 =>
    obtain ⟨hr, rfl⟩ := h
    refine ⟨Bool.and_eq_true_iff.2 ⟨eaF6x_fits w, eaF6y_fits w⟩, _, _, rfl, hopc, hr, ?_⟩
    exact congrArg₂ List.cons (by simp [bitsAt_eq_b2n_iff]) (congrArg₂ List.cons (by simp [bitsAt_eq_acc_iff])
      ((fieldsOf_eaF6_iff (eaF6x_fits w) (eaF6y_fits w)).2 ⟨rfl, rfl⟩))
  all_goals
    obtain ⟨hr, rfl⟩ := h
    refine ⟨rfl, _, _, rfl, hopc, hr, ?_⟩
    simp [fieldsOf, MillOp.form, bitsAt_eq_b2n_iff, bitsAt_eq_reg_iff, bitsAt_eq_addrReg_iff, bitsAt_eq_acc_iff, bitsAt_zero]

/-- A word of opcodes 0x28-0x2E spells what it decodes to. -/
theorem decodeCtl_spelled {w : Nat} {o : MillOp} (h : decodeCtl w = some o) : o.SpelledBy w := by
  unfold decodeCtl at h
  split at h
  case h_8 => cases h
  all_goals
    rename_i hopc
    simp only [okIf_eq_some_iff, Bool.and_eq_true, decide_eq_true_eq] at h
  case h_1 | h_2 =>
    obtain ⟨⟨hr, hcond⟩, rfl⟩ := h
    refine ⟨decide_eq_true ⟨hcond, sext_range 15 w⟩, _, _, rfl, hopc, hr, ?_⟩
    simp [fieldsOf, MillOp.form, bitsAt_eq_off_iff (sext_range 15 w)]
  case h_3 =>
    obtain ⟨⟨hr, hcond⟩, rfl⟩ := h
    exact ⟨decide_eq_true hcond, _, _, rfl, hopc, hr, rfl⟩
  case h_4 =>
    obtain ⟨⟨hr, hlen⟩, rfl⟩ := h
    refine ⟨decide_eq_true ⟨Nat.pos_of_ne_zero hlen, ?_, ?_⟩, _, _, rfl, hopc, hr, ?_⟩
    · exact Nat.mod_lt _ (by decide)
    · exact Nat.mod_lt _ (by decide)
    · simp [fieldsOf, MillOp.form, bitsAt_eq_reg_iff]
  all_goals
    obtain ⟨hr, rfl⟩ := h
    refine ⟨rfl, _, _, rfl, hopc, hr, ?_⟩
    simp [fieldsOf, MillOp.form, bitsAt_zero]

/-- A word of opcodes 0x30-0x37 spells what it decodes to, and the word after it is the immediate. -/
theorem decodeLong_spelled {w imm : Nat} {o : MillOp} (himm : imm < 2 ^ 32) (h : decodeLong w imm = some o) :
    o.SpelledBy w ∧ (encodeMill o).2 = imm := by
  unfold decodeLong at h
  split at h
  case h_9 => cases h
  all_goals
    rename_i hopc
    simp only [okIf_eq_some_iff, Bool.and_eq_true, decide_eq_true_eq] at h
  case h_5 | h_6 | h_7 | h_8 =>
    obtain ⟨⟨hr, hadr⟩, rfl⟩ := h
    refine ⟨⟨decide_eq_true hadr, _, _, rfl, hopc, hr, ?_⟩, rfl⟩
    simp [fieldsOf, MillOp.form, bitsAt_eq_reg_iff]
  all_goals
    obtain ⟨hr, rfl⟩ := h
    refine ⟨⟨rfl, _, _, rfl, hopc, hr, ?_⟩, Nat.mod_eq_of_lt himm⟩
    simp [fieldsOf, MillOp.form, bitsAt_eq_b2n_iff, bitsAt_eq_reg_iff]

/-- The word after the opcode word has 32 bits. -/
theorem encodeMill_imm_lt {o : MillOp} (h : o.wf = true) : (encodeMill o).2 < 2 ^ 32 := by
  cases o with
  | movl d i | cmpl d i => exact i.isLt
  | addl s d a i => exact i.isLt
  | andl d a i => exact i.isLt
  | ldxa d a | ldya d a | stxa d a | stya d a => exact (of_decide_eq_true h).trans (by decide)
  | _ => exact Nat.two_pow_pos 32

/-- Settles O54: the opcode word spells the instruction's fields, and a word that spells them decodes to it. -/
theorem millDecodeOfEncode : Obligations.MillDecodeOfEncode := by
  intro o hwf
  obtain ⟨opc, l, he, hopc, hfit, hdecode⟩ := encodeMill_spells o hwf
  obtain ⟨hlt, hspells⟩ := spells_millWord (form_apart o) hopc hfit
  rw [he]
  exact ⟨hlt, encodeMill_imm_lt hwf, hdecode _ hspells⟩

/-- The word that spells an instruction is its opcode word. -/
theorem MillOp.SpelledBy.encodes {w : Nat} {o : MillOp} (h : o.SpelledBy w) (hw : w < 2 ^ 32) : (encodeMill o).1 = w := by
  obtain ⟨-, opc, l, he, hs⟩ := h
  exact he.trans (hs.eq_millWord (form_apart o) hw)

/-- Settles O55: a word that decodes spells the fields of what it decodes to, so it is the word made of them. -/
theorem millEncodeOfDecode : Obligations.MillEncodeOfDecode := by
  intro w imm o hw himm h
  by_cases hlong : millLong w = true
  · simp only [decodeMill, hlong, if_true] at h
    obtain ⟨hs, he⟩ := decodeLong_spelled himm h
    exact ⟨hs.1, hs.encodes hw, fun _ => he⟩
  · have hs : o.SpelledBy w := by
      simp only [decodeMill, hlong, Bool.false_eq_true, if_false, Option.or_eq_some_iff] at h
      obtain h | ⟨-, h | ⟨-, h⟩⟩ := h
      · exact decodeAlu_spelled h
      · exact decodeMem_spelled h
      · exact decodeCtl_spelled h
    exact ⟨hs.1, hs.encodes hw, fun h => absurd h hlong⟩

end Sys2Proof.Machine

/-! ### Mill rows whose instruction issues (R400-R419) -/

namespace Sys2Proof.Machine

section Rows

variable {m : Fin 4} {o : MillOp} {n stall : Nat} {s t u : State} {pick : MillOp → Option (State → MillOut)} {w : MWrite}
  (h : Issues m o n s t)
include h

/-- A row whose instruction issues ends as its outcome says. -/
theorem mill1_of_issues {out : MillOut} (hout : (pick o).map (· t) = some out) :
    s.mill1 m stall pick = .next (State.millFinish m (waited m stall n s) n s.mill.mill[m] out) := by
  obtain ⟨f, hpick, rfl⟩ := Option.map_eq_some_iff.1 hout
  rw [State.mill1, millRow_of_issues stall pick h f hpick]

/-- A row whose instruction issues and is no transfer writes `w` and goes on (R409-R412). -/
theorem mill1_issued (hout : (pick o).map (· t) = some (.seq w u)) :
    s.mill1 m stall pick = .next (issued m (waited m stall n s) n s.mill.mill[m] w u) :=
  mill1_of_issues h hout

/-- A row whose instruction issues and is a transfer makes it (R411). -/
theorem mill1_jumped {target : Option Nat} {rte : Bool} (hout : (pick o).map (· t) = some (.jump w target rte u)) :
    s.mill1 m stall pick = .next (jumped m (waited m stall n s) n s.mill.mill[m] w target rte u) :=
  mill1_of_issues h hout

end Rows

/-! ### What an instruction writes, where no trap is made -/

/-- A data result with its flags (R405). -/
theorem aluOut_eq (m : Fin 4) (d : Option (Fin 16)) (sat : Bool) (x : Int) (c : Bool) (t : State) :
    aluOut m d sat x c t = .seq (aluWrite d sat x c) (dovf m x t) := rfl

/-- A logic result: Z and N are free values (log 34). -/
theorem logicOut_eq (d : Fin 16) (w : Word) (c : Bool) (t : State) : ∃ z n,
    logicOut d w c t = .seq ⟨some (d, w), some ⟨z, n, false, c⟩, none⟩ { t with free := t.free + 2 } := ⟨_, _, rfl⟩

/-- An accumulator result (R406). -/
theorem accOut_eq (m : Fin 4) (ac : Fin 4) (sat : Bool) (x : Int) (t : State) :
    accOut m ac sat x t = .seq noWrite (accWritten m ac sat x t) := rfl

/-- A readable word is loaded. -/
theorem loadOut_ok {m : Fin 4} {d : Fin 16} {y : Bool} {a : Nat} {v : Word} {t u : State} (h : t.millLoad m y a = .ok (v, u)) :
    loadOut m d y a t = .seq ⟨some (d, v), none, none⟩ u := by
  rw [loadOut, h]
  rfl

/-- A word that can be stored is stored, and is still read as it was by the next instruction (R410). -/
theorem storeOut_ok {m : Fin 4} {d : Fin 16} {y : Bool} {a : Nat} {v : Word} {t u : State}
    (h : t.millStore m y a (t.mill.mill[m]).data[d] = .ok (v, u)) :
    storeOut m d y a t = .seq ⟨none, none, some (y, a, v)⟩ u := by
  rw [storeOut, h]

/-- An access through an address register at a generated address moves its pointer (R401, R402). -/
theorem eaOut_ok {m : Fin 4} {y : Bool} {e : MillEa} {f : Nat → State → MillOut} {a p : Nat} {fold : Bool} {w : MWrite}
    {t u : State} (h : (t.mill.mill[m]).genEa y e = .ok (a, p, fold)) (hf : f a t = .seq w u) :
    eaOut m y e f t = .seq w (u.millPointer m e.n p fold) := by
  simp only [eaOut, h, hf]

/-- An access at an absolute address in range (R403). -/
theorem absOut_ok {y : Bool} {a : Nat} (f : Nat → State → MillOut) (t : State) (h : a ≤ if y then 0x5FFF else 0x63FF) :
    absOut y a f t = f a t := by
  rw [absOut, absEa, if_neg (Nat.not_lt.2 h)]

/-- MACXY and MSUXY where both words are read (R404). -/
theorem dualOut_ok {m : Fin 4} {ac : Fin 4} {sat neg : Bool} {x y : MillEa} {ax px ay py : Nat} {fx fy : Bool} {vx vy : Word}
    {t u v : State} (hx : (t.mill.mill[m]).genEa false x = .ok (ax, px, fx))
    (hy : ({ t.mill.mill[m] with ptr := (t.mill.mill[m]).ptr.set x.n px } : MillSt).genEa true y = .ok (ay, py, fy))
    (hvx : t.millLoad m false ax = .ok (vx, u)) (hvy : u.millLoad m true ay = .ok (vy, v)) :
    dualOut m ac sat neg x y t = accOut m ac sat
      (if neg then (t.mill.mill[m]).accs[ac] - vx.toInt * vy.toInt else (t.mill.mill[m]).accs[ac] + vx.toInt * vy.toInt)
      ((v.millPointer m x.n px fx).millPointer m y.n py fy) := by
  simp only [dualOut, hx, hy, hvx, hvy]

/-- Settles O35: what each instruction writes is its own effect, by `mill1_issued`. -/
theorem millMovesComplete : Obligations.MillMovesComplete := by
  rintro m stall n s t _ _ rfl rfl
  refine ⟨?nop, ?mov, ?movi, ?movu, ?movl, ?movad, ?movda, ?movai, ?setb, ?setl, ?clrf⟩
  case nop => exact fun h => mill1_issued h rfl
  case clrf => exact fun _ h => mill1_issued h rfl
  case mov | movi | movu | movl | movad | movda | movai | setb | setl => exact fun _ _ h => mill1_issued h rfl

/-- Settles O36: each result is a data result, and the carry is the one of the row. -/
theorem millArithmeticComplete : Obligations.MillArithmeticComplete := by
  rintro m stall n s t _ _ rfl rfl
  refine ⟨?add, ?sub, ?neg, ?abs, ?cmp, ?addl, ?cmpl, ?shl⟩
  case add | sub | addl | shl => exact fun _ _ _ _ h => mill1_issued h (congrArg some (aluOut_eq ..))
  case neg | abs => exact fun _ _ _ h => mill1_issued h (congrArg some (aluOut_eq ..))
  case cmp | cmpl => exact fun _ _ h => mill1_issued h (congrArg some (aluOut_eq ..))

/-- A row of a logic result ends with free values in Z and N (log 34). -/
theorem mill1_logic {m : Fin 4} {o : MillOp} {n stall : Nat} {s t : State} {pick : MillOp → Option (State → MillOut)}
    {d : Fin 16} {w : Word} {c : Bool} (h : Issues m o n s t) (hout : (pick o).map (· t) = some (logicOut d w c t)) :
    ∃ z neg, s.mill1 m stall pick = .next (issued m (waited m stall n s) n s.mill.mill[m]
      ⟨some (d, w), some ⟨z, neg, false, c⟩, none⟩ { t with free := t.free + 2 }) := by
  obtain ⟨z, neg, hlogic⟩ := logicOut_eq d w c t
  exact ⟨z, neg, mill1_issued h (hlogic ▸ hout)⟩

/-- Settles O37: each result is a logic result. -/
theorem millLogicComplete : Obligations.MillLogicComplete := by
  rintro m stall n s t _ _ rfl rfl
  refine ⟨?min, ?max, ?and, ?or, ?xor, ?not, ?andl, ?asr, ?lsr⟩
  case not => exact fun _ _ h => mill1_logic h rfl
  case min | max | and | or | xor | andl | asr | lsr => exact fun _ _ _ h => mill1_logic h rfl

/-- Settles O38: the address of each row is generated and its word accessed. -/
theorem millLoadsAndStoresComplete : Obligations.MillLoadsAndStoresComplete := by
  rintro m stall n s t _ rfl
  refine ⟨?ldx, ?ldy, ?stx, ?sty, ?ldxa, ?ldya, ?stxa, ?stya⟩
  case ldx | ldy => exact fun _ _ _ _ _ _ _ hea hload h => mill1_issued h (congrArg some (eaOut_ok hea (loadOut_ok hload)))
  case stx | sty => exact fun _ _ _ _ _ _ _ hea hstore h => mill1_issued h (congrArg some (eaOut_ok hea (storeOut_ok hstore)))
  case ldxa | ldya =>
    exact fun _ _ _ _ hin hload h => mill1_issued h (congrArg some ((absOut_ok _ _ hin).trans (loadOut_ok hload)))
  case stxa | stya =>
    exact fun _ _ _ _ hin hstore h => mill1_issued h (congrArg some ((absOut_ok _ _ hin).trans (storeOut_ok hstore)))

/-- Settles O39: each result is an accumulator result, but for EXT, which is a data result without flags. -/
theorem millAccumulatorsComplete : Obligations.MillAccumulatorsComplete := by
  rintro m stall n s t _ _ rfl rfl
  refine ⟨?mpy, ?mac, ?msu, ?clra, ?accld, ?accadd, ?ext, ?dual⟩
  case mpy | mac | msu | accadd => exact fun _ _ _ _ h => mill1_issued h (congrArg some (accOut_eq ..))
  case clra => exact fun _ h => mill1_issued h (congrArg some (accOut_eq ..))
  case accld => exact fun _ _ _ h => mill1_issued h (congrArg some (accOut_eq ..))
  case ext =>
    rintro sat d ac rnd sh _ rfl h
    exact mill1_issued h rfl
  case dual =>
    rintro sat ac x y ax px fx ay py fy vx u vy v _ hx hy hvx hvy rfl
    exact ⟨fun h => mill1_issued h (congrArg some ((dualOut_ok hx hy hvx hvy).trans (accOut_eq ..))),
      fun h => mill1_issued h (congrArg some ((dualOut_ok hx hy hvx hvy).trans (accOut_eq ..)))⟩

/-- A mill replaced is read back. -/
@[simp] theorem State.setMill_mill_self (s : State) (m : Fin 4) (q : MillSt) : (s.setMill m q).mill.mill[m] = q :=
  Vector.getElem_set_self ..

/-- The other mills stay. -/
theorem State.setMill_mill_of_ne {s : State} {m k : Fin 4} (q : MillSt) (h : k ≠ m) :
    (s.setMill m q).mill.mill[k] = s.mill.mill[k] :=
  Vector.getElem_set_ne m.isLt k.isLt fun e => h (Fin.ext e.symm)

/-- LOOP with room on the loop stack, inside the loop it stands in: with count 0 its body is left out, else its loop is pushed
and its body entered (R412). -/
theorem exec_millLoop {m : Fin 4} {d : Fin 16} {len count k n stall : Nat} {s t : State} {p : MillSt} (hp : p = t.mill.mill[m])
    (h : Issues m (.loop d len count) n s t) (hroom : p.loops.length < 2)
    (hin : ∀ o l, p.loops = o :: l → o.start ≤ p.pc + 4 ∧ p.pc + 4 * len < o.last)
    (hk : k = if count = 0 then p.dA[d].toNat % 65536 else count) : exec (.millLoop m stall) s =
      .next (State.millFinish m (waited m stall n s) n s.mill.mill[m] (if k = 0 then .skip (p.pc + 4 * len + 4) t
        else .skip (p.pc + 4) (t.setMill m (p.enterLoop ⟨p.pc + 4, p.pc + 4 * len, k⟩)))) := by
  subst hp hk
  refine mill1_of_issues h (congrArg some ((if_neg (Nat.not_le.2 hroom)).trans (if_neg ?inside)))
  case inside =>
    generalize t.mill.mill[m] = p at hin ⊢
    cases hl : p.loops with
    | nil => exact Bool.false_ne_true
    | cons o l => simpa using hin o l hl

/-- Settles O40: B, CALL, RET and RTE are transfers; LOOP is `exec_millLoop`. -/
theorem millControlComplete : Obligations.MillControlComplete := by
  rintro m stall n s t _ _ rfl rfl
  refine ⟨?b, ?call, ?ret, ?loop, ?endl, ?rte, ?halt⟩
  case b => exact fun _ _ h => mill1_jumped h rfl
  case call => exact fun _ _ h => ⟨fun hc => mill1_jumped h (congrArg some (if_pos hc)),
    fun hc => mill1_jumped h (congrArg some (if_neg (Bool.eq_false_iff.1 hc)))⟩
  case ret => exact fun _ h => mill1_jumped h rfl
  case loop =>
    intro d len count k h hroom hin hk
    rw [exec_millLoop rfl h hroom hin hk]
    refine ⟨fun h0 => by rw [if_pos h0]; rfl, fun h0 => ?_⟩
    rw [if_neg h0, State.millFinish, State.setMill_mill_self]
  case endl => exact fun h => mill1_issued h rfl
  case rte => exact fun h hbank => mill1_jumped h (congrArg some (if_pos hbank))
  case halt => exact fun h => mill1_of_issues h (out := .halt t) rfl

end Sys2Proof.Machine

/-! ### The mill letters, the tick start and the event entry (R389, R394-R399, R414) -/

namespace Sys2Proof.Machine

/-- The mill that a payload byte names. -/
theorem millOf_val (m : Fin 4) : millOf m.val = m := Fin.ext (Nat.mod_eq_of_lt m.isLt)

/-- MILL_START of a mill that does not run makes it ready (R396). -/
theorem millStart_run_ready {m : Fin 4} {q : Letter} {t : State} (hm : u8 q.payload 0 = m.val)
    (hstill : (t.mill.mill[m]).running = false) :
    millStartHandler.run q t = (.done 0 [], t.setMill m { (t.mill.mill[m]).ready (u32 q.payload 4) with
      entry := u32 q.payload 4, state := if u8 q.payload 1 = 0 then 1 else 3,
      pc := if u8 q.payload 1 = 0 then (t.mill.mill[m]).pc else u32 q.payload 4 }) := by
  simp only [millStartHandler, handler, hm, millOf_val, hstill, doneWith, Bool.false_eq_true, if_false]

/-- MILL_STOP stops the mill it names, a stopped one stays (R399). -/
theorem millStop_run {m : Fin 4} {q : Letter} {t : State} (hm : u8 q.payload 0 = m.val) :
    millStopHandler.run q t = (.done 0 [], if (t.mill.mill[m]).state = 0 then t else t.setMill m { (t.mill.mill[m]).drain with
      state := 0, delay := 0, target := none, rte := false }) := by
  simp only [millStopHandler, handler, hm, millOf_val, doneWith]
  split <;> rfl

/-- MILL_FETCH where no running mill changes gang sets the arrangement (R394). -/
theorem millFetch_run_free {q : Letter} {t : State} (hfree : ∀ m : Fin 4, (t.mill.mill[m]).running = true →
    gangOf (u8 q.payload 0) m.val = gangOf t.mill.arr m.val) :
    millFetchHandler.run q t = (.done 0 [], { t with mill := { t.mill with arr := u8 q.payload 0 } }) := by
  have hbusy : (List.finRange 4).any (fun m => (t.mill.mill[m]).running &&
      gangOf (u8 q.payload 0) m.val ≠ gangOf t.mill.arr m.val) = false := by
    simpa using hfree
  simp only [millFetchHandler, handler, hbusy, doneWith, Bool.false_eq_true, if_false]

/-- A mill at the tick start: a tick program whose start is not skipped starts at its entry address (R397, R398). -/
def MillSt.atTickStart (q : MillSt) : MillSt :=
  if q.state = 1 ∧ !q.skip then { q.ready q.entry with state := 2 } else q

/-- MILL_TICK_START at its instant starts the mills and shows the outputs released before (R389, R397). -/
theorem exec_millTickStart_due {dt : Nat} {s t : State} (ht : t = s.advance dt) (hreset : t.inReset = false)
    (hnow : t.now = t.sys.tickAt + 800) (hruns : t.engineRuns = true) :
    exec (.millTickStart dt) s = .next { t with mill := { t.mill with
      winOut := Vector.ofFn fun i : Fin 16 => t.released i, mill := t.mill.mill.map MillSt.atTickStart } } := by
  have hdue : ¬ (t.now ≠ t.sys.tickAt + 800 ∨ (!t.engineRuns) = true) := by simp [hnow, hruns]
  show execMillTickStart dt s = _
  simp only [execMillTickStart, ← ht, hreset, Bool.false_eq_true, if_false, if_neg hdue]
  rfl

/-- MILL_EVENT_ENTRY of an event that is due enters the handler (R414). -/
theorem exec_millEventEntry_due {m : Fin 4} {s t : State} {o : MillOp} {n : Nat} (hdue : (s.mill.mill[m]).eventDue = true)
    (hruns : s.engineRuns = true) (hfetch : s.millFetch m = .ok (o, n, t)) (hhalt : o ≠ .halt) :
    exec (.millEventEntry m) s = .next (s.setMill m { (s.mill.mill[m]).drain with
      epc := (s.mill.mill[m]).pc, bank := true, dA := (s.mill.mill[m]).d1, cause := (s.mill.mill[m]).events,
      events := (s.mill.mill[m]).raised, cache := none, pc := s.reg (0x9000C + 0x100 * m.val), run := (s.mill.mill[m]).run + 2,
      jumped := true, longs := 0 }) := by
  show execMillEventEntry m s = _
  simp only [execMillEventEntry, hdue, hruns, hfetch, if_neg hhalt, Bool.not_true, Bool.or_self, Bool.false_eq_true, if_false]

/-- Settles O34: what each handler runs, the mills at the tick start one by one, and the event entry. -/
theorem millLettersAndEventsComplete : Obligations.MillLettersAndEventsComplete := by
  refine ⟨fun m => ?tick, fun m => ?once, fun m => ?stop, ?fetch, ?start, ?entry⟩
  case tick =>
    refine .of_run (fun _ _ => rfl) (fun q t ⟨hm, hcode, _, _, _, _, hstill⟩ => ?_) fun _ _ _ => rfl
    rw [millStart_run_ready hm hstill, hcode]
    rfl
  case once =>
    refine .of_run (fun _ _ => rfl) (fun q t ⟨hm, hcode, _, _, _, _, hstill⟩ => ?_) fun _ _ _ => rfl
    rw [millStart_run_ready hm hstill, hcode]
    rfl
  case stop => exact .of_run (fun _ _ => rfl) (fun _ _ hm => millStop_run hm) fun _ _ _ => rfl
  case fetch => exact .of_run (fun _ _ => rfl) (fun _ _ ⟨_, hfree⟩ => millFetch_run_free hfree) fun _ _ _ => rfl
  case start =>
    intro dt s t ht hreset hnow hruns
    refine ⟨_, exec_millTickStart_due ht hreset hnow hruns, rfl, rfl, fun m => ?_⟩
    simp [MillSt.atTickStart]
  case entry =>
    rintro m s o n t _ rfl hdue hruns hfetch hhalt
    exact exec_millEventEntry_due hdue hruns hfetch hhalt

end Sys2Proof.Machine

/-! ### The frame of a mill's instruction (R384, R390, R400) -/

namespace Sys2Proof.Machine

/-- The value under another key after a deletion. -/
theorem aget_adel_of_ne {α : Type} (d : Nat → α) {j k : Nat} (h : j ≠ k) (l : List (Nat × α)) :
    aget d j (adel k l) = aget d j l := by
  induction l with
  | nil => rfl
  | cons x l ih =>
    obtain ⟨i, v⟩ := x
    rw [adel]
    split
    · next hi => rw [aget, if_neg (hi ▸ h.symm)]
    · rw [aget, aget, ih]

/-- A write leaves the other bytes of memory, whatever its form. -/
theorem cell_putCell_of_ne {s : State} {a j : Nat} (b : Byte) (h : j ≠ a) : (s.putCell a b).cell j = s.cell j := by
  show aget memDefault j (aset memDefault a b s.mem.cells) = aget memDefault j s.mem.cells
  rw [aset]
  split
  · exact aget_adel_of_ne memDefault h _
  · rw [aget_aput, if_neg h]

/-- Bytes written leave the bytes outside them. -/
theorem cell_putCells_of_outside {s : State} {a j : Nat} (l : List Byte) (h : j < a ∨ a + l.length ≤ j) :
    (s.putCells a l).cell j = s.cell j := by
  induction l generalizing a s with
  | nil => rfl
  | cons b l ih =>
    rw [List.length_cons] at h
    rw [State.putCells, ih (by omega), cell_putCell_of_ne b (by omega)]

/-- `u` differs from `s` at most in mill `m`, the events with the hit of a waiting capture, the injected values, the counts of
memory errors, the free values and the memory, where the bytes that `kept` names stay. -/
structure MillFrame (m : Fin 4) (kept : Nat → Prop) (s u : State) : Prop where
  rest : u = { s with mill := u.mill, ev := u.ev, loop := u.loop, sys := u.sys, free := u.free, mem := u.mem }
  mills : ∀ k : Fin 4, k ≠ m → u.mill.mill[k] = s.mill.mill[k]
  cells : ∀ a, kept a → u.cell a = s.cell a

section MillFrame

variable {m : Fin 4} {kept : Nat → Prop} {s t u : State}

/-- No change is within the frame. -/
theorem MillFrame.refl (s : State) : MillFrame m kept s s := ⟨rfl, fun _ _ => rfl, fun _ _ => rfl⟩

/-- Two changes within the frame, one after the other. -/
theorem MillFrame.trans (h : MillFrame m kept s t) (h' : MillFrame m kept t u) : MillFrame m kept s u := by
  refine ⟨?_, fun k hk => (h'.mills k hk).trans (h.mills k hk), fun a ha => (h'.cells a ha).trans (h.cells a ha)⟩
  rw [h'.rest, h.rest]

/-- Either of two changes within the frame. -/
theorem MillFrame.ite {c : Prop} [Decidable c] (h : MillFrame m kept s t) (h' : MillFrame m kept s u) :
    MillFrame m kept s (if c then t else u) := by
  split <;> assumption

/-- A change of the mill itself. -/
theorem millFrame_setMill (q : MillSt) (s : State) : MillFrame m kept s (s.setMill m q) :=
  ⟨rfl, fun _ hk => State.setMill_mill_of_ne q hk, fun _ _ => rfl⟩

/-- An event. -/
theorem millFrame_post (code d : Nat) (s : State) : MillFrame m kept s (s.post code d) :=
  ⟨rfl, fun _ _ => rfl, fun _ _ => rfl⟩

/-- Free values taken. -/
theorem millFrame_free (n : Nat) (s : State) : MillFrame m kept s { s with free := n } :=
  ⟨rfl, fun _ _ => rfl, fun _ _ => rfl⟩

/-- A word corrected. -/
theorem millFrame_eccCorrect (w : Nat) (s : State) : MillFrame m kept s (s.eccCorrect w) :=
  ⟨rfl, fun _ _ => rfl, fun _ _ => rfl⟩

/-- An uncorrectable word found. -/
theorem millFrame_eccFound (w : Nat) (s : State) : MillFrame m kept s (s.eccFound w) :=
  ⟨rfl, fun _ _ => rfl, fun _ _ => rfl⟩

/-- A read through the symbol code. -/
theorem millFrame_eccRead (a n : Nat) (s : State) : MillFrame m kept s (s.eccRead a n).2 := by
  have hfold (l : List Nat) (s : State) : MillFrame m kept s (l.foldl (fun s w => s.eccCorrect w) s) := by
    induction l generalizing s with
    | nil => exact .refl s
    | cons w l ih => exact (millFrame_eccCorrect w s).trans (ih _)
  unfold State.eccRead
  extract_lets u
  split
  · exact hfold _ s
  · exact (hfold _ s).trans (millFrame_eccFound _ _)

/-- Bytes stored outside the bytes kept. -/
theorem millFrame_storeBytes {a : Nat} {bs : List Byte} (h : ∀ j, kept j → j < a ∨ a + bs.length ≤ j) (s : State) :
    MillFrame m kept s (s.storeBytes a bs) := by
  have hput (a : Nat) (bs : List Byte) (s : State) : s.putCells a bs = { s with mem := (s.putCells a bs).mem } := by
    induction bs generalizing a s with
    | nil => rfl
    | cons b l ih => exact ih (a + 1) (s.putCell a b)
  refine ⟨?_, fun k _ => ?_, fun j hj => cell_putCells_of_outside bs (h j hj)⟩
  · rw [State.storeBytes, hput]; rfl
  · rw [State.storeBytes, hput]; rfl

/-- A source raised at stage W. -/
theorem millFrame_raiseW (k : Nat) (s : State) : MillFrame m kept s (s.millRaiseW m k) :=
  .ite (millFrame_setMill _ s) (.refl s)

/-- A sticky flag set. -/
theorem millFrame_sticky (k n : Nat) (s : State) : MillFrame m kept s (s.millSticky m k n) :=
  .ite (.refl s) (.trans (.ite (.trans (millFrame_setMill _ s) (millFrame_post _ _ _)) (millFrame_setMill _ s))
    (millFrame_raiseW k _))

/-- A sticky flag set where a condition holds. -/
theorem millFrame_stickyIf (c : Bool) (k n : Nat) (s : State) : MillFrame m kept s (s.millStickyIf c m k n) :=
  .ite (millFrame_sticky k n s) (.refl s)

/-- A trap. -/
theorem millFrame_trap (c a : Nat) (s : State) : MillFrame m kept s (s.millTrap m c a) :=
  (millFrame_setMill _ s).trans (millFrame_post _ _ _)

/-- A pointer moved. -/
theorem millFrame_pointer (n : Fin 8) (p : Nat) (fold : Bool) (s : State) : MillFrame m kept s (s.millPointer m n p fold) :=
  (millFrame_setMill _ s).trans (millFrame_stickyIf _ _ _ _)

/-- A window word written. -/
theorem millFrame_putWindow (w : Nat) (v : Word) (s : State) : MillFrame m kept s (s.millPutWindow m w v) :=
  .ite (.ite ⟨rfl, fun _ _ => rfl, fun _ _ => rfl⟩ (.refl s)) (.ite (millFrame_setMill _ s) (.refl s))

/-- The state in which an access or a fetch ends, a trap or not. -/
def endState {α : Type} : Except (Nat × Nat × State) (α × State) → State
  | .ok (_, t) => t
  | .error (_, _, t) => t

/-- A load. -/
theorem millFrame_load (y : Bool) (w : Nat) (s : State) : MillFrame m kept s (endState (s.millLoad m y w)) := by
  unfold State.millLoad
  extract_lets seen a e
  split
  · exact .refl s
  · split <;> exact millFrame_eccRead _ _ s

/-- A store, where the bytes kept lie outside its word (R390). -/
theorem millFrame_store {y : Bool} {w : Nat} (h : ∀ j, kept j → j < dataAddr m.val y w ∨ dataAddr m.val y w + 4 ≤ j)
    (v : Word) (s : State) : MillFrame m kept s (endState (s.millStore m y w v)) := by
  unfold State.millStore
  extract_lets a e
  split
  · exact millFrame_putWindow w v s
  · split
    · exact millFrame_eccRead _ _ s
    · exact (millFrame_eccRead _ _ s).trans (millFrame_storeBytes h _)

/-- The state in which a fetch ends, a trap or not. -/
def fetchEnd : Except (Nat × Nat × State) (MillOp × Nat × State) → State
  | .ok (_, _, t) => t
  | .error (_, _, t) => t

/-- Decoding leaves the state. -/
theorem fetchEnd_decode (w imm : Nat) (s : State) : fetchEnd (s.millDecode m w imm) = s := by
  unfold State.millDecode
  split
  · rfl
  · split <;> rfl

/-- A fetch. -/
theorem millFrame_fetch (s : State) : MillFrame m kept s (fetchEnd (s.millFetch m)) := by
  unfold State.millFetch
  extract_lets q a e w imm
  split
  · exact .refl s
  · split
    · rw [fetchEnd_decode]
      exact .refl s
    · split
      · exact millFrame_eccRead _ _ s
      · rw [fetchEnd_decode]
        exact (millFrame_eccRead _ _ s).trans (millFrame_setMill _ _)

/-! ### Outcomes -/

/-- The state in which an outcome is made. -/
def MillOut.state : MillOut → State
  | .trap _ _ t => t
  | .seq _ t => t
  | .jump _ _ _ t => t
  | .skip _ t => t
  | .halt t => t

/-- An outcome finished changes the mill and posts at most its trap. -/
theorem millFrame_finish {out : MillOut} (h : MillFrame m kept s out.state) (stall n : Nat) (old : MillSt) :
    MillFrame m kept s (State.millFinish m stall n old out) := by
  cases out with
  | trap c a t => exact h.trans (millFrame_trap c a t)
  | seq w t => exact h.trans (millFrame_setMill _ t)
  | jump w target rte t => exact h.trans (millFrame_setMill _ t)
  | skip next t => exact h.trans (millFrame_setMill _ t)
  | halt t => exact h.trans (millFrame_setMill _ t)

/-- Either of two outcomes. -/
theorem millFrame_iteOut {c : Prop} [Decidable c] {out out' : MillOut} (h : MillFrame m kept s out.state)
    (h' : MillFrame m kept s out'.state) : MillFrame m kept s (if c then out else out').state := by
  split <;> assumption

/-- A data result. -/
theorem millFrame_aluOut (d : Option (Fin 16)) (sat : Bool) (x : Int) (c : Bool) (s : State) :
    MillFrame m kept s (aluOut m d sat x c s).state := millFrame_stickyIf _ _ _ s

/-- A logic result. -/
theorem millFrame_logicOut (d : Fin 16) (w : Word) (c : Bool) (s : State) : MillFrame m kept s (logicOut d w c s).state :=
  millFrame_free _ s

/-- An accumulator result. -/
theorem millFrame_accOut (ac : Fin 4) (sat : Bool) (x : Int) (s : State) : MillFrame m kept s (accOut m ac sat x s).state :=
  ((millFrame_setMill _ s).trans (millFrame_stickyIf _ _ _ _)).trans (millFrame_stickyIf _ _ _ _)

/-- A load into a register. -/
theorem millFrame_loadOut (d : Fin 16) (y : Bool) (w : Nat) (s : State) : MillFrame m kept s (loadOut m d y w s).state := by
  have h := millFrame_load (kept := kept) (m := m) y w s
  unfold loadOut
  split <;> rename_i hload <;> rwa [hload] at h

/-- A store of a register, where the bytes kept lie outside its word. -/
theorem millFrame_storeOut (d : Fin 16) {y : Bool} {w : Nat}
    (hkept : ∀ j, kept j → j < dataAddr m.val y w ∨ dataAddr m.val y w + 4 ≤ j) (s : State) :
    MillFrame m kept s (storeOut m d y w s).state := by
  have h := millFrame_store hkept (s.mill.mill[m].data[d]) s
  unfold storeOut
  split <;> rename_i hstore <;> rwa [hstore] at h

/-- An access through an address register, given what the access does at the generated address. -/
theorem millFrame_eaOut {y : Bool} {e : MillEa} {f : Nat → State → MillOut}
    (h : ∀ a p fold, (s.mill.mill[m]).genEa y e = .ok (a, p, fold) → MillFrame m kept s (f a s).state) :
    MillFrame m kept s (eaOut m y e f s).state := by
  unfold eaOut
  split
  · exact .refl s
  · next a p fold hea =>
    have hf := h a p fold hea
    split
    · next w t hseq =>
      rw [hseq] at hf
      exact hf.trans (millFrame_pointer e.n p fold t)
    · exact hf

/-- An access at an absolute address, given what it does. -/
theorem millFrame_absOut {y : Bool} {a : Nat} {f : Nat → State → MillOut} (h : MillFrame m kept s (f a s).state) :
    MillFrame m kept s (absOut y a f s).state := by
  by_cases hout : (if y then 0x5FFF else 0x63FF) < a
  · rw [absOut, absEa, if_pos hout]
    exact .refl s
  · rwa [absOut_ok f s (Nat.not_lt.1 hout)]

/-- MACXY and MSUXY. -/
theorem millFrame_dualOut (ac : Fin 4) (sat neg : Bool) (x y : MillEa) (s : State) :
    MillFrame m kept s (dualOut m ac sat neg x y s).state := by
  unfold dualOut
  extract_lets q
  split
  · exact .refl s
  split
  · exact .refl s
  next _ ax px fx hx _ ay py fy hy =>
  have hloadx := millFrame_load (kept := kept) (m := m) false ax s
  split
  · next hvx => rwa [hvx] at hloadx
  next vx t hvx =>
  rw [hvx] at hloadx
  have hloady := millFrame_load (kept := kept) (m := m) true ay t
  split
  · next hvy =>
    rw [hvy] at hloady
    exact hloadx.trans hloady
  next vy v hvy =>
  rw [hvy] at hloady
  exact (hloadx.trans hloady).trans
    (((millFrame_pointer _ _ _ v).trans (millFrame_pointer _ _ _ _)).trans (millFrame_accOut _ _ _ _))

/-! ### Rows -/

/-- A row stays within the frame if each outcome of its instructions does. -/
theorem millFrame_row {stall : Nat} {pick : MillOp → Option (State → MillOut)}
    (h : ∀ o f t, pick o = some f → MillFrame m kept t (f t).state) (s : State) :
    MillFrame m kept s (s.millRow m stall pick) := by
  have hfetch := millFrame_fetch (m := m) (kept := kept) s
  unfold State.millRow
  extract_lets q
  split
  · exact .refl s
  split
  · next c a t he =>
    rw [he] at hfetch
    exact hfetch.trans (millFrame_trap c a t)
  next o n t he =>
  rw [he] at hfetch
  split
  · exact .refl s
  next f hpick =>
  split
  · exact .refl s
  split
  · exact hfetch.trans (millFrame_trap 4 0 t)
  · exact millFrame_finish (hfetch.trans ((millFrame_setMill _ t).trans (h o f _ hpick))) _ _ _

/-- A row that answers stays within the frame if each outcome of its instructions does. -/
theorem millFrame_mill1 {stall : Nat} {pick : MillOp → Option (State → MillOut)}
    (h : ∀ o f t, pick o = some f → MillFrame m kept t (f t).state) (hu : s.mill1 m stall pick = .next u) :
    MillFrame m kept s u :=
  Host.Outcome.next.inj hu ▸ millFrame_row h s

/-- The state in which an instruction issues. -/
theorem Issues.frame {o : MillOp} {n : Nat} (h : Issues m o n s t) : MillFrame m kept s t := by
  obtain ⟨-, -, ⟨v, hfetch, rfl⟩, -⟩ := h
  have hv := millFrame_fetch (m := m) (kept := kept) s
  rw [hfetch] at hv
  exact hv.trans (millFrame_setMill _ v)

/-- A row whose instruction issues stays within the frame if its outcome does. -/
theorem Issues.frame_mill1 {o : MillOp} {n stall : Nat} {pick : MillOp → Option (State → MillOut)} {out : MillOut}
    (h : Issues m o n s t) (hpick : (pick o).map (· t) = some out) (hout : MillFrame m kept t out.state)
    (hu : s.mill1 m stall pick = .next u) : MillFrame m kept s u := by
  rw [mill1_of_issues h hpick] at hu
  exact Host.Outcome.next.inj hu ▸ millFrame_finish (h.frame.trans hout) _ _ _

end MillFrame

/-- The rows of instructions that store nothing stay within the frame, with every byte of memory. -/
theorem millFrame_of_not_store (m : Fin 4) (stall : Nat) (s u : State) : ∀ c ∈ [Instr.millNop m stall, .millHalt m stall,
      .millMov m stall, .millAdd m stall, .millSub m stall, .millNeg m stall, .millAbs m stall, .millMin m stall,
      .millMax m stall, .millAnd m stall, .millOr m stall, .millXor m stall, .millNot m stall, .millShl m stall, .millAsr m stall, .millLsr m stall,
      .millCmp m stall, .millMovi m stall, .millMovu m stall, .millLdx m stall, .millLdy m stall, .millMovai m stall,
      .millSetb m stall, .millSetl m stall, .millMovda m stall, .millMovad m stall, .millMpy m stall, .millMac m stall,
      .millMsu m stall, .millMacxy m stall, .millMsuxy m stall, .millClra m stall, .millAccld m stall, .millAccadd m stall,
      .millExt m stall, .millB m stall, .millCall m stall, .millRet m stall, .millLoop m stall, .millEndl m stall,
      .millRte m stall, .millClrf m stall, .millMovl m stall, .millAddl m stall, .millAndl m stall, .millCmpl m stall,
      .millLdxa m stall, .millLdya m stall], exec c s = .next u → MillFrame m (fun _ => True) s u := by
  simp only [List.forall_mem_cons, List.not_mem_nil, false_imp_iff, implies_true, and_true]
  refine ⟨?nop, ?halt, ?mov, ?add, ?sub, ?neg, ?abs, ?min, ?max, ?and, ?or, ?xor, ?not, ?shl, ?asr, ?lsr, ?cmp, ?movi, ?movu,
    ?ldx, ?ldy, ?movai, ?setb, ?setl, ?movda, ?movad, ?mpy, ?mac, ?msu, ?macxy, ?msuxy, ?clra, ?accld, ?accadd, ?ext, ?b, ?call, ?ret,
    ?loop, ?endl, ?rte, ?clrf, ?movl, ?addl, ?andl, ?cmpl, ?ldxa, ?ldya⟩
  case nop | halt | mov | movi | movu | movl | movad | b | ret =>
    refine millFrame_mill1 fun o f t hf => ?_
    split at hf <;> cases hf
    exact .refl t
  case movai | setb | setl | movda | endl | clrf =>
    refine millFrame_mill1 fun o f t hf => ?_
    split at hf <;> cases hf
    exact millFrame_setMill _ t
  case add | sub | neg | abs | cmp | shl | addl | cmpl =>
    refine millFrame_mill1 fun o f t hf => ?_
    split at hf <;> cases hf
    exact millFrame_aluOut _ _ _ _ t
  case min | max | and | or | xor | not | andl | asr | lsr =>
    refine millFrame_mill1 fun o f t hf => ?_
    split at hf <;> cases hf
    exact millFrame_logicOut _ _ _ t
  case mpy | mac | msu | clra | accld | accadd =>
    refine millFrame_mill1 fun o f t hf => ?_
    split at hf <;> cases hf
    exact millFrame_accOut _ _ _ t
  case macxy | msuxy =>
    refine millFrame_mill1 fun o f t hf => ?_
    split at hf <;> cases hf
    exact millFrame_dualOut _ _ _ _ _ t
  case ext =>
    refine millFrame_mill1 fun o f t hf => ?_
    split at hf <;> cases hf
    exact millFrame_stickyIf _ _ _ t
  case ldx | ldy =>
    refine millFrame_mill1 fun o f t hf => ?_
    split at hf <;> cases hf
    exact millFrame_eaOut fun _ _ _ _ => millFrame_loadOut _ _ _ t
  case ldxa | ldya =>
    refine millFrame_mill1 fun o f t hf => ?_
    split at hf <;> cases hf
    exact millFrame_absOut (millFrame_loadOut _ _ _ t)
  case call | rte =>
    refine millFrame_mill1 fun o f t hf => ?_
    split at hf <;> cases hf
    exact millFrame_iteOut (.refl t) (.refl t)
  case loop =>
    refine millFrame_mill1 fun o f t hf => ?_
    split at hf <;> cases hf
    exact millFrame_iteOut (.refl t) (millFrame_iteOut (.refl t) (millFrame_iteOut (.refl t) (millFrame_setMill _ t)))

/-- What the frame leaves: all but mill `m`, the events, the loop slots, the counts of memory errors, the free values, and the
bytes of memory that are not kept. -/
theorem MillFrame.leaves {m : Fin 4} {kept : Nat → Prop} {s u : State} (h : MillFrame m kept s u) :
    ((∀ k : Fin 4, k ≠ m → u.mill.mill[k] = s.mill.mill[k]) ∧ u.regs = s.regs ∧ u.now = s.now ∧ u.pending = s.pending ∧
      u.ramp = s.ramp ∧ u.door = s.door ∧ u.lock = s.lock ∧ u.lane = s.lane ∧ u.flash = s.flash ∧ u.pwr = s.pwr ∧
      u.lb = s.lb) ∧ ∀ a, kept a → u.cell a = s.cell a := by
  refine ⟨⟨h.mills, ?_⟩, h.cells⟩
  rw [h.rest]
  simp only [and_self]

/-- Settles O53: the rows that store nothing one by one; of a store, the state in which it issues and its outcome. -/
theorem millInstructionFrame : Obligations.MillInstructionFrame := by
  refine ⟨fun m stall s u c hc hu => ?plain, fun m stall s u t d e n w p fold => ⟨?stx, ?sty, ?stxa, ?stya⟩⟩
  case plain =>
    obtain ⟨hrest, hcells⟩ := (millFrame_of_not_store m stall s u c hc hu).leaves
    exact ⟨hrest, fun a => hcells a trivial⟩
  case stx | sty =>
    intro h hea hu
    refine (h.frame_mill1 rfl (millFrame_eaOut fun a q fold' hea' => ?_) hu).leaves
    cases hea.symm.trans hea'
    exact millFrame_storeOut d (fun _ => id) t
  case stxa | stya =>
    exact fun h hu => (h.frame_mill1 rfl (millFrame_absOut (millFrame_storeOut d (fun _ => id) t)) hu).leaves

end Sys2Proof.Machine

/-! ### The step and the state at reset (00_scope, R45, R524) -/

namespace Sys2Proof.Machine

/-- Settles O1: both sides of the queue's case split by definition. -/
theorem stepIsExecOfTheFrontCommand : Obligations.StepIsExecOfTheFrontCommand :=
  ⟨fun _ _ _ => rfl, fun _ hidle => by rw [step, hidle]⟩

/-- The event ring at reset has its shape (R44, R45). -/
theorem reset_ev_wf : State.reset.ev.wf = true := by
  have hrecords : State.reset.ev.recs.length = 256 := List.length_replicate
  have hread : State.reset.ev.rd = 0 := rfl
  have hwritten : State.reset.ev.wr = 0 := rfl
  simp only [EvSt.wf, EvSt.unread, hrecords, hread, hwritten, Bool.and_eq_true, decide_eq_true_eq]
  decide

/-- Settles O57: memory and ring are sound apart. -/
theorem resetStateSound : Obligations.ResetStateSound :=
  ⟨Bool.and_eq_true_iff.2 ⟨reset_mem_wf.1, reset_ev_wf⟩, reset_mem_wf.2, rfl⟩

end Sys2Proof.Machine

/-! ### What leaves the flash die

The life-cycle state and the transition being written stand in the flash die, which almost no operation of the model touches. Each
operation that leaves it has one `@[simp]` lemma saying so, in the order of the definitions; a composed one follows from its parts. -/

namespace Sys2Proof.Machine

@[simp] theorem ite_flash (c : Prop) [Decidable c] (a b : State) :
    (if c then a else b).flash = if c then a.flash else b.flash := apply_ite ..

@[simp] theorem foldl_flash {α : Type} {f : State → α → State} (h : ∀ s a, (f s a).flash = s.flash) (l : List α) (s : State) :
    (l.foldl f s).flash = s.flash := by
  induction l generalizing s with
  | nil => rfl
  | cons a l ih => rw [List.foldl_cons, ih, h]

@[simp] theorem State.freeWord_flash (s : State) : (State.freeWord s).2.flash = s.flash := rfl

@[simp] theorem State.freeUpTo_flash (n : Nat) (s : State) : (State.freeUpTo n s).2.flash = s.flash := rfl

@[simp] theorem State.putCells_flash (a : Nat) (l : List Byte) (s : State) : (s.putCells a l).flash = s.flash := by
  induction l generalizing a s with
  | nil => rfl
  | cons b l ih => exact ih (a + 1) (s.putCell a b)

@[simp] theorem State.eccRead_flash (a n : Nat) (s : State) : (s.eccRead a n).2.flash = s.flash := by
  have hfold := foldl_flash (fun s w => State.eccCorrect_flash s w) (s.mem.soft.filter (touches a n)) s
  unfold State.eccRead
  extract_lets t
  split
  · exact hfold
  · exact (State.eccFound_flash t _).trans hfold

@[simp] theorem State.storeBytes_flash (a : Nat) (bs : List Byte) (s : State) : (State.storeBytes a bs s).flash = s.flash := by
  simp [State.storeBytes]

@[simp] theorem State.storePart_flash (a : Nat) (bs : List Byte) (s : State) (w : Nat) :
    (State.storePart a bs s w).flash = s.flash := by simp [State.storePart]

@[simp] theorem State.storeMerged_flash (a : Nat) (bs : List Byte) (s : State) :
    (State.storeMerged a bs s).flash = s.flash := by simp [State.storeMerged]

@[simp] theorem State.putHard_flash (w : Nat) (s : State) : (State.putHard w s).flash = s.flash := by simp [State.putHard]

@[simp] theorem State.sendReceipt_flash (port : Fin 6) (src : Addr) (r : Receipt) (s : State) :
    (State.sendReceipt port src r s).flash = s.flash := by
  unfold State.sendReceipt
  split <;> simp

@[simp] theorem State.portSent_flash (port : Fin 6) (s : State) : (State.portSent port s).flash = s.flash := by
  unfold State.portSent
  split <;> simp

@[simp] theorem State.finish_flash (f : Finished) (s : State) : (State.finish f s).flash = s.flash := rfl

@[simp] theorem State.journal_flash (kind : Nat) (st : Status) (detail : Nat) (pm : Postmark) (hdr ctl : List Byte)
    (further : Word) (s : State) :
    (State.journal kind st detail pm hdr ctl further s).flash = s.flash := rfl

@[simp] theorem State.sessionDone_flash (port : Fin 6) (op16 : Nat) (s : State) :
    (State.sessionDone port op16 s).flash = s.flash := by
  unfold State.sessionDone
  split <;> simp

@[simp] theorem State.finalReceipt_flash (d : Deferred) (s : State) : (State.finalReceipt d s).flash = s.flash := by
  simp [State.finalReceipt]

@[simp] theorem State.completeIf_flash (mine : Outst → Bool) (pm : Postmark) (st : Status) (detail further : Nat) (s : State) :
    (State.completeIf mine pm st detail further s).flash = s.flash := by simp [State.completeIf]

@[simp] theorem State.completeAt_flash (pm : Postmark) (a : Action) (st : Status) (detail : Nat) (further : Nat) (s : State) :
    (State.completeAt pm a st detail further s).flash = s.flash := by simp [State.completeAt]

@[simp] theorem State.complete_flash (a : Action) (st : Status) (detail : Nat) (further : Nat) (s : State) :
    (State.complete a st detail further s).flash = s.flash := by simp [State.complete]

@[simp] theorem State.flushDeferred_flash (s : State) : (State.flushDeferred s).flash = s.flash := by simp [State.flushDeferred]

@[simp] theorem State.setPair_flash (a : Nat) (v : Int) (s : State) : (State.setPair a v s).flash = s.flash := rfl

@[simp] theorem State.moveSource_flash (c : Nat) (d : Int) (s : State) : (s.moveSource c d).flash = s.flash := by
  unfold State.moveSource
  rfl

@[simp] theorem State.tagFailure_flash (port : Fin 6) (s : State) : (State.tagFailure port s).flash = s.flash := rfl

@[simp] theorem State.answer_flash (opc k : Nat) (l : Letter) (gap : Bool) (st : Status) (detail : Nat) (further : Word)
    (tail : List Byte) (s : State) :
    (State.answer opc k l gap st detail further tail s).flash = s.flash := by simp [State.answer]

@[simp] theorem State.keepLetter_flash (opc : Nat) (p : List Byte) (s : State) :
    (State.keepLetter opc p s).flash = s.flash := by
  unfold State.keepLetter
  split <;> simp

@[simp] theorem State.abortLater_flash (opc k : Nat) (l : Letter) (refusal : Option (Status × Nat)) (s : State) :
    (State.abortLater opc k l refusal s).flash = s.flash := rfl

@[simp] theorem State.turnAway_flash (opc k : Nat) (l : Letter) (gap : Bool) (st : Status) (detail : Nat) (s : State) :
    (State.turnAway opc k l gap st detail s).flash = s.flash := by simp [State.turnAway]

@[simp] theorem State.reply_flash (opc k : Nat) (l : Letter) (gap : Bool) (r : Reply) (s : State) :
    (State.reply opc k l gap r s).flash = s.flash := by
  unfold State.reply
  split <;> simp

@[simp] theorem State.enqueue_flash (q : Queued) (s : State) : (State.enqueue q s).flash = s.flash := by simp [State.enqueue]

@[simp] theorem State.admitFrom_flash (l : List Queued) (s : State) : (State.admitFrom l s).flash = s.flash := by
  induction l generalizing s with
  | nil => rfl
  | cons q l ih =>
    rw [State.admitFrom]
    split
    · rw [ih, State.enqueue_flash]
    · rfl

@[simp] theorem State.admitHeld_flash (s : State) : (State.admitHeld s).flash = s.flash := by simp [State.admitHeld]

@[simp] theorem State.post5_flash (opc cls : Nat) (payload : List Byte) (s : State) :
    (State.post5 opc cls payload s).flash = s.flash := by simp [State.post5]

@[simp] theorem State.boxRefuse_flash (port : Fin 6) (src : Addr) (op16 : Nat) (seq : BitVec 16) (st : Status)
    (detail : Nat) (s : State) :
    (State.boxRefuse port src op16 seq st detail s).flash = s.flash := by simp [State.boxRefuse]

@[simp] theorem refuse_flash (st : Status) (detail : Nat) (s : State) : (refuse st detail s).2.flash = s.flash := rfl

@[simp] theorem refuseWith_flash (st : Status) (detail further : Nat) (s : State) :
    (refuseWith st detail further s).2.flash = s.flash := rfl

@[simp] theorem doneWith_flash (s : State) : (doneWith s).2.flash = s.flash := rfl

@[simp] theorem State.endTx_flash (c : Fin 3) (p : CanPend) (st : Status) (detail further : Nat) (s : State) :
    (State.endTx c p st detail further s).flash = s.flash := by simp [State.endTx]

@[simp] theorem State.cancelPend_flash (c : Fin 3) (ps : List CanPend) (detail : Nat) (counts : Bool) (s : State) :
    (State.cancelPend c ps detail counts s).flash = s.flash := by simp [State.cancelPend]

@[simp] theorem State.canState_flash (c : Fin 3) (m : Nat) (s : State) : (State.canState c m s).flash = s.flash := by
  simp [State.canState]

@[simp] theorem State.cancelTx_flash (c : Fin 3) (b : Fin 256) (s : State) : (State.cancelTx c b s).2.flash = s.flash := by
  unfold State.cancelTx
  extract_lets
  (repeat' split) <;> simp [*]

@[simp] theorem State.abortTx_flash (c : Fin 3) (b : Fin 256) (s : State) : (State.abortTx c b s).2.flash = s.flash := by
  unfold State.abortTx
  extract_lets
  (repeat' split) <;> simp [*]

@[simp] theorem State.lockWrite_flash (c : Fin 3) (w v : Nat) (s : State) : (State.lockWrite c w v s).flash = s.flash := rfl

@[simp] theorem State.groupDiscard_flash (s : State) : (State.groupDiscard s).flash = s.flash := rfl

@[simp] theorem State.rxOverrun_flash (c : Fin 3) (detail : Nat) (s : State) :
    (State.rxOverrun c detail s).flash = s.flash := rfl

@[simp] theorem State.rejectFrame_flash (c : Fin 3) (s : State) : (State.rejectFrame c s).flash = s.flash := rfl

@[simp] theorem State.storeBuf_flash (c : Fin 3) (b : Nat) (r : CanRec) (s : State) :
    (State.storeBuf c b r s).flash = s.flash := by
  unfold State.storeBuf
  extract_lets
  (repeat' split) <;> simp +zetaDelta

@[simp] theorem State.storeFifo_flash (c : Fin 3) (f : Nat) (r : CanRec) (s : State) :
    (State.storeFifo c f r s).flash = s.flash := by
  unfold State.storeFifo
  extract_lets
  (repeat' split) <;> simp [*]

@[simp] theorem State.filterFrame_flash (c : Fin 3) (f : CanFrame) (pm : Postmark) (s : State) :
    (State.filterFrame c f pm s).flash = s.flash := by
  unfold State.filterFrame
  dsimp only
  (repeat' split) <;> simp

@[simp] theorem State.canBusIn_flash (c : Fin 3) (n : Nat × Nat) (seen : BitVec 13) (s : State) :
    (State.canBusIn c n seen s).flash = s.flash := by
  unfold State.canBusIn
  extract_lets
  (repeat' split) <;> simp [*]

@[simp] theorem State.wakeRx_flash (c : Fin 3) (f : CanFrame) (ok : Bool) (s : State) :
    (State.wakeRx c f ok s).flash = s.flash := by simp [State.wakeRx]

@[simp] theorem State.fdForeign_flash (c : Fin 3) (x : BusIn) (s : State) : (State.fdForeign c x s).flash = s.flash := by
  simp [State.fdForeign]

@[simp] theorem State.twinPost_flash (c : Fin 3) (b : Fin 256) (s : State) : (State.twinPost c b s).flash = s.flash := rfl

@[simp] theorem State.histTrim_flash (k : Fin 3) (s : State) : (State.histTrim k s).flash = s.flash := rfl

@[simp] theorem State.clearHomed_flash (c : Nat) (s : State) : (State.clearHomed c s).flash = s.flash := rfl

@[simp] theorem State.encFault_flash (k : Fin 3) (kind : Nat) (s : State) : (State.encFault k kind s).flash = s.flash := rfl

@[simp] theorem State.encFaultNew_flash (k : Fin 3) (kind : Nat) (s : State) :
    (State.encFaultNew k kind s).flash = s.flash := by simp [State.encFaultNew]

@[simp] theorem State.setCh_flash (k : Fin 3) (q : EncCh) (s : State) : (State.setCh k q s).flash = s.flash := rfl

@[simp] theorem State.encCount_flash (k : Fin 3) (t : Nat) (d : Int) (s : State) :
    (State.encCount k t d s).flash = s.flash := by simp [State.encCount]

@[simp] theorem State.abStep_flash (k : Fin 3) (x : EncSample) (s : State) : (State.abStep k x s).flash = s.flash := by
  simp [State.abStep]

@[simp] theorem State.sinStep_flash (k : Fin 3) (x : EncSample) (s : State) : (State.sinStep k x s).flash = s.flash := by
  simp [State.sinStep]

@[simp] theorem State.hallSample_flash (k : Fin 3) (x : EncSample) (s : State) : (State.hallSample k x s).flash = s.flash := by
  simp [State.hallSample]

@[simp] theorem State.encStep_flash (k : Fin 3) (s : State) (x : EncSample) : (s.encStep k x).flash = s.flash := by
  unfold State.encStep
  extract_lets _ t
  have ht : t.flash = s.flash := by unfold t; split <;> rfl
  split <;> simp [ht]

@[simp] theorem State.encRun_flash (k : Fin 3) (l : List EncSample) (s : State) : (State.encRun k l s).flash = s.flash := by
  simp [State.encRun]

@[simp] theorem State.encLine_flash (k : Fin 3) (ok : Bool) (s : State) : (State.encLine k ok s).flash = s.flash := by
  simp [State.encLine]

@[simp] theorem State.encFaultClear_flash (k : Fin 3) (s : State) : (State.encFaultClear k s).flash = s.flash := by
  simp [State.encFaultClear]

@[simp] theorem State.encRevive_flash (k : Fin 3) (s : State) : (State.encRevive k s).flash = s.flash := by
  simp [State.encRevive]

@[simp] theorem State.encStart_flash (k : Fin 3) (s : State) : (State.encStart k s).flash = s.flash := rfl

@[simp] theorem State.encEnable_flash (k : Fin 3) (s : State) : (State.encEnable k s).flash = s.flash := by
  simp [State.encEnable]

@[simp] theorem State.encDisable_flash (k : Fin 3) (s : State) : (State.encDisable k s).flash = s.flash := rfl

@[simp] theorem State.encLatch_flash (k : Fin 3) (x : EncIn) (s : State) : (State.encLatch k x s).flash = s.flash := by
  simp [State.encLatch]

@[simp] theorem State.ssiLatch_flash (s : State) : (State.ssiLatch s).flash = s.flash := by
  unfold State.ssiLatch
  extract_lets
  (repeat' split) <;> simp +zetaDelta

@[simp] theorem State.carLatch_flash (s : State) : (State.carLatch s).flash = s.flash := by
  unfold State.carLatch
  (repeat' split) <;> simp

@[simp] theorem State.tripCheck_flash (k : Fin 3) (s : State) : (State.tripCheck k s).flash = s.flash := by
  simp [State.tripCheck]

@[simp] theorem State.sdStep_flash (k : Fin 3) (s : State) (b : Bool) : (State.sdStep k s b).flash = s.flash := by
  simp [State.sdStep]

@[simp] theorem State.sdRun_flash (k : Fin 3) (bits : List Bool) (s : State) : (State.sdRun k bits s).flash = s.flash := by
  simp [State.sdRun]

@[simp] theorem State.sdLatch_flash (k : Fin 3) (bits : List Bool) (s : State) : (State.sdLatch k bits s).flash = s.flash := by
  simp [State.sdLatch]

@[simp] theorem State.sdSwitch_flash (k : Fin 3) (s : State) : (State.sdSwitch k s).flash = s.flash := by simp [State.sdSwitch]

@[simp] theorem State.adcLatch_flash (k : Fin 16) (conv : List (Fin 4096)) (s : State) :
    (State.adcLatch k conv s).flash = s.flash := by
  unfold State.adcLatch
  split <;> simp

@[simp] theorem State.loadLatch_flash (s : State) : s.loadLatch.flash = s.flash := by
  unfold State.loadLatch
  extract_lets
  (repeat' split) <;> rfl

@[simp] theorem State.landLatch_flash (s : State) : (State.landLatch s).flash = s.flash := by
  unfold State.landLatch
  extract_lets
  (repeat' split) <;> simp [*]

@[simp] theorem State.cmpLatch_flash (s : State) : (State.cmpLatch s).flash = s.flash := by simp [State.cmpLatch]

@[simp] theorem State.senseLatch_flash (x : TickIn) (s : State) : (State.senseLatch x s).flash = s.flash := by
  simp [State.senseLatch]

/-- The state in which an operation ends that reads the memory, with its result or with the word that it could not read. -/
def lastState {α β : Type} : Except (α × State) (β × State) → State
  | .error e => e.2
  | .ok r => r.2

@[simp] theorem State.cogging_flash (angle : Nat) (s : State) : (lastState (s.cogging angle)).flash = s.flash := by
  unfold State.cogging
  extract_lets a i j e
  split
  · exact State.eccRead_flash _ _ s
  · split <;> exact (State.eccRead_flash _ _ _).trans (State.eccRead_flash _ _ s)

@[simp] theorem State.friction_flash (i : Fin 16) (s : State) : (s.friction i).2.flash = s.flash := by
  unfold State.friction
  extract_lets
  split <;> rfl

@[simp] theorem State.tcf_flash (i : Fin 16) (angle : Nat) (s : State) : (lastState (s.tcf i angle)).flash = s.flash := by
  have hcog := State.cogging_flash angle s
  unfold State.tcf
  extract_lets q cog fric
  split
  · rfl
  split <;> rename_i heq
  · split at heq
    · rwa [heq] at hcog
    · cases heq
  · rename_i t
    have ht : t.flash = s.flash := by
      split at heq
      · rwa [heq] at hcog
      · cases heq; rfl
    extract_lets f u
    refine Eq.trans ?_ ht
    show u.flash = t.flash
    unfold u f
    split
    · exact State.friction_flash i t
    · rfl

@[simp] theorem State.injection_flash (i : Fin 16) (s : State) : (lastState (s.injection i)).flash = s.flash := by
  unfold State.injection
  extract_lets q c m
  split
  · rfl
  extract_lets a e s1 _ s2 s3
  have h2 : s2.flash = s.flash := by
    unfold s2
    split <;> exact State.eccRead_flash _ _ s
  have h3 : s3.flash = s.flash := by
    unfold s3
    split <;> simp [h2]
  split <;> exact h3

@[simp] theorem State.keepOutput_flash (i : Fin 16) (blk : Bool) (s : State) : (State.keepOutput i blk s).flash = s.flash := rfl

@[simp] theorem State.loopOverrun_flash (i : Fin 16) (w : Nat) (blk : Bool) (s : State) :
    (State.loopOverrun i w blk s).flash = s.flash := rfl

@[simp] theorem State.switchMode_flash (i : Fin 16) (rd : Nat → Int) (blk : Bool) (s : State) :
    (State.switchMode i rd blk s).flash = s.flash := by
  unfold State.switchMode
  extract_lets
  (repeat' split) <;> simp [*]

@[simp] theorem State.coefStep_flash (i : Fin 16) (s : State) : (State.coefStep i s).2.flash = s.flash := rfl

@[simp] theorem State.lawSample_flash (i : Fin 16) (rd : Nat → Int) (angle : Nat) (blk chg : Bool) (old : List Int) (s : State) :
    (s.lawSample i rd angle blk chg old).1.flash = s.flash := by
  unfold State.lawSample
  extract_lets q fs rc g rv fv raw r s1 q1 s2
  have h1 : s1.flash = s.flash := by unfold s1; split <;> rfl
  have hinj : (lastState (s2.injection i)).flash = s.flash := (State.injection_flash i s2).trans h1
  have hlost : (match s2.injection i with | .error (w, u) => u.memUncorr w | .ok (_, u) => u).flash = s.flash := by
    split <;> rename_i heq <;> rw [heq] at hinj <;> exact hinj
  split
  · exact hlost
  split
  · next heq => rw [heq] at hinj; exact hinj
  next t heq =>
    rw [heq] at hinj
    have htcf := (State.tcf_flash i angle t).trans hinj
    split <;> rename_i heq' <;> rw [heq'] at htcf <;> exact htcf

@[simp] theorem State.slotCompute_flash (i : Fin 16) (rd : Nat → Int) (angle : Nat) (s : State) :
    (s.slotCompute i rd angle).1.flash = s.flash := by
  unfold State.slotCompute
  split
  · rfl
  extract_lets blk s1 old cs s2 blk2 q idle
  have h2 : s2.flash = s.flash := (State.coefStep_flash i s1).trans (State.switchMode_flash i rd blk s)
  have hinj := (State.injection_flash i s2).trans h2
  split
  · exact h2
  · split <;> simp [h2]
  · split <;> simp [h2]
  · split <;> rename_i heq <;> rw [heq] at hinj
    · exact (State.loopOverrun_flash ..).trans hinj
    · extract_lets
      (repeat' split) <;> exact hinj

@[simp] theorem State.slotSample_flash (i : Fin 16) (rd : Nat → Int) (angle : Nat) (s : State) :
    (State.slotSample i rd angle s).flash = s.flash := by simp [State.slotSample]

@[simp] theorem State.tickSlots_flash (s : State) : (State.tickSlots s).flash = s.flash := by simp [State.tickSlots]

@[simp] theorem State.loadSet_flash (i : Fin 16) (b : Bool) (region : Nat) (s : State) :
    (State.loadSet i b region s).flash = s.flash := by
  unfold State.loadSet
  extract_lets
  (repeat' split) <;> simp +zetaDelta

@[simp] theorem State.loadBanks_flash (bnd : Nat) (s : State) : (State.loadBanks bnd s).flash = s.flash := by
  simp [State.loadBanks]

@[simp] theorem State.schedTick_flash (s : State) : (State.schedTick s).flash = s.flash := by simp [State.schedTick]

@[simp] theorem State.notchTick_flash (s : State) : (State.notchTick s).flash = s.flash := by
  unfold State.notchTick
  extract_lets
  (repeat' split) <;> simp [*]

@[simp] theorem State.brakeProfile_flash (b : Fin 2) (s : State) : (State.brakeProfile b s).flash = s.flash := by
  simp [State.brakeProfile]

@[simp] theorem State.brakePwm_flash (b : Fin 2) (s : State) : (State.brakePwm b s).flash = s.flash := rfl

@[simp] theorem State.capStep_flash (clock : Nat) (s : State) : (State.capStep clock s).flash = s.flash := by
  unfold State.capStep
  split <;> simp

@[simp] theorem State.loopTick_flash (s : State) : (State.loopTick s).flash = s.flash := by simp [State.loopTick]

@[simp] theorem State.putLimits_flash (u : Fin 4) (l : Limits) (s : State) : (State.putLimits u l s).flash = s.flash := rfl

@[simp] theorem State.untail_flash (u : Fin 4) (s : State) : (State.untail u s).flash = s.flash := by simp [State.untail]

@[simp] theorem State.endMove_flash (u : Fin 4) (st : Status) (detail further : Nat) (s : State) :
    (State.endMove u st detail further s).flash = s.flash := by simp [State.endMove]

@[simp] theorem State.stopEnd_flash (u : Fin 4) (s : State) : (State.stopEnd u s).flash = s.flash := by
  unfold State.stopEnd
  dsimp only
  (repeat' split) <;> simp

@[simp] theorem State.orderStop_flash (u : Fin 4) (hard : Bool) (w : StopWhy) (s : State) :
    (State.orderStop u hard w s).flash = s.flash := rfl

@[simp] theorem State.planTick_flash (u : Fin 4) (hard : Bool) (ph : List StopPhase) (e : Int) (n : Nat) (s : State) :
    (State.planTick u hard ph e n s).flash = s.flash := by
  unfold State.planTick
  split <;> simp

@[simp] theorem State.startPlan_flash (u : Fin 4) (hard : Bool) (l : Limits) (p v a : Int) (s : State) :
    (State.startPlan u hard l p v a s).flash = s.flash := by simp [State.startPlan]

@[simp] theorem State.stepsTick_flash (u : Fin 4) (hard up : Bool) (v num den : Nat) (s : State) :
    (State.stepsTick u hard up v num den s).flash = s.flash := by simp [State.stepsTick]

@[simp] theorem State.readSeg_flash (u : Fin 4) (x : SegRun) (i : Nat) (s : State) :
    (State.readSeg u x i s).flash = s.flash := by
  unfold State.readSeg
  dsimp only
  (repeat' split) <;> simp

@[simp] theorem State.runTick_flash (u : Fin 4) (x : SegRun) (stop : Option Bool) (s : State) :
    (State.runTick u x stop s).flash = s.flash := by
  unfold State.runTick
  extract_lets
  (repeat' split) <;> simp +zetaDelta

@[simp] theorem State.trapReached_flash (u : Fin 4) (t : TrapRun) (s : State) : (State.trapReached u t s).flash = s.flash := by
  unfold State.trapReached
  extract_lets
  (repeat' split) <;> simp [*]

@[simp] theorem State.trapRunTick_flash (u : Fin 4) (t0 : TrapRun) (newDec : Bool) (stop : Option Bool) (s : State) :
  (s.trapRunTick u t0 newDec stop).flash = s.flash := by
  unfold State.trapRunTick
  extract_lets q l t r s1 d last ends _ x s2 _ o s3 s4 r2
  have h2 : s2.flash = s.flash := by unfold s2; split <;> rfl
  have h4 : s4.flash = s.flash := by unfold s4 s3; (repeat' split) <;> rfl
  have h1 : s1.flash = s.flash := rfl
  split
  · (repeat' split) <;>
      simp only [State.complete_flash, State.trapReached_flash, State.stopEnd_flash, State.stepsTick_flash, State.setRamp_flash, h1,
        h2]
  · split <;> simp only [State.trapReached_flash, State.endMove_flash, State.setRamp_flash, h4]

@[simp] theorem State.permitTick_flash (u : Fin 4) (p : Nat) (s : State) : (State.permitTick u p s).flash = s.flash := by
  simp [State.permitTick]

@[simp] theorem State.profileTick_flash (u : Fin 4) (s : State)  :
  (s.profileTick u).flash = s.flash := by
  unfold State.profileTick
  extract_lets r oldDec newDec s1 p _ q s2 s3
  have h1 : s1.flash = s.flash := by unfold s1; split <;> simp
  have h2 : s2.flash = s.flash := h1
  have h3 : s3.flash = s.flash := h1
  split
  · exact (State.permitTick_flash ..).trans h1
  (repeat' split) <;> simp only [State.stopEnd_flash, State.runTick_flash, State.trapRunTick_flash, State.stepsTick_flash,
    State.planTick_flash, State.untail_flash, State.setRamp_flash, ite_flash, ite_self, h2, h3]

@[simp] theorem State.homingTick_flash (u : Fin 4) (s : State) : (State.homingTick u s).flash = s.flash := by
  unfold State.homingTick
  extract_lets
  (repeat' split) <;> simp [*]

@[simp] theorem State.gearTick_flash (u : Fin 4) (s : State) : (State.gearTick u s).flash = s.flash := by simp [State.gearTick]

@[simp] theorem State.rampTick_flash (u : Fin 4) (s : State) : (State.rampTick u s).flash = s.flash := by simp [State.rampTick]

@[simp] theorem State.rampTicks_flash (s : State) : (State.rampTicks s).flash = s.flash := by simp [State.rampTicks]

@[simp] theorem State.doorTo_flash (st : Nat) (s : State) : (State.doorTo st s).flash = s.flash := by simp [State.doorTo]

@[simp] theorem State.doorUnknown_flash (s : State) : (State.doorUnknown s).flash = s.flash := rfl

@[simp] theorem State.doorFail_flash (detail : Nat) (s : State) : (State.doorFail detail s).flash = s.flash := by
  simp [State.doorFail]

@[simp] theorem State.foldGear_flash (u : Fin 4) (s : State) : (State.foldGear u s).flash = s.flash := by simp [State.foldGear]

@[simp] theorem State.startDoor_flash (target : Int) (vlim k : Nat) (s : State) :
    (State.startDoor target vlim k s).flash = s.flash := by simp [State.startDoor]

@[simp] theorem State.openDoor_flash (k : Nat) (s : State) : (State.openDoor k s).flash = s.flash := by simp [State.openDoor]

@[simp] theorem State.closeDoor_flash (k : Nat) (nudge : Bool) (since : Postmark) (s : State) :
    (State.closeDoor k nudge since s).flash = s.flash := by simp [State.closeDoor]

@[simp] theorem State.homingClose_flash (k : Nat) (nudge : Bool) (since : Postmark) (s : State) :
    (State.homingClose k nudge since s).flash = s.flash := by simp [State.homingClose]

@[simp] theorem State.openSoon_flash (k : Nat) (s : State) : (State.openSoon k s).flash = s.flash := by simp [State.openSoon]

@[simp] theorem State.closeSoon_flash (k : Nat) (nudge : Bool) (s : State) : (State.closeSoon k nudge s).flash = s.flash := by
  simp [State.closeSoon]

@[simp] theorem State.haltUnit_flash (s : State) : (State.haltUnit s).flash = s.flash := rfl

@[simp] theorem State.stageOff_flash (s : State) : (State.stageOff s).flash = s.flash := by simp [State.stageOff]

@[simp] theorem State.doorSwitch_flash (s : State) : (State.doorSwitch s).flash = s.flash := by simp [State.doorSwitch]

@[simp] theorem State.doorPermitCheck_flash (s : State) : (State.doorPermitCheck s).flash = s.flash := by
  simp [State.doorPermitCheck]

@[simp] theorem State.doorModeTick_flash (s : State) : (State.doorModeTick s).flash = s.flash := by
  unfold State.doorModeTick
  split <;> simp

@[simp] theorem State.doorLimTick_flash (s : State) : (State.doorLimTick s).flash = s.flash := by
  unfold State.doorLimTick
  split <;> simp

@[simp] theorem State.doorEstimate_flash (s : State) : (State.doorEstimate s).flash = s.flash := by simp [State.doorEstimate]

@[simp] theorem State.doorStopTick_flash (s : State) : (State.doorStopTick s).flash = s.flash := by
  unfold State.doorStopTick
  dsimp only
  (repeat' split) <;> simp

@[simp] theorem State.homingContact_flash (s : State) : s.homingContact.flash = s.flash := by
  unfold State.homingContact
  (repeat' split) <;> simp

@[simp] theorem State.doorPre_flash (s : State) : (State.doorPre s).flash = s.flash := by simp [State.doorPre]

@[simp] theorem State.closedLocked_flash (s : State) : (State.closedLocked s).flash = s.flash := by simp [State.closedLocked]

@[simp] theorem State.reachClosed_flash (s : State) : (State.reachClosed s).flash = s.flash := by simp [State.reachClosed]

theorem doorStateTick_closing_flash (s : State) (u : Fin 4) (still : Bool) (failed : Option (Nat × Nat)) :
    (State.doorStateTick.closing s u still failed).flash = s.flash := by
  unfold State.doorStateTick.closing
  (repeat' split) <;> simp

theorem doorStateTick_preopen_flash (s : State) : (State.doorStateTick.preopen s).flash = s.flash := by
  unfold State.doorStateTick.preopen
  extract_lets
  split <;> simp

@[simp] theorem State.doorStateTick_flash (s : State) : s.doorStateTick.flash = s.flash := by
  unfold State.doorStateTick
  extract_lets u r d still failed held t k x
  have ht : t.flash = s.flash := by simp only [t, State.complete_flash, State.doorTo_flash, State.setDoor_flash]
  clear_value x failed still t d
  (repeat' split) <;> simp only [State.closeDoor_flash, State.openDoor_flash, State.complete_flash, State.doorTo_flash,
    State.setDoor_flash, State.homingClose_flash, State.reachClosed_flash, State.startDoor_flash, State.doorUnknown_flash,
    State.closedLocked_flash, doorStateTick_closing_flash, doorStateTick_preopen_flash, ht]

@[simp] theorem State.doorSteps_flash (s : State) : (State.doorSteps s).flash = s.flash := by simp [State.doorSteps]

@[simp] theorem State.doorStopEnd_flash (s : State) : (State.doorStopEnd s).flash = s.flash := by
  unfold State.doorStopEnd
  (repeat' split) <;> simp

@[simp] theorem State.doorForceTick_flash (s : State) : (State.doorForceTick s).flash = s.flash := by simp [State.doorForceTick]

@[simp] theorem State.doorPost_flash (s : State) : (State.doorPost s).flash = s.flash := by simp [State.doorPost]

@[simp] theorem State.reverseDoor_flash (s : State) : (State.reverseDoor s).flash = s.flash := by simp [State.reverseDoor]

@[simp] theorem State.outRefresh_flash (s : State) : (State.outRefresh s).flash = s.flash := rfl

@[simp] theorem State.latchOut_flash (k : Fin 32) (kind : Nat) (s : State) : (State.latchOut k kind s).flash = s.flash := rfl

@[simp] theorem State.inputsBack_flash (s : State) : (State.inputsBack s).flash = s.flash := by simp [State.inputsBack]

@[simp] theorem State.restoreGroup_flash (g : Nat) (s : State) : (State.restoreGroup g s).flash = s.flash := rfl

@[simp] theorem State.shedOne_flash (g : Nat) (s : State) : (State.shedOne g s).flash = s.flash := by
  unfold State.shedOne
  split <;> simp

@[simp] theorem State.standbyTick_flash (s : State) : (State.standbyTick s).flash = s.flash := by simp [State.standbyTick]

@[simp] theorem State.counterTick_flash (s : State) : (State.counterTick s).flash = s.flash := by simp [State.counterTick]

@[simp] theorem State.fioTick_flash (s : State) : (State.fioTick s).flash = s.flash := by simp [State.fioTick]

@[simp] theorem State.invAct_flash (s : State) : (State.invAct s).flash = s.flash := by simp [State.invAct]

@[simp] theorem State.linkOffClear_flash (s : State) : (State.linkOffClear s).flash = s.flash := rfl

@[simp] theorem State.stepTime_flash (d : Int) (s : State) : (State.stepTime d s).flash = s.flash := rfl

@[simp] theorem State.groupSteer_flash (l g : Nat) (busB : Bool) (t : Nat) (s : State) :
    (State.groupSteer l g busB t s).flash = s.flash := by
  unfold State.groupSteer
  extract_lets
  (repeat' split) <;> simp [*]

@[simp] theorem State.leaveGroup_flash (st : Status) (detail further : Nat) (s : State) :
    (State.leaveGroup st detail further s).flash = s.flash := by simp [State.leaveGroup]

@[simp] theorem State.numberTwin_flash (s : State) : (State.numberTwin s).flash = s.flash := by simp [State.numberTwin]

@[simp] theorem State.groupWordBad_flash (w : Nat) (s : State) : (State.groupWordBad w s).flash = s.flash := by
  simp [State.groupWordBad]

@[simp] theorem State.groupRead_flash (s : State) : s.groupRead.2.flash = s.flash := by
  unfold State.groupRead
  extract_lets h t
  have ht : t.flash = s.flash := foldl_flash (fun s w => State.eccCorrect_flash s w) _ s
  exact (foldl_flash (fun s w => State.eccFound_flash s w) h t).trans ht

@[simp] theorem State.followDigest_flash (s : State) : (State.followDigest s).flash = s.flash := by
  unfold State.followDigest
  extract_lets
  (repeat' split) <;> simp +zetaDelta

@[simp] theorem State.closeSlots_flash (s : State) : (State.closeSlots s).flash = s.flash := by
  unfold State.closeSlots
  dsimp only
  (repeat' split) <;> simp

@[simp] theorem State.sealTables_flash (k : Nat) (s : State) : (State.sealTables k s).flash = s.flash := by
  simp [State.sealTables]

@[simp] theorem State.seal_flash (k old : Nat) (a b : Option Postmark) (first : Bool) (s : State) :
    (State.seal k old a b first s).flash = s.flash := by simp [State.seal]

@[simp] theorem State.busRound_flash (b : Fin 2) (had otherHad : Bool) (s : State) :
    (State.busRound b had otherHad s).flash = s.flash := by simp [State.busRound]

@[simp] theorem State.strokeByState_flash (k old : Nat) (a b : Option Postmark) (s : State) :
    (State.strokeByState k old a b s).flash = s.flash := by
  unfold State.strokeByState
  extract_lets
  (repeat' split) <;> simp +zetaDelta

@[simp] theorem State.lateClose_flash (s : State) : (State.lateClose s).flash = s.flash := by simp [State.lateClose]

@[simp] theorem State.validStroke_flash (x : StrokeIn) (own : Bool) (a b : Option Postmark) (busB : Bool) (t : Postmark)
    (s : State) :
    (State.validStroke x own a b busB t s).flash = s.flash := by simp [State.validStroke]

@[simp] theorem State.strokeIn_flash (x : StrokeIn) (s : State) : (State.strokeIn x s).flash = s.flash := by
  unfold State.strokeIn
  extract_lets
  (repeat' split) <;> simp [*]

@[simp] theorem State.yieldBell_flash (x : StrokeIn) (s : State) : (State.yieldBell x s).flash = s.flash := rfl

@[simp] theorem State.strokeFrom_flash (x : StrokeIn) (s : State) : (State.strokeFrom x s).flash = s.flash := by
  unfold State.strokeFrom
  extract_lets
  (repeat' split) <;> simp [*]

@[simp] theorem State.takeBell_flash (k : Nat) (s : State) : (State.takeBell k s).flash = s.flash := rfl

@[simp] theorem State.slotBad_flash (car cause : Nat) (s : State) : (State.slotBad car cause s).flash = s.flash := rfl

@[simp] theorem State.requestFrame_flash (cancel busB : Bool) (panel sender : Nat) (data : Nat) (s : State) :
    (State.requestFrame cancel busB panel sender data s).flash = s.flash := by simp [State.requestFrame]

@[simp] theorem State.allBusesLost_flash (s : State) : (State.allBusesLost s).flash = s.flash := by simp [State.allBusesLost]

@[simp] theorem setTable_flash (len : List Byte → Nat) (bad : List Byte → Option Nat) (put : List Byte → GroupSt → GroupSt)
    (l : Letter) (s : State) :
    (setTable len bad put l s).2.flash = s.flash := by
  unfold setTable
  extract_lets
  (repeat' split) <;> simp +zetaDelta

@[simp] theorem State.sumCheck_flash (i : Vector Int 3) (s : State) : (State.sumCheck i s).flash = s.flash := by
  simp [State.sumCheck]

@[simp] theorem State.clarkePark_flash (i : Vector Int 3) (theta : Nat) (s : State) :
    (State.clarkePark i theta s).flash = s.flash := rfl

/-- A fold whose every step leaves the flash of the state beside its result leaves it. -/
theorem foldl_fst_flash {α β : Type} {f : State × β → α → State × β} (h : ∀ r a, (f r a).1.flash = r.1.flash) (l : List α)
    (r : State × β) : (l.foldl f r).1.flash = r.1.flash := by
  induction l generalizing r with
  | nil => rfl
  | cons a l ih => rw [List.foldl_cons, ih, h]

@[simp] theorem State.curSlots_flash (angle : Nat) (s : State) : (s.curSlots angle).1.flash = s.flash := by
  unfold State.curSlots
  refine foldl_fst_flash (fun r i => ?_) _ (s, [])
  extract_lets
  split
  · exact State.slotCompute_flash ..
  · rfl

/-- The same with the state as second part. -/
theorem foldl_snd_flash {α β : Type} {f : β × State → α → β × State} (h : ∀ r a, (f r a).2.flash = r.2.flash) (l : List α)
    (r : β × State) : (l.foldl f r).2.flash = r.2.flash := by
  induction l generalizing r with
  | nil => rfl
  | cons a l ih => rw [List.foldl_cons, ih, h]

@[simp] theorem State.curCommit_flash (lim : Bool) (cs : List (Fin 16 × Commit)) (s : State) :
    (s.curCommit lim cs).flash = s.flash := by
  unfold State.curCommit
  extract_lets t
  have ht : t.flash = s.flash := foldl_flash (fun _ _ => State.setSlot_flash ..) cs s
  refine (foldl_flash (fun u i => ?_) _ t).trans ht
  dsimp only
  split <;> rfl

@[simp] theorem State.modulate_flash (i : Vector Int 3) (cs : List (Fin 16 × Commit)) (s : State) :
    (State.modulate i cs s).flash = s.flash := by simp [State.modulate]

@[simp] theorem State.lockTick_flash (s : State) : (State.lockTick s).flash = s.flash := rfl

@[simp] theorem State.snapshot_flash (i : List Byte) (s : State) : (State.snapshot i s).flash = s.flash := rfl

@[simp] theorem State.sampleTaps_flash (i : List Byte) (mv : Vector Nat 12) (s : State) :
    (State.sampleTaps i mv s).flash = s.flash := by simp [State.sampleTaps]

@[simp] theorem State.delaySteps_flash (i : List Byte) (s : State) : (State.delaySteps i s).flash = s.flash := rfl

@[simp] theorem State.bypassStep_flash (i : List Byte) (s : State) : (s.bypassStep i).flash = s.flash := by
  unfold State.bypassStep
  extract_lets b new t
  exact foldl_flash (fun _ _ => State.post_flash ..) new s

@[simp] theorem State.bridgeFail_flash (s : State) : (State.bridgeFail s).flash = s.flash := by simp [State.bridgeFail]

@[simp] theorem State.bridgeStart_flash (i : List Byte) (s : State) : (State.bridgeStart i s).flash = s.flash := by
  simp [State.bridgeStart]

@[simp] theorem State.bridgeStep_flash (i : List Byte) (s : State) : (State.bridgeStep i s).flash = s.flash := by
  unfold State.bridgeStep
  extract_lets
  (repeat' split) <;> simp +zetaDelta

@[simp] theorem State.ucmStep_flash (i : List Byte) (p : Int) (s : State) : (s.ucmStep i p).flash = s.flash := by
  unfold State.ucmStep
  extract_lets code pol _ pos rel w valid t
  split
  · rfl
  have ht : t.flash = s.flash := by
    unfold t
    split
    · rfl
    · simp
  (repeat' split) <;> exact ht

@[simp] theorem State.termStep_flash (s : State) : (State.termStep s).flash = s.flash := rfl

@[simp] theorem State.permitStep_flash (s : State) : (State.permitStep s).flash = s.flash := rfl

@[simp] theorem State.stoTestEnd_flash (st : Status) (detail further : Nat) (s : State) :
    (State.stoTestEnd st detail further s).flash = s.flash := by simp [State.stoTestEnd]

@[simp] theorem State.gateStep_flash (s : State) : (State.gateStep s).flash = s.flash := by
  unfold State.gateStep
  split <;> simp

@[simp] theorem State.reMatrix_flash (s : State) : (State.reMatrix s).flash = s.flash := by
  unfold State.reMatrix
  dsimp only
  (repeat' split) <;> simp

@[simp] theorem State.evaluate_flash (x : EvalIn) (s : State) : (s.evaluate x).flash = s.flash := by
  unfold State.evaluate
  extract_lets _ s1 _ _ s2 s3 l s4
  have h2 : s2.flash = s.flash := by
    unfold s2
    split <;> simp [s1]
  have h4 : s4.flash = s.flash := by
    unfold s4 s3
    split <;> simp [h2]
  simp [h4]

@[simp] theorem State.imageFails_flash (n : Nat) (s : State) : (State.imageFails n s).flash = s.flash := rfl

@[simp] theorem State.switchImage_flash (b : List Byte) (s : State) : (State.switchImage b s).flash = s.flash := rfl

@[simp] theorem State.causeClear_flash (v : Nat) (s : State) : (State.causeClear v s).flash = s.flash := by
  simp [State.causeClear]

@[simp] theorem State.imageLoad_flash (img : Option (List Byte)) (s : State) : (State.imageLoad img s).flash = s.flash := by
  unfold State.imageLoad
  split <;> simp

@[simp] theorem State.gapBegins_flash (s : State) : (State.gapBegins s).flash = s.flash := rfl

@[simp] theorem State.sealCut_flash (s : State) : (State.sealCut s).flash = s.flash := by simp [State.sealCut]

@[simp] theorem State.sealTick_flash (s : State) : (State.sealTick s).flash = s.flash := by simp [State.sealTick]

@[simp] theorem State.heartbeat_flash (arrives : Bool) (s : State) : (State.heartbeat arrives s).flash = s.flash := by
  unfold State.heartbeat
  extract_lets
  (repeat' split) <;> simp [*]

@[simp] theorem State.wdogTick_flash (service : Bool) (s : State) : (State.wdogTick service s).flash = s.flash := by
  simp [State.wdogTick]

@[simp] theorem State.laneTick_flash (arrives service : Bool) (s : State) :
    (State.laneTick arrives service s).flash = s.flash := by simp [State.laneTick]

@[simp] theorem State.countFault_flash (b : Bool) (s : State) : (State.countFault b s).flash = s.flash := rfl

@[simp] theorem State.afterFault_flash (b : Bool) (s : State) : (State.afterFault b s).flash = s.flash := by
  simp [State.afterFault]

@[simp] theorem State.noLane_flash (why : Nat) (s : State) : (State.noLane why s).flash = s.flash := by
  unfold State.noLane
  dsimp only
  (repeat' split) <;> simp

@[simp] theorem State.watchDrop_flash (s : State) : (State.watchDrop s).flash = s.flash := by simp [State.watchDrop]

@[simp] theorem State.laneFails_flash (b : Bool) (s : State) : (State.laneFails b s).flash = s.flash := by
  simp [State.laneFails]

@[simp] theorem State.laneWord_flash (word : Option Nat) (s : State) : (State.laneWord word s).flash = s.flash := by
  unfold State.laneWord
  split <;> simp

@[simp] theorem State.replayRead_flash (s : State) (n j : Nat) : (s.replayRead n j).2.flash = s.flash := by
  induction n generalizing s j with
  | zero => rfl
  | succ n ih =>
    rw [State.replayRead]
    split
    · exact State.eccRead_flash _ _ s
    · rw [ih, State.eccRead_flash]

@[simp] theorem State.takeLoad_flash (k : Nat) (replayBad : Bool) (x : Bool × Parcel) (s : State) :
    (State.takeLoad k replayBad x s).2.flash = s.flash := by
  unfold State.takeLoad
  extract_lets
  (repeat' split) <;> simp +zetaDelta

@[simp] theorem State.takeDecision_flash (h : Handover) (bad0 bad1 replayBad : Bool) (errs : List Nat) (s : State) :
    (s.takeDecision h bad0 bad1 replayBad errs).2.flash = s.flash := by
  unfold State.takeDecision
  split
  · rfl
  split
  · rfl
  extract_lets hd pick t u
  have hu : u.flash = s.flash := by
    simp only [u, t, State.eccRead_flash]
    exact foldl_flash (fun s w => State.putHard_flash w s) errs s
  split
  · exact hu
  next x _ =>
  have hx := (State.takeLoad_flash h.epoch replayBad x u).trans hu
  split <;> rename_i heq <;> rw [heq] at hx
  · exact hx
  split
  · exact hx
  next v _ y _ =>
  have hy := (State.takeLoad_flash h.epoch replayBad y v).trans hx
  split <;> rename_i heq' <;> rw [heq'] at hy <;> exact hy

@[simp] theorem State.grantRole_flash (b : Bool) (kind : Bool) (reason : Nat) (h : Handover) (len : Nat) (s : State) :
    (State.grantRole b kind reason h len s).flash = s.flash := rfl

@[simp] theorem State.failAll_flash (s : State) : (State.failAll s).flash = s.flash := by simp [State.failAll]

@[simp] theorem State.stopLetters_flash (s : State) : (State.stopLetters s).flash = s.flash := by simp [State.stopLetters]

@[simp] theorem State.takeoverStop_flash (reason : Nat) (s : State) : (State.takeoverStop reason s).flash = s.flash := by
  simp [State.takeoverStop]

@[simp] theorem State.laneReset_flash (forget : Bool) (s : State) : (State.laneReset forget s).flash = s.flash := by
  unfold State.laneReset
  split <;> simp

@[simp] theorem State.tkstopClear_flash (v : Nat) (s : State) : (State.tkstopClear v s).flash = s.flash := by
  simp [State.tkstopClear]

@[simp] theorem State.intake_flash (port : Fin 6) (src : Addr) (len : Nat) (b : List Byte) (s : State) :
    (s.intake port src len b).flash = s.flash := by
  unfold State.intake
  extract_lets op16 opc cls n total no info k l q w
  have hno (st : Status) (d : Nat) : (no st d s).flash = s.flash := State.boxRefuse_flash ..
  clear_value no info w
  cases info <;> simp only [ite_flash, ite_self, hno, State.admitHeld_flash, State.enqueue_flash]

@[simp] theorem State.hostRegWrite_flash (a : Nat) (b : List Byte) (s : State) :
    (State.hostRegWrite a b s).flash = s.flash := by simp [State.hostRegWrite]

@[simp] theorem State.reasmDrop_flash (c : Fin 3) (sender : Nat) (s : State) :
    (State.reasmDrop c sender s).flash = s.flash := rfl

@[simp] theorem State.reasmDiscard_flash (c : Fin 3) (sender : Nat) (s : State) :
    (State.reasmDiscard c sender s).flash = s.flash := rfl

@[simp] theorem State.reasmAdd_flash (r : Reasm) (last : Bool) (data : List Byte) (s : State) :
    (State.reasmAdd r last data s).flash = s.flash := by simp [State.reasmAdd]

@[simp] theorem State.uartScan_flash (n : Nat) (b : List Byte) (s : State) : (State.uartScan n b s).flash = s.flash := by
  induction n generalizing b s with
  | zero => rfl
  | succ n ih =>
    rw [State.uartScan]
    extract_lets m l
    split
    · rfl
    · rw [ih, State.intake_flash]

@[simp] theorem State.uartDrop_flash (s : State) : (State.uartDrop s).flash = s.flash := rfl

@[simp] theorem State.endSession_flash (s : State) : (State.endSession s).flash = s.flash := rfl

@[simp] theorem State.sessionChallenge_flash (l : Letter) (s : State) : (State.sessionChallenge l s).2.flash = s.flash := rfl

@[simp] theorem State.sessionProve_flash (l : Letter) (s : State) : (State.sessionProve l s).2.flash = s.flash := by
  unfold State.sessionProve
  (repeat' split) <;> simp

@[simp] theorem State.sessionClose_flash (l : Letter) (s : State) : (State.sessionClose l s).2.flash = s.flash := by
  unfold State.sessionClose
  (repeat' split) <;> simp

@[simp] theorem State.segmentSent_flash (s : State) : (State.segmentSent s).flash = s.flash := by
  unfold State.segmentSent
  split <;> simp

@[simp] theorem State.rxBreak_flash (s : State) : (State.rxBreak s).flash = s.flash := by
  unfold State.rxBreak
  split <;> simp

@[simp] theorem State.rxSegment_flash (x : LinkIn) (s : State) : (State.rxSegment x s).flash = s.flash := by
  unfold State.rxSegment
  dsimp only
  (repeat' split) <;> simp

@[simp] theorem State.linkOff_flash (s : State) : (State.linkOff s).flash = s.flash := rfl

@[simp] theorem State.linkFail_flash (detail : Nat) (s : State) : (State.linkFail detail s).flash = s.flash := by
  simp [State.linkFail]

@[simp] theorem State.linkDown_flash (st : Nat) (s : State) : (State.linkDown st s).flash = s.flash := by
  unfold State.linkDown
  extract_lets
  (repeat' split) <;> simp +zetaDelta

@[simp] theorem State.linkUp_flash (s : State) : (State.linkUp s).flash = s.flash := by simp [State.linkUp]

@[simp] theorem State.linkSend_flash (s : State) : (State.linkSend s).flash = s.flash := by simp [State.linkSend]

@[simp] theorem State.linkTime_flash (x : LinkIn) (s : State) : (State.linkTime x s).flash = s.flash := by simp [State.linkTime]

@[simp] theorem State.linkData_flash (x : LinkIn) (s : State) : (State.linkData x s).flash = s.flash := by
  unfold State.linkData
  extract_lets
  (repeat' split) <;> simp +zetaDelta

@[simp] theorem State.blindStop_flash (s : State) : (State.blindStop s).flash = s.flash := rfl

@[simp] theorem State.blindMove_flash (level : Int) (f : BitVec 16) (addr : Word) (segs : List Byte) (s : State) :
    (State.blindMove level f addr segs s).flash = s.flash := by
  unfold State.blindMove
  split <;> simp

@[simp] theorem State.linkTick_flash (s : State) : (State.linkTick s).flash = s.flash := by
  unfold State.linkTick
  extract_lets
  (repeat' split) <;> simp +zetaDelta

@[simp] theorem State.millTrap_flash (m : Fin 4) (cause adr : Nat) (s : State) :
    (State.millTrap m cause adr s).flash = s.flash := rfl

@[simp] theorem State.millRaise_flash (m : Fin 4) (k : Nat) (s : State) : (State.millRaise m k s).flash = s.flash := by
  simp [State.millRaise]

theorem fetchEnd_flash (m : Fin 4) (s : State) : (fetchEnd (s.millFetch m)).flash = s.flash := by
  rw [(millFrame_fetch (m := m) (kept := fun _ => True) s).rest]

@[simp] theorem State.millOverrun_flash (m : Fin 4) (s : State) : (State.millOverrun m s).flash = s.flash := by
  simp [State.millOverrun]

@[simp] theorem State.millTick_flash (s : State) : (State.millTick s).flash = s.flash := by simp [State.millTick]

@[simp] theorem State.millFlagsClear_flash (m : Fin 4) (v : Nat) (s : State) :
    (State.millFlagsClear m v s).flash = s.flash := rfl

@[simp] theorem State.millSig_flash (m : Fin 4) (v : Nat) (s : State) : (State.millSig m v s).flash = s.flash := by
  simp [State.millSig]

@[simp] theorem State.loadRecord_flash (r : List (Nat × Word)) (s : State) : (s.loadRecord r).flash = s.flash := by
  have hput (a : Nat) (o : Option Nat) (t : State) :
      (match o with | some v => t.setFld a 8 8 v | none => t).flash = t.flash := by
    cases o <;> rfl
  unfold State.loadRecord
  extract_lets f s1 put s2 period c s3
  have h2 : s2.flash = s.flash := ((hput _ _ _).trans (hput _ _ _)).trans (hput _ _ s1)
  split <;> exact h2

@[simp] theorem State.checkTick_flash (s : State) : (State.checkTick s).flash = s.flash := by simp [State.checkTick]

@[simp] theorem State.loadImage_flash (img : Option (List Byte)) (bad : Bool) (s : State) :
    (State.loadImage img bad s).flash = s.flash := by
  unfold State.loadImage
  split <;> simp

@[simp] theorem State.mainsShed_flash (s : State) : (State.mainsShed s).flash = s.flash := by simp [State.mainsShed]

@[simp] theorem State.bootMains_flash (s : State) : (State.bootMains s).flash = s.flash := by simp [State.bootMains]

@[simp] theorem State.bootLanes_flash (aFails : Bool) (s : State) : (State.bootLanes aFails s).flash = s.flash := by
  simp [State.bootLanes]

@[simp] theorem State.postStored_flash (q : List Queued) (s : State) : (State.postStored q s).flash = s.flash := by
  simp [State.postStored]

@[simp] theorem State.senseStart_flash (s : State) : (State.senseStart s).flash = s.flash := by simp [State.senseStart]

@[simp] theorem State.regionSets_flash (mask : Nat) (l : List (Int × Nat)) (s : State) :
    (s.regionSets mask l).2.flash = s.flash := by
  refine foldl_snd_flash (fun r e => foldl_snd_flash (fun r i => ?_) _ r) l _
  dsimp only
  (repeat' split) <;> simp

@[simp] theorem State.loopAfter_flash (a old v : Nat) (s : State) : (State.loopAfter a old v s).flash = s.flash := by
  simp [State.loopAfter]

@[simp] theorem State.parkLink_flash (s : State) : (State.parkLink s).flash = s.flash := by simp [State.parkLink]

@[simp] theorem State.parkCan_flash (c : Fin 3) (s : State) : (State.parkCan c s).flash = s.flash := by simp [State.parkCan]

@[simp] theorem State.parkBlocks_flash (s : State) : (State.parkBlocks s).flash = s.flash := by simp [State.parkBlocks]

@[simp] theorem State.sleepBlocks_flash (s : State) : (State.sleepBlocks s).flash = s.flash := rfl

@[simp] theorem State.unparkCan_flash (c : Fin 3) (s : State) : (State.unparkCan c s).flash = s.flash := by
  simp [State.unparkCan]

@[simp] theorem State.unpark_flash (s : State) : (State.unpark s).flash = s.flash := by simp [State.unpark]

@[simp] theorem State.unsleep_flash (s : State) : (State.unsleep s).flash = s.flash := by simp [State.unsleep]

@[simp] theorem State.idleTick_flash (s : State) : (State.idleTick s).flash = s.flash := by
  unfold State.idleTick
  (repeat' split) <;> simp

@[simp] theorem State.rescueGo_flash (i : Nat) (level : Int) (s : State) : (State.rescueGo i level s).flash = s.flash := by
  simp [State.rescueGo]

@[simp] theorem State.rescueEnd_flash (st : Status) (detail further stat : Nat) (s : State) :
    (State.rescueEnd st detail further stat s).flash = s.flash := by
  unfold State.rescueEnd
  split <;> simp

@[simp] theorem State.encPower_flash (s : State) : (State.encPower s).flash = s.flash := by
  unfold State.encPower
  extract_lets
  (repeat' split) <;> simp [*]

@[simp] theorem State.readReg_flash (a : Nat) (s : State) : (State.readReg a s).2.flash = s.flash := by
  unfold State.readReg
  (repeat' split) <;> simp

@[simp] theorem State.readClear_flash (a : Nat) (s : State) : (State.readClear a s).flash = s.flash := by
  unfold State.readClear
  (repeat' split) <;> simp

@[simp] theorem State.readMem_flash (a n : Nat) (s : State) : (lastState (s.readMem a n)).flash = s.flash := by
  unfold State.readMem
  extract_lets e
  split <;> simp [lastState, e]

@[simp] theorem State.writeMem_flash (a : Nat) (bs : List Byte) (s : State) : (s.writeMem a bs).2.flash = s.flash := by
  unfold State.writeMem
  extract_lets n
  (repeat' split) <;> try rfl
  simp only [doneWith, State.storeBytes_flash]
  exact foldl_flash (fun s w => State.eccCorrect_flash s w) _ s

@[simp] theorem State.haltDoor_flash (s : State) : (State.haltDoor s).flash = s.flash := by simp [State.haltDoor]

@[simp] theorem State.haltRescue_flash (s : State) : (State.haltRescue s).flash = s.flash := by
  unfold State.haltRescue
  extract_lets
  (repeat' split) <;> simp +zetaDelta

@[simp] theorem State.abortReceipt_flash (q : AbortReq) (st : Status) (detail further : Nat) (pm : Postmark) (s : State) :
    (State.abortReceipt q st detail further pm s).flash = s.flash := by simp [State.abortReceipt]

@[simp] theorem State.hallStep_flash (s : State) : (State.hallStep s).flash = s.flash := by simp [State.hallStep]

@[simp] theorem State.brushless_flash (x : DoorIn) (s : State) : (s.brushless x).flash = s.flash := by
  unfold State.brushless
  extract_lets t
  exact State.hallStep_flash s

@[simp] theorem State.brushed_flash (s : State) : s.brushed.flash = s.flash := by
  unfold State.brushed
  extract_lets
  exact State.setDoor_flash ..

@[simp] theorem State.stepperDuty_flash (v : Int) (s : State) : (s.stepperDuty v).flash = s.flash := by
  unfold State.stepperDuty
  extract_lets
  exact State.setDoor_flash ..

@[simp] theorem State.stepperCount_flash (s : State) : (State.stepperCount s).flash = s.flash := rfl

@[simp] theorem State.legacyCount_flash (s : State) : (State.legacyCount s).flash = s.flash := rfl

@[simp] theorem State.legacyZero_flash (v : Int) (s : State) : (State.legacyZero v s).flash = s.flash := rfl

@[simp] theorem State.doorHeat_flash (x : DoorIn) (s : State) : (s.doorHeat x).flash = s.flash := by
  unfold State.doorHeat
  extract_lets d sq
  split <;> exact State.setDoor_flash ..

@[simp] theorem State.doorModulate_flash (x : DoorIn) (s : State) : (State.doorModulate x s).flash = s.flash := by
  unfold State.doorModulate
  split <;> simp

@[simp] theorem State.tickBlocks_flash (x : TickIn) (s : State) : (State.tickBlocks x s).flash = s.flash := by
  simp [State.tickBlocks]

@[simp] theorem State.canWordBad_flash (c : Fin 3) (o : Nat) (s : State) : (State.canWordBad c o s).flash = s.flash := by
  unfold State.canWordBad
  extract_lets
  (repeat' split) <;> simp [*]

@[simp] theorem State.scrubAct_flash (w : Nat) (s : State) : (State.scrubAct w s).flash = s.flash := by
  unfold State.scrubAct
  (repeat' split) <;> simp

end Sys2Proof.Machine

/-! ### The letters and events that leave the flash die

An event row leaves it whatever state it leads to (`FlashKept`), a letter row if its handler's run does. -/

namespace Sys2Proof.Machine

/-- Whatever state an outcome leads to, its flash die is that of `s`. -/
def FlashKept (s : State) (o : Host.Outcome State Fault Refusal) : Prop := ∀ t, o = .next t → t.flash = s.flash

@[simp] theorem flashKept_next {s t : State} : FlashKept s (.next t) ↔ t.flash = s.flash :=
  ⟨fun h => h t rfl, fun h _ ht => Host.Outcome.next.inj ht ▸ h⟩

@[simp] theorem flashKept_ite {c : Prop} [Decidable c] {s : State} {a b : Host.Outcome State Fault Refusal} :
    FlashKept s (if c then a else b) ↔ (c → FlashKept s a) ∧ (¬ c → FlashKept s b) := by
  split <;> simp [*]

theorem canModeHandler_flash (q : Letter) (t : State) : (canModeHandler.run q t).2.flash = t.flash := by
  simp only [canModeHandler, handler]
  (repeat' split) <;> simp

theorem canFilterHandler_flash (q : Letter) (t : State) : (canFilterHandler.run q t).2.flash = t.flash := by
  simp only [canFilterHandler, handler]
  (repeat' split) <;> simp

theorem canTxHandler_flash (q : Letter) (t : State) : (canTxHandler.run q t).2.flash = t.flash := by
  simp only [canTxHandler, handler]
  (repeat' split) <;> simp

theorem canCancelHandler_flash (q : Letter) (t : State) : (canCancelHandler.run q t).2.flash = t.flash := by
  simp only [canCancelHandler, handler]
  (repeat' split) <;> simp

theorem canReadHandler_flash (q : Letter) (t : State) : (canReadHandler.run q t).2.flash = t.flash := by
  simp only [canReadHandler, handler]
  (repeat' split) <;> simp

theorem execCanFrameRx_flash (dt : Nat) (c : Fin 3) (f : CanFrame) (ok : Bool) (age : Nat) (x : BusIn) (s : State) :
    FlashKept s (execCanFrameRx dt c f ok age x s) := by
  simp [execCanFrameRx]

@[simp] theorem execCanTxChoice_flash (dt : Nat) (c : Fin 3) (s : State) : FlashKept s (execCanTxChoice dt c s) := by
  unfold execCanTxChoice
  extract_lets t q ready key
  clear_value ready key
  (repeat' split) <;> simp [t]

theorem execCanTxEnd_flash (dt : Nat) (c : Fin 3) (r : TxEnd) (x : BusIn) (s : State) :
    FlashKept s (execCanTxEnd dt c r x s) := by
  simp only [execCanTxEnd]
  (repeat' split) <;> simp

theorem execTwin_flash (dt : Nat) (c : Fin 3) (b : Fin 256) (s : State) : FlashKept s (execTwin dt c b s) := by
  unfold execTwin
  extract_lets
  (repeat' split) <;> simp +zetaDelta

theorem execBusOff_flash (dt : Nat) (c : Fin 3) (x : BusIn) (s : State) : FlashKept s (execBusOff dt c x s) := by
  unfold execBusOff
  extract_lets
  (repeat' split) <;> simp +zetaDelta

theorem execBusOffRecoveryStart_flash (dt : Nat) (c : Fin 3) (s : State) : FlashKept s (execBusOffRecoveryStart dt c s) := by
  unfold execBusOffRecoveryStart
  extract_lets
  (repeat' split) <;> simp +zetaDelta

theorem execBusRecovered_flash (dt : Nat) (c : Fin 3) (seqs : Nat) (s : State) :
    FlashKept s (execBusRecovered dt c seqs s) := by
  unfold execBusRecovered
  extract_lets
  (repeat' split) <;> simp +zetaDelta

theorem execCanIntegrationDone_flash (dt : Nat) (c : Fin 3) (s : State) : FlashKept s (execCanIntegrationDone dt c s) := by
  simp [execCanIntegrationDone]

theorem execSsiRead_flash (dt : Nat) (x : SsiIn) (s : State) : FlashKept s (execSsiRead dt x s) := by
  unfold execSsiRead
  extract_lets
  (repeat' split) <;> simp +zetaDelta

theorem execEncAbsAngleSet_flash (dt : Nat) (c d : Int) (s : State) : FlashKept s (execEncAbsAngleSet dt c d s) := by
  simp [execEncAbsAngleSet]

theorem execEncZSync_flash (dt : Nat) (k : Fin 3) (enc : List EncSample) (s : State) :
    FlashKept s (execEncZSync dt k enc s) := by
  unfold execEncZSync
  extract_lets
  (repeat' split) <;> simp +zetaDelta

theorem execSdFault_flash (dt : Nat) (x : SdIn) (s : State) : FlashKept s (execSdFault dt x s) := by
  simp [execSdFault]

theorem execSdValid_flash (dt : Nat) (x : SdIn) (s : State) : FlashKept s (execSdValid dt x s) := by
  simp [execSdValid]

theorem execPositionMismatch_flash (dt : Nat) (s : State) : FlashKept s (execPositionMismatch dt s) := by
  unfold execPositionMismatch
  extract_lets
  (repeat' split) <;> simp +zetaDelta

@[simp] theorem execLoopSat_flash (dt : Nat) (i : Fin 16) (s : State) : FlashKept s (execLoopSat dt i s) := by
  unfold execLoopSat
  dsimp only
  split
  · exact flashKept_next.2 (State.advance_flash s dt)
  split
  · split <;> simp
  · exact flashKept_next.2 (State.advance_flash s dt)

theorem execBrakePickEnd_flash (dt : Nat) (b : Fin 2) (s : State) : FlashKept s (execBrakePickEnd dt b s) := by
  unfold execBrakePickEnd
  extract_lets
  (repeat' split) <;> simp +zetaDelta

theorem moveRunHandler_flash (q : Letter) (t : State) : (moveRunHandler.run q t).2.flash = t.flash := by
  simp only [moveRunHandler, handler]
  (repeat' split) <;> simp

theorem moveTrapHandler_flash (q : Letter) (t : State) : (moveTrapHandler.run q t).2.flash = t.flash := by
  simp only [moveTrapHandler]
  (repeat' split) <;> simp

theorem moveTailHandler_flash (q : Letter) (t : State) : (moveTailHandler.run q t).2.flash = t.flash := by
  simp only [moveTailHandler]
  (repeat' split) <;> simp

theorem moveStopHandler_flash (q : Letter) (t : State) : (moveStopHandler.run q t).2.flash = t.flash := by
  simp only [moveStopHandler, handler]
  (repeat' split) <;> simp

theorem setLimitsHandler_flash (q : Letter) (t : State) : (setLimitsHandler.run q t).2.flash = t.flash := by
  simp only [setLimitsHandler, handler]
  (repeat' split) <;> simp

theorem homeHandler_flash (q : Letter) (t : State) : (homeHandler.run q t).2.flash = t.flash := by
  simp only [homeHandler]
  (repeat' split) <;> simp

theorem gearSetHandler_flash (q : Letter) (t : State) : (gearSetHandler.run q t).2.flash = t.flash := by
  simp only [gearSetHandler]
  (repeat' split) <;> simp

theorem execLimitStop_flash (dt : Nat) (u : Fin 4) (k : Fin 4) (s : State) : FlashKept s (execLimitStop dt u k s) := by
  unfold execLimitStop
  extract_lets
  (repeat' split) <;> simp +zetaDelta

theorem execHomeRearmEnd_flash (dt : Nat) (u : Fin 4) (s : State) : FlashKept s (execHomeRearmEnd dt u s) := by
  unfold execHomeRearmEnd
  extract_lets
  (repeat' split) <;> simp +zetaDelta

theorem execHomeCapture_flash (dt : Nat) (u : Fin 4) (cap : Int) (s : State) : FlashKept s (execHomeCapture dt u cap s) := by
  unfold execHomeCapture
  extract_lets
  (repeat' split) <;> simp +zetaDelta

theorem execHomeAdjust_flash (dt : Nat) (u : Fin 4) (s : State) : FlashKept s (execHomeAdjust dt u s) := by
  unfold execHomeAdjust
  extract_lets
  (repeat' split) <;> simp +zetaDelta

theorem execHomeSearchExhausted_flash (dt : Nat) (u : Fin 4) (s : State) : FlashKept s (execHomeSearchExhausted dt u s) := by
  unfold execHomeSearchExhausted
  extract_lets
  (repeat' split) <;> simp +zetaDelta

theorem execHomeLimit_flash (dt : Nat) (u : Fin 4) (input : Fin 48) (s : State) : FlashKept s (execHomeLimit dt u input s) := by
  unfold execHomeLimit
  extract_lets
  (repeat' split) <;> simp +zetaDelta

theorem doorModeHandler_flash (q : Letter) (t : State) : (doorModeHandler.run q t).2.flash = t.flash := by
  simp only [doorModeHandler, handler]
  (repeat' split) <;> simp

theorem doorOpen_stopFirst_flash (k : Nat) (s : State) : (doorOpenHandler.stopFirst k s).flash = s.flash := by
  simp [doorOpenHandler.stopFirst]

theorem doorOpenHandler_flash (q : Letter) (t : State) : (doorOpenHandler.run q t).2.flash = t.flash := by
  simp only [doorOpenHandler, handler]
  (repeat' split) <;> simp [doorOpen_stopFirst_flash]

theorem doorClose_renew_flash (k : Nat) (nudge : Bool) (s : State) : (doorCloseHandler.renew k nudge s).flash = s.flash := by
  simp [doorCloseHandler.renew]

theorem doorCloseHandler_flash (q : Letter) (t : State) : (doorCloseHandler.run q t).2.flash = t.flash := by
  simp only [doorCloseHandler, handler]
  (repeat' split) <;> simp [doorClose_renew_flash]

theorem doorStopHandler_flash (q : Letter) (t : State) : (doorStopHandler.run q t).2.flash = t.flash := by
  simp only [doorStopHandler, handler]
  (repeat' split) <;> simp

theorem doorLimitsHandler_flash (q : Letter) (t : State) : (doorLimitsHandler.run q t).2.flash = t.flash := by
  simp only [doorLimitsHandler, handler]
  (repeat' split) <;> simp

theorem execDoorObstructed_flash (dt : Nat) (k : Fin 4) (s : State) : FlashKept s (execDoorObstructed dt k s) := by
  simp [execDoorObstructed]

theorem execDoorStall_flash (dt : Nat) (s : State) : FlashKept s (execDoorStall dt s) := by
  simp only [execDoorStall]
  (repeat' split) <;> simp

@[simp] theorem execDoorOpenTimeout_flash (dt : Nat) (s : State) : FlashKept s (execDoorOpenTimeout dt s) := by
  unfold execDoorOpenTimeout
  dsimp only
  split
  · exact flashKept_next.2 (State.advance_flash s dt)
  split
  · split <;> simp
  · exact flashKept_next.2 (State.advance_flash s dt)

@[simp] theorem execDoorCloseTimeout_flash (dt : Nat) (s : State) : FlashKept s (execDoorCloseTimeout dt s) := by
  unfold execDoorCloseTimeout
  dsimp only
  split
  · exact flashKept_next.2 (State.advance_flash s dt)
  split
  · split
    · rw [flashKept_next]
      (repeat' split) <;> simp
    · simp
  · exact flashKept_next.2 (State.advance_flash s dt)

theorem execDoorReopen_flash (dt : Nat) (s : State) : FlashKept s (execDoorReopen dt s) := by
  simp [execDoorReopen]

@[simp] theorem execDoorHoldExpiry_flash (dt : Nat) (s : State) : FlashKept s (execDoorHoldExpiry dt s) := by
  unfold execDoorHoldExpiry
  dsimp only
  split
  · exact flashKept_next.2 (State.advance_flash s dt)
  split
  · split <;> simp
  · exact flashKept_next.2 (State.advance_flash s dt)

@[simp] theorem execDoorNudge_flash (dt : Nat) (s : State) : FlashKept s (execDoorNudge dt s) := by
  unfold execDoorNudge
  dsimp only
  split
  · exact flashKept_next.2 (State.advance_flash s dt)
  split
  · split <;> simp
  · exact flashKept_next.2 (State.advance_flash s dt)

theorem execStageFault_flash (dt : Nat) (kind : Fin 6) (value : Int) (s : State) :
    FlashKept s (execStageFault dt kind value s) := by
  simp [execStageFault]

theorem execFieldLinkFrame_flash (dt : Nat) (toField ok : Bool) (x : DiagIn) (s : State) :
    FlashKept s (execFieldLinkFrame dt toField ok x s) := by
  unfold execFieldLinkFrame
  extract_lets
  (repeat' split) <;> simp +zetaDelta

theorem execFieldLinkFault_flash (dt : Nat) (s : State) : FlashKept s (execFieldLinkFault dt s) := by
  simp [execFieldLinkFault]

theorem execInputSample_flash (dt : Nat) (bank : Fin 6) (mv : Vector Int 8) (s : State) :
    FlashKept s (execInputSample dt bank mv s) := by
  simp [execInputSample]

theorem execCounterEdge_flash (dt : Nat) (i : Fin 8) (high : Bool) (s : State) : FlashKept s (execCounterEdge dt i high s) := by
  simp [execCounterEdge]

theorem execCounterGateEnd_flash (dt : Nat) (i : Fin 8) (s : State) : FlashKept s (execCounterGateEnd dt i s) := by
  unfold execCounterGateEnd
  extract_lets
  (repeat' split) <;> simp +zetaDelta

theorem counterConfigHandler_flash (q : Letter) (t : State) : (counterConfigHandler.run q t).2.flash = t.flash := by
  simp only [counterConfigHandler, handler]
  (repeat' split) <;> simp

theorem outSetHandler_flash (q : Letter) (t : State) : (outSetHandler.run q t).2.flash = t.flash := by
  simp [outSetHandler, handler]

theorem inReadHandler_flash (q : Letter) (t : State) : (inReadHandler.run q t).2.flash = t.flash := by
  simp [inReadHandler, handler]

theorem outRestoreHandler_flash (q : Letter) (t : State) : (outRestoreHandler.run q t).2.flash = t.flash := by
  simp only [outRestoreHandler, handler]
  (repeat' split) <;> simp

theorem execOutputDiagCheck_flash (dt : Nat) (k : Fin 32) (mv : Nat) (temp : Int) (s : State) :
    FlashKept s (execOutputDiagCheck dt k mv temp s) := by
  simp [execOutputDiagCheck]

theorem execOverload_flash (dt : Nat) (x : OverIn) (s : State) : FlashKept s (execOverload dt x s) := by
  simp [execOverload]

theorem execDriverOvertemp_flash (dt : Nat) (k : Fin 32) (temp : Int) (s : State) :
    FlashKept s (execDriverOvertemp dt k temp s) := by
  simp [execDriverOvertemp]

theorem execGroupOvercurrent_flash (dt : Nat) (x : GroupOverIn) (s : State) : FlashKept s (execGroupOvercurrent dt x s) := by
  unfold execGroupOvercurrent
  extract_lets
  (repeat' split) <;> simp +zetaDelta

theorem execVfieldSample_flash (dt : Nat) (mv : Nat) (s : State) : FlashKept s (execVfieldSample dt mv s) := by
  simp [execVfieldSample]

theorem execFieldShed_flash (dt : Nat) (s : State) : FlashKept s (execFieldShed dt s) := by
  unfold execFieldShed
  extract_lets
  (repeat' split) <;> simp +zetaDelta

theorem execFieldRestored_flash (dt : Nat) (s : State) : FlashKept s (execFieldRestored dt s) := by
  unfold execFieldRestored
  extract_lets
  (repeat' split) <;> simp +zetaDelta

theorem execStandbyIdleExpiry_flash (dt : Nat) (s : State) : FlashKept s (execStandbyIdleExpiry dt s) := by
  simp [execStandbyIdleExpiry]

theorem execReferenceDigest_flash (dt : Nat) (s : State) : FlashKept s (execReferenceDigest dt s) := by
  unfold execReferenceDigest
  extract_lets
  (repeat' split) <;> simp +zetaDelta

theorem execBellStroke_flash (dt : Nat) (x : StrokeIn) (s : State) : FlashKept s (execBellStroke dt x s) := by
  unfold execBellStroke
  extract_lets
  (repeat' split) <;> simp +zetaDelta

theorem execBellYielded_flash (dt : Nat) (x : StrokeIn) (s : State) : FlashKept s (execBellYielded dt x s) := by
  unfold execBellYielded
  extract_lets
  (repeat' split) <;> simp +zetaDelta

theorem execBellStrokeTx_flash (dt : Nat) (s : State) : FlashKept s (execBellStrokeTx dt s) := by
  unfold execBellStrokeTx
  extract_lets
  (repeat' split) <;> simp +zetaDelta

theorem execBellMissing_flash (dt : Nat) (s : State) : FlashKept s (execBellMissing dt s) := by
  simp [execBellMissing]

theorem execStatusSlotTx_flash (dt : Nat) (x : CarIn) (s : State) : FlashKept s (execStatusSlotTx dt x s) := by
  simp [execStatusSlotTx]

theorem execSlotLateCancel_flash (dt : Nat) (s : State) : FlashKept s (execSlotLateCancel dt s) := by
  unfold execSlotLateCancel
  extract_lets
  (repeat' split) <;> simp +zetaDelta

theorem execStatusSlotRx_flash (dt : Nat) (busB : Bool) (sender : Fin 64) (qual : Fin 4096) (data : List Byte) (s : State) :
    FlashKept s (execStatusSlotRx dt busB sender qual data s) := by
  simp [execStatusSlotRx]

theorem execCarNumberTwin_flash (dt : Nat) (x : TwinIn) (s : State) : FlashKept s (execCarNumberTwin dt x s) := by
  unfold execCarNumberTwin
  extract_lets
  (repeat' split) <;> simp +zetaDelta

theorem execRequestFrame_flash (dt : Nat) (busB : Bool) (panel : Fin 4096) (sender : Fin 64) (data : BitVec 64) (s : State) :
    FlashKept s (execRequestFrame dt busB panel sender data s) := by
  simp [execRequestFrame]

theorem execCancelFrame_flash (dt : Nat) (busB : Bool) (panel : Fin 4096) (sender : Fin 64) (data : BitVec 64) (s : State) :
    FlashKept s (execCancelFrame dt busB panel sender data s) := by
  simp [execCancelFrame]

theorem execCallFrameTxDrop_flash (dt : Nat) (s : State) : FlashKept s (execCallFrameTxDrop dt s) := by
  unfold execCallFrameTxDrop
  extract_lets
  (repeat' split) <;> simp +zetaDelta

theorem execJoinListenTimeout_flash (dt : Nat) (s : State) : FlashKept s (execJoinListenTimeout dt s) := by
  unfold execJoinListenTimeout
  extract_lets
  (repeat' split) <;> simp +zetaDelta

theorem execJoinClaim_flash (dt : Nat) (s : State) : FlashKept s (execJoinClaim dt s) := by
  unfold execJoinClaim
  extract_lets
  (repeat' split) <;> simp +zetaDelta

theorem execGroupBusLost_flash (dt : Nat) (bus : Fin 2) (s : State) : FlashKept s (execGroupBusLost dt bus s) := by
  unfold execGroupBusLost
  extract_lets
  (repeat' split) <;> simp +zetaDelta

theorem execResyncRequest_flash (dt : Nat) (car : Fin 64) (s : State) : FlashKept s (execResyncRequest dt car s) := by
  unfold execResyncRequest
  extract_lets
  (repeat' split) <;> simp +zetaDelta

theorem execResyncData_flash (dt : Nat) (sender : Fin 64) (car : Fin 64) (data : List Byte) (s : State) :
    FlashKept s (execResyncData dt sender car data s) := by
  unfold execResyncData
  extract_lets
  (repeat' split) <;> simp +zetaDelta

theorem execResyncReplay_flash (dt : Nat) (s : State) : FlashKept s (execResyncReplay dt s) := by
  unfold execResyncReplay
  extract_lets
  (repeat' split) <;> simp +zetaDelta

theorem groupJoinHandler_flash (q : Letter) (t : State) : (groupJoinHandler.run q t).2.flash = t.flash := by
  simp only [groupJoinHandler, handler]
  (repeat' split) <;> simp

theorem groupLeaveHandler_flash (q : Letter) (t : State) : (groupLeaveHandler.run q t).2.flash = t.flash := by
  simp only [groupLeaveHandler, handler]
  (repeat' split) <;> simp

theorem policySetHandler_flash (q : Letter) (t : State) : (policySetHandler.run q t).2.flash = t.flash := by
  simp only [policySetHandler, handler]
  (repeat' split) <;> simp

theorem flightSetHandler_flash (q : Letter) (t : State) : (flightSetHandler.run q t).2.flash = t.flash := by
  simp only [flightSetHandler, handler]
  (repeat' split) <;> simp

theorem callHandler_flash (opc : Nat) (cancel : Bool) (q : Letter) (t : State) :
    ((callHandler opc cancel).run q t).2.flash = t.flash := by
  unfold callHandler
  simp only [handler]
  (repeat' split) <;> simp

theorem execCurrentSample_flash (dt : Nat) (x : CurIn) (s : State) : FlashKept s (execCurrentSample dt x s) := by
  simp [execCurrentSample]

theorem execOvercurrent_flash (dt : Nat) (k : Fin 3) (bits : List Bool) (s : State) :
    FlashKept s (execOvercurrent dt k bits s) := by
  simp [execOvercurrent]

theorem execInterlockEvaluation_flash (dt : Nat) (x : EvalIn) (s : State) : FlashKept s (execInterlockEvaluation dt x s) := by
  simp [execInterlockEvaluation]

theorem execBridgeFail_flash (dt : Nat) (s : State) : FlashKept s (execBridgeFail dt s) := by
  unfold execBridgeFail
  extract_lets
  (repeat' split) <;> simp +zetaDelta

theorem execLockDiscrepancy_flash (dt : Nat) (k : Fin 16) (s : State) : FlashKept s (execLockDiscrepancy dt k s) := by
  unfold execLockDiscrepancy
  extract_lets
  (repeat' split) <;> simp +zetaDelta

theorem execDelayElementExpiry_flash (dt : Nat) (k : Fin 16) (s : State) : FlashKept s (execDelayElementExpiry dt k s) := by
  unfold execDelayElementExpiry
  extract_lets
  (repeat' split) <;> simp +zetaDelta

theorem execLockDisagree_flash (dt : Nat) (s : State) : FlashKept s (execLockDisagree dt s) := by
  simp only [execLockDisagree]
  (repeat' split) <;> simp

theorem execSafetyChainOpen_flash (dt : Nat) (k : Fin 12) (s : State) : FlashKept s (execSafetyChainOpen dt k s) := by
  unfold execSafetyChainOpen
  extract_lets
  (repeat' split) <;> simp +zetaDelta

theorem execLockImageCheck_flash (dt : Nat) (bad1 bad2 : Bool) (s : State) :
    FlashKept s (execLockImageCheck dt bad1 bad2 s) := by
  simp [execLockImageCheck]

theorem lockLoadHandler_flash (q : Letter) (t : State) : (lockLoadHandler.run q t).2.flash = t.flash := by
  simp only [lockLoadHandler, handler]
  (repeat' split) <;> simp

theorem lockCommitHandler_flash (q : Letter) (t : State) : (lockCommitHandler.run q t).2.flash = t.flash := by
  simp only [lockCommitHandler, handler]
  (repeat' split) <;> simp

theorem execLockCommitted_flash (dt : Nat) (bad : Bool) (s : State) : FlashKept s (execLockCommitted dt bad s) := by
  unfold execLockCommitted
  extract_lets
  (repeat' split) <;> simp +zetaDelta

theorem lockTestHandler_flash (q : Letter) (t : State) : (lockTestHandler.run q t).2.flash = t.flash := by
  simp only [lockTestHandler, handler]
  (repeat' split) <;> simp

theorem execStoTestStep_flash (dt : Nat) (s : State) : FlashKept s (execStoTestStep dt s) := by
  unfold execStoTestStep
  extract_lets
  (repeat' split) <;> simp +zetaDelta

theorem execStoTestDue_flash (dt : Nat) (s : State) : FlashKept s (execStoTestDue dt s) := by
  unfold execStoTestDue
  extract_lets
  (repeat' split) <;> simp +zetaDelta

theorem execParcelSeal_flash (dt : Nat) (units : Fin 512) (s : State) : FlashKept s (execParcelSeal dt units s) := by
  unfold execParcelSeal
  extract_lets
  (repeat' split) <;> simp +zetaDelta

theorem execParcelStale_flash (dt : Nat) (s : State) : FlashKept s (execParcelStale dt s) := by
  unfold execParcelStale
  extract_lets
  (repeat' split) <;> simp +zetaDelta

theorem execLaneFault_flash (dt : Nat) (x : LaneFaultIn) (s : State) : FlashKept s (execLaneFault dt x s) := by
  unfold execLaneFault
  extract_lets
  (repeat' split) <;> simp +zetaDelta

theorem execWdogExpired_flash (dt : Nat) (s : State) : FlashKept s (execWdogExpired dt s) := by
  unfold execWdogExpired
  extract_lets
  (repeat' split) <;> simp +zetaDelta

theorem execTakeover_flash (dt : Nat) (bad0 bad1 : Bool) (replay : ReplayIn) (s : State) :
    FlashKept s (execTakeover dt bad0 bad1 replay s) := by
  simp only [execTakeover]
  (repeat' split) <;> simp

theorem execStandbyReady_flash (dt : Nat) (laneB : Bool) (failed : Fin 4) (s : State) :
    FlashKept s (execStandbyReady dt laneB failed s) := by
  unfold execStandbyReady
  extract_lets
  (repeat' split) <;> simp +zetaDelta

theorem execStileFault_flash (dt : Nat) (s : State) : FlashKept s (execStileFault dt s) := by
  unfold execStileFault
  extract_lets
  (repeat' split) <;> simp +zetaDelta

theorem watchChangeHandler_flash (q : Letter) (t : State) : (watchChangeHandler.run q t).2.flash = t.flash := by
  simp only [watchChangeHandler, handler]
  (repeat' split) <;> simp

theorem watchSetHandler_flash (q : Letter) (t : State) : (watchSetHandler.run q t).2.flash = t.flash := by
  simp [watchSetHandler, handler]

theorem execWatchDue_flash (dt : Nat) (s : State) : FlashKept s (execWatchDue dt s) := by
  unfold execWatchDue
  extract_lets
  (repeat' split) <;> simp +zetaDelta

theorem execWatchChangeStart_flash (dt : Nat) (s : State) : FlashKept s (execWatchChangeStart dt s) := by
  unfold execWatchChangeStart
  extract_lets
  (repeat' split) <;> simp +zetaDelta

theorem execWatchChanged_flash (dt : Nat) (s : State) : FlashKept s (execWatchChanged dt s) := by
  unfold execWatchChanged
  extract_lets
  (repeat' split) <;> simp +zetaDelta

theorem execWatchSkipped_flash (dt : Nat) (s : State) : FlashKept s (execWatchSkipped dt s) := by
  unfold execWatchSkipped
  extract_lets
  (repeat' split) <;> simp +zetaDelta

theorem execLetterArrival_flash (dt : Nat) (port : Fin 6) (bytes : List Byte) (s : State) :
    FlashKept s (execLetterArrival dt port bytes s) := by
  simp [execLetterArrival]

theorem execInboxWrite_flash (dt : Nat) (offset : Fin 65536) (bytes : List Byte) (s : State) :
    FlashKept s (execInboxWrite dt offset bytes s) := by
  simp [execInboxWrite]

theorem execHpPost_flash (dt : Nat) (length : Fin 8192) (s : State) : FlashKept s (execHpPost dt length s) := by
  simp [execHpPost]

theorem execHpTake_flash (dt : Nat) (take : Bool) (s : State) : FlashKept s (execHpTake dt take s) := by
  simp [execHpTake]

theorem execHpEvidxWrite_flash (dt : Nat) (rd : Fin 512) (s : State) : FlashKept s (execHpEvidxWrite dt rd s) := by
  simp [execHpEvidxWrite]

theorem execCanLetterSegment_flash (dt : Nat) (ctrl : Fin 3) (sender : Fin 64) (dest : Fin 4096) (data : List Byte)
    (s : State) :
    FlashKept s (execCanLetterSegment dt ctrl sender dest data s) := by
  simp only [execCanLetterSegment]
  (repeat' split) <;> simp

theorem execCanReassemblyTimeout_flash (dt : Nat) (ctrl : Fin 3) (sender : Fin 64) (s : State) :
    FlashKept s (execCanReassemblyTimeout dt ctrl sender s) := by
  unfold execCanReassemblyTimeout
  extract_lets
  (repeat' split) <;> simp +zetaDelta

theorem execUartLetter_flash (dt : Nat) (bytes : List Byte) (s : State) : FlashKept s (execUartLetter dt bytes s) := by
  simp [execUartLetter]

theorem execUartGapTimeout_flash (dt : Nat) (s : State) : FlashKept s (execUartGapTimeout dt s) := by
  simp [execUartGapTimeout]

theorem sessionHandler_flash (q : Letter) (t : State) : (sessionHandler.run q t).2.flash = t.flash := by
  simp only [sessionHandler, handler]
  (repeat' split) <;> simp

theorem execSessionTimeout_flash (dt : Nat) (s : State) : FlashKept s (execSessionTimeout dt s) := by
  unfold execSessionTimeout
  extract_lets
  (repeat' split) <;> simp +zetaDelta

theorem execSessionLockoutEnd_flash (dt : Nat) (s : State) : FlashKept s (execSessionLockoutEnd dt s) := by
  unfold execSessionLockoutEnd
  extract_lets
  (repeat' split) <;> simp +zetaDelta

theorem execCarLinkCycle_flash (x : CycleIn) (s : State) : FlashKept s (execCarLinkCycle x s) := by
  simp only [execCarLinkCycle]
  (repeat' split) <;> simp

theorem execCarLinkDown_flash (dt : Nat) (s : State) : FlashKept s (execCarLinkDown dt s) := by
  unfold execCarLinkDown
  extract_lets
  (repeat' split) <;> simp +zetaDelta

theorem execCarLinkFrameRx_flash (dt : Nat) (rx : LinkFrameIn) (s : State) : FlashKept s (execCarLinkFrameRx dt rx s) := by
  simp [execCarLinkFrameRx]

theorem linkModeHandler_flash (q : Letter) (t : State) : (linkModeHandler.run q t).2.flash = t.flash := by
  simp only [linkModeHandler, handler]
  (repeat' split) <;> simp

theorem execPhyStatusPoll_flash (dt : Nat) (up : Bool) (s : State) : FlashKept s (execPhyStatusPoll dt up s) := by
  simp [execPhyStatusPoll]

theorem execLinkPhyTimeout_flash (dt : Nat) (s : State) : FlashKept s (execLinkPhyTimeout dt s) := by
  unfold execLinkPhyTimeout
  extract_lets
  (repeat' split) <;> simp +zetaDelta

theorem execLinkSyncTimeout_flash (dt : Nat) (s : State) : FlashKept s (execLinkSyncTimeout dt s) := by
  unfold execLinkSyncTimeout
  extract_lets
  (repeat' split) <;> simp +zetaDelta

theorem execBlindLevelling_flash (dt : Nat) (f : BitVec 16) (addr : Word) (segs : List Byte) (s : State) :
    FlashKept s (execBlindLevelling dt f addr segs s) := by
  unfold execBlindLevelling
  extract_lets
  (repeat' split) <;> simp +zetaDelta

theorem execLinkOpenOnLoss_flash (dt : Nat) (s : State) : FlashKept s (execLinkOpenOnLoss dt s) := by
  simp [execLinkOpenOnLoss]

theorem execLinkDoorHoldExpiry_flash (dt : Nat) (s : State) : FlashKept s (execLinkDoorHoldExpiry dt s) := by
  unfold execLinkDoorHoldExpiry
  extract_lets
  (repeat' split) <;> simp +zetaDelta

@[simp] theorem execMillEventEntry_flash (m : Fin 4) (s : State) : FlashKept s (execMillEventEntry m s) := by
  have hfetch := fetchEnd_flash m s
  unfold execMillEventEntry
  extract_lets q d u
  split
  · simp
  · split <;> rename_i heq <;> rw [heq] at hfetch
    · exact flashKept_next.2 ((State.millTrap_flash ..).trans hfetch)
    · simp [u]

theorem execMillTickStart_flash (dt : Nat) (s : State) : FlashKept s (execMillTickStart dt s) := by
  simp [execMillTickStart]

theorem millStartHandler_flash (q : Letter) (t : State) : (millStartHandler.run q t).2.flash = t.flash := by
  simp only [millStartHandler, handler]
  (repeat' split) <;> simp

theorem millStopHandler_flash (q : Letter) (t : State) : (millStopHandler.run q t).2.flash = t.flash := by
  simp only [millStopHandler, handler]
  (repeat' split) <;> simp

theorem millFetchHandler_flash (q : Letter) (t : State) : (millFetchHandler.run q t).2.flash = t.flash := by
  simp only [millFetchHandler, handler]
  (repeat' split) <;> simp

theorem execSupplyStable_flash (dt : Nat) (x : SupplyIn) (s : State) : FlashKept s (execSupplyStable dt x s) := by
  unfold execSupplyStable
  extract_lets
  (repeat' split) <;> simp +zetaDelta

theorem execModuleResetSequence_flash (dt : Nat) (straps : Vector (BitVec 2) 3) (s : State) :
    FlashKept s (execModuleResetSequence dt straps s) := by
  simp [execModuleResetSequence]

theorem execBootDone_flash (dt : Nat) (s : State) : FlashKept s (execBootDone dt s) := by
  simp [execBootDone]

theorem moduleResetHandler_flash (q : Letter) (t : State) : (moduleResetHandler.run q t).2.flash = t.flash := by
  simp only [moduleResetHandler, handler]
  (repeat' split) <;> simp

theorem loopConfigHandler_flash (q : Letter) (t : State) : (loopConfigHandler.run q t).2.flash = t.flash := by
  simp only [loopConfigHandler, handler]
  (repeat' split) <;> simp

theorem loopModeHandler_flash (q : Letter) (t : State) : (loopModeHandler.run q t).2.flash = t.flash := by
  simp only [loopModeHandler, handler]
  (repeat' split) <;> simp

theorem coefBankHandler_flash (q : Letter) (t : State) : (coefBankHandler.run q t).2.flash = t.flash := by
  simp only [coefBankHandler, handler]
  (repeat' split) <;> simp

theorem schedSetHandler_flash (q : Letter) (t : State) : (schedSetHandler.run q t).2.flash = t.flash := by
  simp only [schedSetHandler, handler]
  (repeat' split) <;> simp

theorem injectHandler_flash (q : Letter) (t : State) : (injectHandler.run q t).2.flash = t.flash := by
  simp only [injectHandler, handler]
  (repeat' split) <;> simp

theorem captureHandler_flash (q : Letter) (t : State) : (captureHandler.run q t).2.flash = t.flash := by
  simp only [captureHandler, handler]
  (repeat' split) <;> simp

theorem State.coefWrite_flash {i : Fin 16} {b : Bool} {k : Nat} {v : Int} {s t : State} (h : s.coefWrite i b k v = .ok t) :
    t.flash = s.flash := by
  unfold State.coefWrite at h
  extract_lets q live c sec at h
  clear_value live c
  (repeat' split at h) <;> cases h <;> rfl

theorem powerModeHandler_flash (q : Letter) (t : State) : (powerModeHandler.run q t).2.flash = t.flash := by
  simp only [powerModeHandler, handler]
  (repeat' split) <;> simp

theorem execIdleTimeout_flash (dt : Nat) (s : State) : FlashKept s (execIdleTimeout dt s) := by
  unfold execIdleTimeout
  extract_lets
  (repeat' split) <;> simp +zetaDelta

theorem execMainsRestored_flash (dt vlog : Nat) (x : MainsIn) (s : State) : FlashKept s (execMainsRestored dt vlog x s) := by
  unfold execMainsRestored
  extract_lets
  (repeat' split) <;> simp +zetaDelta

theorem execVkeepLow_flash (dt : Nat) (mv : Vector Nat 4) (s : State) : FlashKept s (execVkeepLow dt mv s) := by
  simp [execVkeepLow]

theorem execVkeepRecovered_flash (dt : Nat) (mv : Vector Nat 4) (s : State) : FlashKept s (execVkeepRecovered dt mv s) := by
  simp [execVkeepRecovered]

theorem execRescueAutoStart_flash (dt : Nat) (s : State) : FlashKept s (execRescueAutoStart dt s) := by
  unfold execRescueAutoStart
  extract_lets
  (repeat' split) <;> simp +zetaDelta

theorem rescueStartHandler_flash (q : Letter) (t : State) : (rescueStartHandler.run q t).2.flash = t.flash := by
  simp only [rescueStartHandler, handler]
  (repeat' split) <;> simp

theorem execRescueLevelCheck_flash (dt : Nat) (s : State) : FlashKept s (execRescueLevelCheck dt s) := by
  unfold execRescueLevelCheck
  extract_lets
  (repeat' split) <;> simp +zetaDelta

theorem execEncPwrFault_flash (dt ma : Nat) (s : State) : FlashKept s (execEncPwrFault dt ma s) := by
  unfold execEncPwrFault
  extract_lets
  (repeat' split) <;> simp +zetaDelta

theorem execOvertemp_flash (dt : Nat) (fieldDie : Bool) (temp : Int) (s : State) :
    FlashKept s (execOvertemp dt fieldDie temp s) := by
  simp [execOvertemp]

/-- The state in which a read of a word ends, refused or not. -/
def readEnd : Except (Status × Nat × Nat × State) (Nat × State) → State
  | .error e => e.2.2.2
  | .ok r => r.2

theorem State.readAt_flash (a : Nat) (s : State) : (readEnd (s.readAt a)).flash = s.flash := by
  unfold State.readAt
  extract_lets e
  split
  · split
    · rfl
    · exact State.readReg_flash a s
  · split
    · exact (State.groupWordBad_flash ..).trans (State.eccRead_flash ..)
    · exact State.eccRead_flash ..

theorem regReadHandler_flash (q : Letter) (t : State) : (regReadHandler.run q t).2.flash = t.flash := by
  have hread := State.readAt_flash (u32 q.payload 0) t
  simp only [regReadHandler]
  split <;> rename_i heq <;> rw [heq] at hread
  · exact hread
  · split
    · exact (State.readClear_flash ..).trans hread
    · exact hread

theorem nopHandler_flash (q : Letter) (t : State) : (nopHandler.run q t).2.flash = t.flash := by
  simp [nopHandler, handler]

theorem identifyHandler_flash (q : Letter) (t : State) : (identifyHandler.run q t).2.flash = t.flash := by
  simp [identifyHandler, handler]

theorem tableReadHandler_flash (q : Letter) (t : State) : (tableReadHandler.run q t).2.flash = t.flash := by
  have hread := State.readMem_flash (u32 q.payload 0) (u32 q.payload 4) t
  simp only [tableReadHandler, handler]
  split <;> rename_i heq <;> rw [heq] at hread <;> exact hread

theorem tableCheckHandler_flash (q : Letter) (t : State) : (tableCheckHandler.run q t).2.flash = t.flash := by
  have hread := State.readMem_flash (u32 q.payload 0) (u32 q.payload 4) t
  simp only [tableCheckHandler, handler]
  split <;> rename_i heq <;> rw [heq] at hread <;> exact hread

theorem tableWriteHandler_flash (q : Letter) (t : State) : (tableWriteHandler.run q t).2.flash = t.flash := by
  simp [tableWriteHandler, handler]

theorem tableFillHandler_flash (q : Letter) (t : State) : (tableFillHandler.run q t).2.flash = t.flash := by
  simp [tableFillHandler, handler]

theorem abortHandler_flash (q : Letter) (t : State) : (abortHandler.run q t).2.flash = t.flash := by
  simp [abortHandler, handler]

theorem execDoorModulatorUpdate_flash (dt : Nat) (x : DoorIn) (s : State) : FlashKept s (execDoorModulatorUpdate dt x s) := by
  simp [execDoorModulatorUpdate]

theorem execLegacyStep_flash (dt : Nat) (x : LegacyIn) (s : State) : FlashKept s (execLegacyStep dt x s) := by
  simp [execLegacyStep]

theorem execServoTick_flash (dt : Nat) (x : TickIn) (s : State) : FlashKept s (execServoTick dt x s) := by
  simp [execServoTick]

theorem execEncFault_flash (dt : Nat) (k : Fin 3) (samples : List EncSample) (lineOk : Bool) (s : State) :
    FlashKept s (execEncFault dt k samples lineOk s) := by
  simp [execEncFault]

theorem execScrubberPass_flash (dt : Nat) (addr : Nat) (error : Fin 3) (s : State) :
    FlashKept s (execScrubberPass dt addr error s) := by
  simp [execScrubberPass]

theorem execEvtLost_flash (dt : Nat) (s : State) : FlashKept s (execEvtLost dt s) := by
  unfold execEvtLost
  extract_lets
  (repeat' split) <;> simp +zetaDelta

end Sys2Proof.Machine

/-! ### The life-cycle runs along its edges (R535, R536, R538, R539)

`LcRuns` is the step lemma's claim about two states. What leaves the flash die runs it trivially; a register write, a flash letter, a reset
or a boot keeps the record and at most drops the transition being written (`LcKept`); only the write of the record, whole or cut by a
reset, takes it along an edge (`lcRuns_transition`), and only LC_TRANSITION starts one. -/

namespace Sys2Proof.Machine

/-! ### The life-cycle record and the transition being written -/

/-- From `s` to `t` the life-cycle state stays, and the transition being written stays or is dropped. -/
def LcKept (s t : State) : Prop :=
  t.flash.lc = s.flash.lc ∧ (t.flash.lcTarget = s.flash.lcTarget ∨ t.flash.lcTarget = none)

/-- From `s` to `t` the life-cycle runs along an edge at most, and a transition being written along an edge too (R535). -/
def LcRuns (s t : State) : Prop :=
  s.edgeOk → t.edgeOk ∧ (t.flash.lc = s.flash.lc ∨ transitionOk s.flash.lc t.flash.lc = true)

/-- Whatever state an outcome leads to, the life-cycle runs along an edge at most. -/
def OutcomeRuns (s : State) (o : Host.Outcome State Fault Refusal) : Prop := ∀ t, o = .next t → LcRuns s t

theorem outcomeRuns_next {s t : State} (h : LcRuns s t) : OutcomeRuns s (.next t) :=
  fun _ hu => Host.Outcome.next.inj hu ▸ h

theorem LcKept.of_flash {s t : State} (h : t.flash = s.flash) : LcKept s t := by
  rw [LcKept, h]
  exact ⟨rfl, .inl rfl⟩

theorem LcKept.trans {s t u : State} (h : LcKept s t) (h' : LcKept t u) : LcKept s u := by
  obtain ⟨hlc, htarget⟩ := h
  obtain ⟨hlc', htarget'⟩ := h'
  exact ⟨hlc'.trans hlc, htarget'.elim (fun h' => htarget.imp h'.trans h'.trans) .inr⟩

theorem LcKept.runs {s t : State} (h : LcKept s t) : LcRuns s t := by
  obtain ⟨hlc, htarget⟩ := h
  refine fun hs => ⟨fun n hn => ?_, .inl hlc⟩
  rw [hlc]
  exact hs n (htarget.elim (fun h => h ▸ hn) fun h => absurd (h.symm.trans hn) (by simp))

/-- What keeps the life-cycle before a run of it. -/
theorem LcKept.then {s t u : State} (h : LcKept s t) (h' : LcRuns t u) : LcRuns s u := by
  obtain ⟨hlc, -⟩ := id h
  intro hs
  obtain ⟨hu, hrun⟩ := h' (h.runs hs).1
  exact ⟨hu, hlc ▸ hrun⟩

/-- What keeps the life-cycle after a run of it. -/
theorem LcRuns.kept {s t u : State} (h : LcRuns s t) (h' : LcKept t u) : LcRuns s u := by
  obtain ⟨hlc, -⟩ := id h'
  intro hs
  obtain ⟨ht, hrun⟩ := h hs
  exact ⟨(h'.runs ht).1, hlc ▸ hrun⟩

theorem LcRuns.of_flash {s t : State} (h : t.flash = s.flash) : LcRuns s t := (LcKept.of_flash h).runs

/-- An outcome that leaves the flash die keeps the life-cycle. -/
theorem FlashKept.runs {s : State} {o : Host.Outcome State Fault Refusal} (h : FlashKept s o) : OutcomeRuns s o :=
  fun t ht => .of_flash (h t ht)

/-- A transition written: the record takes its target (R536). -/
theorem lcRuns_transition {s t : State} {n : Nat} (hn : s.flash.lcTarget = some n) (ht : t.flash = s.flash.transition n) :
    LcRuns s t := by
  refine fun hs => ⟨fun k hk => ?_, .inr ?_⟩
  · rw [ht] at hk
    cases hk
  · rw [ht]
    exact hs n hn

/-! ### Serving a letter -/

theorem State.privCheck_flash {opc k : Nat} {l : Letter} {s : State} :
    (∀ t, s.privCheck opc k l = .ok t → t.flash = s.flash) ∧
      ∀ st d t, s.privCheck opc k l = .error (st, d, t) → t.flash = s.flash := by
  unfold State.privCheck
  constructor
  · intro t ht
    (repeat' split at ht) <;> cases ht <;> rfl
  · intro st d t ht
    (repeat' split at ht) <;> cases ht <;> simp

theorem State.gate_flash {opc : Nat} {i : OpInfo} {h : Handler} {l : Letter} {gap : Bool} {s : State} :
    (∀ t, s.gate opc i h l gap = .ok t → t.flash = s.flash) ∧ ∀ t, s.gate opc i h l gap = .error t → t.flash = s.flash := by
  unfold State.gate
  constructor
  · intro t ht
    split at ht
    · cases ht
    split at ht
    · cases ht
    split at ht
    · cases ht
    split at ht
    · cases ht
    next heq =>
      have hv := State.privCheck_flash.1 _ heq
      (repeat' split at ht) <;> cases ht
      exact hv
  · intro t ht
    split at ht
    · cases ht; simp
    split at ht
    · cases ht; simp
    split at ht
    · cases ht; simp
    split at ht
    · next heq =>
      cases ht
      exact (State.turnAway_flash ..).trans (State.privCheck_flash.2 _ _ _ heq)
    next heq =>
      have hv := State.privCheck_flash.1 _ heq
      (repeat' split at ht) <;> cases ht <;> simp [hv]

theorem State.taken_flash {opc : Nat} {l q : Letter} {gap : Bool} {s t : State} (h : s.taken opc l = some (q, gap, t)) :
    t.flash = s.flash := by
  unfold State.taken at h
  (repeat' split at h) <;> cases h
  exact State.admitHeld_flash _

/-- What serving an admitted letter can do to the flash die: nothing, or what its handler does. -/
theorem conclude_flash_cases (opc : Nat) (i : OpInfo) (h : Handler) (l : Letter) (gap : Bool) (t : State) :
    (t.conclude opc i h l gap).flash = t.flash ∨ (t.conclude opc i h l gap).flash = (h.run l t).2.flash := by
  unfold State.conclude
  extract_lets r
  split
  · split
    · exact .inr (State.answer_flash ..)
    · exact .inl (State.answer_flash ..)
  · exact .inr ((State.reply_flash ..).trans (State.keepLetter_flash ..))

/-- What serving a letter can do to the flash die: nothing, or what its handler does in a state with the same flash die. -/
theorem serve_flash_cases (opc : Nat) (h : Handler) (l : Letter) (s : State) :
    (s.serve opc h l).flash = s.flash ∨
      ∃ q t, t.flash = s.flash ∧ (s.serve opc h l).flash = (h.run q t).2.flash := by
  unfold State.serve
  extract_lets u
  split
  · next q gap v _ htaken =>
    have hv : v.flash = s.flash := State.taken_flash (s := u) htaken
    split <;> rename_i w hgate
    · exact .inl ((State.gate_flash.2 _ hgate).trans hv)
    · have hw := (State.gate_flash.1 _ hgate).trans hv
      exact (conclude_flash_cases opc _ h q gap w).imp (·.trans hw) fun hrun => ⟨q, w, hw, hrun⟩
  · exact .inl rfl

/-- Serving a letter leaves the flash die if its handler does. -/
theorem serve_flash {opc : Nat} {h : Handler} (hrun : ∀ q t, (h.run q t).2.flash = t.flash) (l : Letter) (s : State) :
    (s.serve opc h l).flash = s.flash :=
  (serve_flash_cases opc h l s).elim id fun ⟨q, t, ht, hserve⟩ => hserve.trans ((hrun q t).trans ht)

/-- Serving a letter runs the life-cycle as its handler does. -/
theorem serve_runs {opc : Nat} {h : Handler} (hrun : ∀ q t, LcRuns t (h.run q t).2) (l : Letter) (s : State) :
    OutcomeRuns s (.next (s.serve opc h l)) :=
  outcomeRuns_next <| (serve_flash_cases opc h l s).elim LcRuns.of_flash fun ⟨q, t, ht, hserve⟩ =>
    (LcKept.of_flash ht).then ((hrun q t).kept (.of_flash hserve))

/-- A letter row whose handler leaves the flash die. -/
theorem serve_runs_of_flash {opc : Nat} {h : Handler} (hrun : ∀ q t, (h.run q t).2.flash = t.flash) (l : Letter) (s : State) :
    OutcomeRuns s (.next (s.serve opc h l)) :=
  serve_runs (fun q t => .of_flash (hrun q t)) l s

/-! ### Register writes -/

theorem afterWrite_lcKept (a old new m : Nat) (s : State) : LcKept s (s.afterWrite a old new m) := by
  unfold State.afterWrite
  (repeat' split) <;> simp [LcKept]

/-- A choice between two effects that each keep the life-cycle keeps it. -/
theorem lcKept_choice {c : Prop} [Decidable c] {s : State} {a b : Option WriteRes} (ha : ∀ r, a = some r → LcKept s r.2)
    (hb : ∀ r, b = some r → LcKept s r.2) : ∀ r, (if c then a else b) = some r → LcKept s r.2 := by
  split <;> assumption

/-- An effect that leaves the flash die keeps the life-cycle. -/
theorem lcKept_some {s : State} {x : WriteRes} (h : x.2.flash = s.flash) : ∀ r, some x = some r → LcKept s r.2 :=
  fun _ hr => .of_flash (Option.some.inj hr ▸ h)

theorem writeSpecial_lcKept (a v m : Nat) (s : State) : ∀ r, s.writeSpecial a v m = some r → LcKept s r.2 := by
  unfold State.writeSpecial
  extract_lets w k b c
  refine lcKept_choice ?stage <| lcKept_choice ?keyctl <| lcKept_choice ?coef <| lcKept_choice ?trip <| lcKept_choice ?enc <|
    lcKept_choice ?door <| lcKept_choice ?cause <| lcKept_choice ?user <| lcKept_choice ?tkstop <| lcKept_choice ?flags <|
    lcKept_choice ?sig <| lcKept_choice ?link <| lcKept_choice ?canLock <| lcKept_choice ?resetCause ?none
  case stage => exact fun r hr => Option.some.inj hr ▸ ⟨rfl, .inl rfl⟩
  case keyctl => exact lcKept_choice (lcKept_some rfl) fun r hr => Option.some.inj hr ▸ ⟨rfl, .inl rfl⟩
  case coef =>
    split
    · exact lcKept_some rfl
    split
    · exact lcKept_some rfl
    · next hcoef => exact lcKept_some (State.coefWrite_flash hcoef)
  case trip => refine lcKept_some ?_; (repeat' split) <;> rfl
  case enc =>
    refine lcKept_some ?_
    split
    · split
      · exact State.encFaultClear_flash ..
      · rfl
    · rfl
  case door => refine lcKept_some ?_; (repeat' split) <;> rfl
  case cause => exact lcKept_some (State.causeClear_flash ..)
  case user => exact lcKept_some rfl
  case tkstop =>
    refine lcKept_some ?_
    dsimp only
    split
    · exact State.tkstopClear_flash ..
    · rfl
  case flags => exact lcKept_some (State.millFlagsClear_flash ..)
  case sig => exact lcKept_some (State.millSig_flash ..)
  case link =>
    refine lcKept_some ?_
    dsimp only
    split
    · exact State.linkOffClear_flash ..
    · rfl
  case canLock => exact lcKept_some (State.lockWrite_flash ..)
  case resetCause => exact lcKept_some rfl
  case none => exact fun _ hr => nomatch hr

theorem writeHi_flash (a v m : Nat) (s : State) : (s.writeHi a v m).2.flash = s.flash := by
  unfold State.writeHi
  extract_lets lo p u
  (repeat' split) <;> simp [noWrite', u]

theorem writeLand_flash (new m : Nat) (s : State) : (s.writeLand new m).2.flash = s.flash := by
  unfold State.writeLand
  extract_lets k t e u ws ls rising
  split
  · rfl
  split
  · rfl
  split
  · exact State.eccRead_flash ..
  split
  · exact State.eccRead_flash ..
  · exact State.eccRead_flash ..

theorem writeWord_flash (a v : Nat) (s : State) : (s.writeWord a v).2.flash = s.flash := by
  unfold State.writeWord
  split
  · rfl
  split
  · exact State.eccFound_flash ..
  · exact (State.storeBytes_flash ..).trans (foldl_flash (fun s w => State.eccCorrect_flash s w) _ s)

theorem writeEffect_lcKept (a new v m : Nat) (s : State) : LcKept s (s.writeEffect a new v m).2 := by
  unfold State.writeEffect
  split
  · next h => exact writeSpecial_lcKept a v m s _ h
  split
  · exact .of_flash rfl
  split
  · exact .of_flash (writeHi_flash ..)
  split
  · exact .of_flash (writeLand_flash ..)
  split
  · exact .of_flash rfl
  · exact LcKept.trans (.of_flash (State.setReg_flash ..)) (afterWrite_lcKept ..)

theorem writeReg_lcKept (a v m : Nat) (s : State) : LcKept s (s.writeReg a v m).2 := by
  unfold State.writeReg
  extract_lets new
  split
  · exact .of_flash rfl
  split
  · exact .of_flash rfl
  split
  · exact .of_flash rfl
  split
  · exact .of_flash rfl
  · exact writeEffect_lcKept ..

theorem writeAt_lcKept (a v m : Nat) (s : State) : LcKept s (s.writeAt a v m).2 := by
  unfold State.writeAt
  split
  · exact writeReg_lcKept ..
  · exact .of_flash (writeWord_flash ..)

theorem writeReply_state (old : Nat) (r : WriteRes) : (writeReply old r).2 = r.2 := by
  unfold writeReply
  split <;> rfl

theorem regWriteHandler_lcKept (q : Letter) (t : State) : LcKept t (regWriteHandler.run q t).2 := by
  show LcKept t (writeReply 0 _).2
  rw [writeReply_state]
  exact writeAt_lcKept ..

theorem regModifyHandler_lcKept (q : Letter) (t : State) : LcKept t (regModifyHandler.run q t).2 := by
  have hread := State.readAt_flash (u32 q.payload 0) t
  have hwrite (old v m : Nat) (u : State) (hu : u.flash = t.flash) :
      LcKept t (if (u.writeAt (u32 q.payload 0) v m).1.isSome = true then writeReply old (t.writeAt (u32 q.payload 0) v m)
        else writeReply old (u.writeAt (u32 q.payload 0) v m)).2 := by
    split <;> rw [writeReply_state]
    · exact writeAt_lcKept ..
    · exact LcKept.trans (.of_flash hu) (writeAt_lcKept ..)
  simp only [regModifyHandler]
  split <;> rename_i heq <;> rw [heq] at hread
  · exact .of_flash hread
  · exact hwrite _ _ _ _ hread

/-- The row of a register write keeps the life-cycle. -/
theorem writeRow_runs (h : Head) (a : Nat) (v : Word) (s : State) : OutcomeRuns s (.next (s.writeRow h a v)) :=
  serve_runs (fun q t => (regWriteHandler_lcKept q t).runs) _ s

/-! ### The flash letters and events -/

theorem putCopy_lc (b : Fin 2) (isB : Bool) (c : ConfCopy) (f : FlashSt) :
    (f.putCopy b isB c).lc = f.lc ∧ (f.putCopy b isB c).lcTarget = f.lcTarget := by
  unfold FlashSt.putCopy
  split <;> exact ⟨rfl, rfl⟩

theorem configSaveHandler_lcKept (q : Letter) (t : State) : LcKept t (configSaveHandler.run q t).2 := by
  simp only [configSaveHandler, handler]
  (repeat' split) <;> simp [LcKept, refuse, refuseWith, putCopy_lc]

theorem imageWriteHandler_lcKept (q : Letter) (t : State) : LcKept t (imageWriteHandler.run q t).2 := by
  simp only [imageWriteHandler, handler]
  (repeat' split) <;> simp [LcKept, refuse, doneWith]

theorem imageVerifyHandler_lcKept (q : Letter) (t : State) : LcKept t (imageVerifyHandler.run q t).2 := by
  simp only [imageVerifyHandler, handler]
  split <;> simp [LcKept, refuse]

theorem imageActivateHandler_lcKept (q : Letter) (t : State) : LcKept t (imageActivateHandler.run q t).2 := by
  simp only [imageActivateHandler, handler]
  split <;> simp [LcKept, refuse, doneWith]

/-- LC_TRANSITION starts a transition along an edge only (R536). -/
theorem lcTransitionHandler_runs (q : Letter) (t : State) : LcRuns t (lcTransitionHandler.run q t).2 := by
  simp only [lcTransitionHandler, handler]
  split
  · exact .of_flash rfl
  next hedge =>
  split
  · exact .of_flash rfl
  split
  · exact .of_flash rfl
  split
  · exact .of_flash rfl
  split
  · exact .of_flash rfl
  · refine fun _ => ⟨fun n hn => ?_, .inl rfl⟩
    cases hn
    simpa using hedge

theorem execConfigSaveDone_runs (dt : Nat) (ok : Bool) (s : State) : OutcomeRuns s (execConfigSaveDone dt ok s) := by
  unfold execConfigSaveDone
  extract_lets t
  split
  · exact outcomeRuns_next (.of_flash rfl)
  split
  · exact outcomeRuns_next (.of_flash rfl)
  split <;> refine outcomeRuns_next (LcKept.runs ?_) <;> rw [LcKept, State.complete_flash]
  · exact ⟨(putCopy_lc ..).1, .inl (putCopy_lc ..).2⟩
  · exact ⟨rfl, .inl rfl⟩

theorem execImageVerifyDone_runs (dt : Nat) (s : State) : OutcomeRuns s (execImageVerifyDone dt s) := by
  unfold execImageVerifyDone
  extract_lets t
  split
  · exact outcomeRuns_next (.of_flash rfl)
  split
  · exact outcomeRuns_next (.of_flash rfl)
  split <;> refine outcomeRuns_next (LcKept.runs ?_) <;> rw [LcKept, State.complete_flash] <;> exact ⟨rfl, .inl rfl⟩

theorem execFlashProgramDone_runs (dt : Nat) (s : State) : OutcomeRuns s (execFlashProgramDone dt s) := by
  unfold execFlashProgramDone
  extract_lets t
  split
  · exact outcomeRuns_next (.of_flash rfl)
  · exact outcomeRuns_next (LcKept.runs ⟨rfl, .inl rfl⟩)

/-! ### Resets and the boot -/

theorem tear_lc (f : FlashSt) : f.tear.lc = f.lc := by
  unfold FlashSt.tear
  split <;> rfl

theorem dropSave_lc (f : FlashSt) : f.dropSave.lc = f.lc := by
  unfold FlashSt.dropSave
  split
  · exact (putCopy_lc ..).1
  · rfl

/-- A reset keeps the record and drops the transition being written (R539). -/
theorem afterReset_lc (f : FlashSt) : f.afterReset.lc = f.lc ∧ f.afterReset.lcTarget = none :=
  ⟨(dropSave_lc f.tear).trans (tear_lc f), rfl⟩

/-- A reset during the write of the record leaves the old state or the new one (R539). -/
theorem cutTransition_runs (s : State) : LcRuns s s.cutTransition := by
  unfold State.cutTransition
  split
  · next n hn =>
    extract_lets b
    split
    · exact lcRuns_transition hn rfl
    · exact .of_flash rfl
  · exact .of_flash rfl

theorem moduleReset_runs {s u : State} (h : u.flash = s.flash) (cause : Nat) (phase : Phase) :
    LcRuns s (u.moduleReset cause phase) :=
  (LcKept.of_flash h).then ((cutTransition_runs u).kept ⟨(afterReset_lc u.cutTransition.flash).1, .inr rfl⟩)

/-- A module reset with no transition being written keeps the life-cycle. -/
theorem moduleReset_lcKept {u : State} (h : u.flash.lcTarget = none) (cause : Nat) (phase : Phase) :
    LcKept u (u.moduleReset cause phase) := by
  have hcut : u.cutTransition = u := by
    unfold State.cutTransition
    rw [h]
  refine ⟨?_, .inr rfl⟩
  show u.cutTransition.flash.afterReset.lc = _
  rw [hcut]
  exact (afterReset_lc _).1

theorem execPowerOnReset_runs (dt : Nat) (s : State) : OutcomeRuns s (execPowerOnReset dt s) :=
  outcomeRuns_next (LcRuns.kept (LcKept.then (.of_flash (State.advance_flash s dt)) (cutTransition_runs _))
    ⟨(afterReset_lc (s.advance dt).cutTransition.flash).1, .inr rfl⟩)

theorem execBrownOut_runs (dt vlog vkeep : Nat) (s : State) : OutcomeRuns s (execBrownOut dt vlog vkeep s) := by
  unfold execBrownOut
  extract_lets t
  split
  · exact outcomeRuns_next (by apply moduleReset_runs; exact State.advance_flash s dt)
  · exact outcomeRuns_next (.of_flash rfl)

theorem execResetPin_runs (dt : Nat) (s : State) : OutcomeRuns s (execResetPin dt s) :=
  outcomeRuns_next (moduleReset_runs (State.advance_flash s dt) _ _)

theorem resetIfDue_runs {s u : State} (h : u.flash = s.flash) (port : Fin 6) : LcRuns s (u.resetIfDue port) := by
  have hsent := (State.portSent_flash port (u.setPwr { u.pwr with resetDue := false })).trans ((State.setPwr_flash ..).trans h)
  unfold State.resetIfDue
  split
  · exact moduleReset_runs hsent _ _
  · exact .of_flash h

/-- MODULE_RESET: the letter leaves the flash die, and the module reset that follows runs the life-cycle. -/
theorem serve_moduleReset_runs (l : Letter) (s : State) :
    OutcomeRuns s (.next ((s.serve 0x008 moduleResetHandler l).resetIfDue l.port)) :=
  outcomeRuns_next (resetIfDue_runs (serve_flash moduleResetHandler_flash l s) _)

theorem execClockFault_runs (dt : Nat) (source : Fin 3) (s : State) : OutcomeRuns s (execClockFault dt source s) := by
  unfold execClockFault
  extract_lets t
  split
  · exact outcomeRuns_next (.of_flash rfl)
  · exact outcomeRuns_next (by apply moduleReset_runs; exact State.advance_flash s dt)

/-- LC_RECORD_WRITTEN: the record is written, and the module reset after it finds no transition being written (R536). -/
theorem execLcRecordWritten_runs (dt : Nat) (s : State) : OutcomeRuns s (execLcRecordWritten dt s) := by
  unfold execLcRecordWritten
  extract_lets t port
  split
  · exact outcomeRuns_next (.of_flash rfl)
  split
  · exact outcomeRuns_next (.of_flash rfl)
  next n hn =>
  have hflash :=
    (State.portSent_flash port _).trans (State.complete_flash .lcTransition .done 0 0 (t.setFlash (t.flash.transition n)))
  have hrun := lcRuns_transition (s := s) hn hflash
  exact outcomeRuns_next (hrun.kept (moduleReset_lcKept (hflash ▸ rfl) ..))

theorem bootEvents_lcKept (s : State) : LcKept s s.bootEvents := by
  unfold State.bootEvents
  extract_lets p s1 s2 s3 s4
  have h2 : s2.flash = s.flash := by unfold s2; split <;> rfl
  have h3 : s3.flash = s.flash := by unfold s3; split <;> exact h2
  have h4 : s4.flash = s.flash := by unfold s4; split <;> exact h3
  exact LcKept.trans (.of_flash h4) ⟨rfl, .inl rfl⟩

theorem recover_lcKept (aFails : Bool) (s : State) : LcKept s (s.recover aFails) := by
  unfold State.recover
  extract_lets s1 p s2
  have h2 : s2.flash = s.flash := by simp [s2, s1]
  exact (LcKept.trans (.of_flash ((State.post_flash ..).trans h2)) (bootEvents_lcKept _)).trans (.of_flash (State.bootMains_flash _))

theorem bootFrom_lcKept (b : Fin 2) (fallback bad aFails : Bool) (s : State) : LcKept s (s.bootFrom b fallback bad aFails) := by
  unfold State.bootFrom
  extract_lets f c s1 g s2 p s3 s4 s5 s6
  have h1 : s1.flash = s.flash := by simp [s1]
  have h2 : LcKept s s2 := LcKept.trans (.of_flash h1) ⟨rfl, .inl rfl⟩
  have h4 : s4.flash = s2.flash := by unfold s4; split <;> rfl
  have h5 : s5.flash = s2.flash := by unfold s5; split <;> exact h4
  have h6 : s6.flash = s2.flash := by simp [s6, h5]
  exact ((h2.trans (.of_flash h6)).trans (bootEvents_lcKept _)).trans
    (.of_flash ((State.postStored_flash ..).trans (State.bootMains_flash _)))

theorem erased_lc (f : FlashSt) : f.erased.lc = f.lc ∧ f.erased.lcTarget = f.lcTarget := by
  unfold FlashSt.erased
  split <;> exact ⟨rfl, rfl⟩

theorem execBoot_runs (dt : Nat) (imageBad aFails : Bool) (s : State) : OutcomeRuns s (execBoot dt imageBad aFails s) := by
  unfold execBoot
  extract_lets t u
  have hu : LcKept s u := ⟨(erased_lc _).1, .inl (erased_lc _).2⟩
  split
  · exact outcomeRuns_next (.of_flash rfl)
  split
  · exact outcomeRuns_next (hu.trans (bootFrom_lcKept ..)).runs
  · exact outcomeRuns_next (hu.trans (recover_lcKept ..)).runs

/-! ### Waking -/

theorem wake_runs {s u : State} (h : u.flash = s.flash) (src : Nat) : LcRuns s (u.wake src) := by
  unfold State.wake
  extract_lets m _ t _ v w
  have ht : t.flash = s.flash := h
  have hv : v.flash = s.flash := (State.post_flash ..).trans ht
  have hw : w.flash = s.flash := by
    unfold w
    split
    · exact (State.unsleep_flash v).trans hv
    · exact hv
  split
  · exact .of_flash h
  split
  · exact moduleReset_runs ht _ _
  split
  · exact .of_flash hw
  · exact .of_flash ((State.unpark_flash w).trans hw)

theorem execWake_runs (dt : Nat) (src : Fin 14) (s : State) : OutcomeRuns s (execWake dt src s) := by
  unfold execWake
  extract_lets t
  have ht : t.flash = s.flash := State.advance_flash s dt
  split
  · exact outcomeRuns_next (.of_flash ht)
  split
  · exact outcomeRuns_next (.of_flash ht)
  split
  · exact outcomeRuns_next (wake_runs ht _)
  · exact outcomeRuns_next (wake_runs ((State.freeUpTo_flash 255 t).trans ht) _)

theorem execPowerModeEntry_runs (dt : Nat) (s : State) : OutcomeRuns s (execPowerModeEntry dt s) := by
  unfold execPowerModeEntry
  extract_lets t
  split
  · exact outcomeRuns_next (.of_flash rfl)
  split
  · exact outcomeRuns_next (.of_flash rfl)
  split
  · exact outcomeRuns_next (.of_flash rfl)
  extract_lets t1 t2 t3
  have h2 : t2.flash = s.flash := by unfold t2; split <;> simp [t1, t]
  have h3 : t3.flash = s.flash := by unfold t3; split <;> simp [h2]
  split
  · exact outcomeRuns_next (.of_flash h3)
  · exact outcomeRuns_next (wake_runs h3 _)

theorem execMainsLoss_runs (dt : Nat) (vlog : Vector Nat 4) (vkeep : Nat) (low : Vector Bool 4) (s : State) :
    OutcomeRuns s (execMainsLoss dt vlog vkeep low s) := by
  unfold execMainsLoss
  extract_lets t _ u
  have ht : t.flash = s.flash := State.advance_flash s dt
  have hu : u.flash = s.flash := ht
  split
  · split
    · exact outcomeRuns_next (.of_flash hu)
    split
    · exact outcomeRuns_next (wake_runs hu _)
    · exact outcomeRuns_next ((wake_runs ((State.post_flash ..).trans hu) _).kept (.of_flash (State.mainsShed_flash _)))
  · exact outcomeRuns_next (.of_flash ht)

/-! ### ABORT -/

theorem haltAction_lcKept (a : Action) (s : State) : LcKept s (s.haltAction a).2 := by
  cases a with
  | move u =>
    refine .of_flash ((State.orderStop_flash ..).trans ?_)
    exact (State.untail_flash ..).trans (State.setRamp_flash ..)
  | home u => exact .of_flash (State.orderStop_flash ..)
  | doorOpen | doorClose => exact .of_flash (t := s.haltDoor) (State.haltDoor_flash s)
  | lockTest2 => exact .of_flash (State.gateStep_flash (s.setLock { s.lock with stoTest := none }))
  | canTx c b => exact .of_flash (t := (s.abortTx c b).2) (State.abortTx_flash c b s)
  | linkStart => exact .of_flash (t := s.linkOff) (State.linkOff_flash s)
  | rescue => exact .of_flash (t := s.haltRescue) (State.haltRescue_flash s)
  | tail | stop | doorStop | inject | capture | groupJoin | groupLeave | lockCommit | lockTest1 | watchChange | linkStop =>
    exact .of_flash rfl
  | configSave | imageVerify => exact ⟨rfl, .inl rfl⟩
  | lcTransition => exact ⟨rfl, .inr rfl⟩

theorem abortOne_lcKept (q : AbortReq) (s : State) : LcKept s (s.abortOne q) := by
  unfold State.abortOne
  split
  · exact .of_flash (State.abortReceipt_flash ..)
  split
  · split
    · exact .of_flash (State.abortReceipt_flash ..)
    · exact (haltAction_lcKept ..).trans (.of_flash ((State.abortReceipt_flash ..).trans (State.completeIf_flash ..)))
  split
  · exact .of_flash (State.abortReceipt_flash ..)
  split <;> exact .of_flash (State.abortReceipt_flash ..)

theorem execAbortTakesEffect_runs (dt : Nat) (s : State) : OutcomeRuns s (execAbortTakesEffect dt s) := by
  have hfold (l : List AbortReq) (u : State) : LcKept u (l.foldl (fun s q => s.abortOne q) u) := by
    induction l generalizing u with
    | nil => exact .of_flash rfl
    | cons q l ih => exact (abortOne_lcKept q u).trans (ih _)
  unfold execAbortTakesEffect
  extract_lets t
  split
  · exact outcomeRuns_next (.of_flash rfl)
  · refine outcomeRuns_next (LcKept.trans (.of_flash ?_) (hfold _ _)).runs
    exact State.advance_flash s dt

/-! ### Every row -/

/-- What stays within the frame of a mill's instruction leaves the flash die. -/
theorem MillFrame.flash {m : Fin 4} {kept : Nat → Prop} {s u : State} (h : MillFrame m kept s u) : u.flash = s.flash := by
  rw [h.rest]

/-- The rows of the stores. -/
theorem millStore_runs {m : Fin 4} {stall : Nat} {s : State} {pick : MillOp → Option (State → MillOut)}
    (h : ∀ o f t, pick o = some f → MillFrame m (fun _ => False) t (f t).state) : OutcomeRuns s (s.mill1 m stall pick) :=
  fun _ hu => .of_flash (millFrame_mill1 h hu).flash

theorem execMillStx_runs (m : Fin 4) (stall : Nat) (s : State) : OutcomeRuns s (execMillStx m stall s) := by
  refine millStore_runs fun o f t hf => ?_
  split at hf <;> cases hf
  exact millFrame_eaOut fun _ _ _ _ => millFrame_storeOut _ (fun _ => False.elim) t

theorem execMillSty_runs (m : Fin 4) (stall : Nat) (s : State) : OutcomeRuns s (execMillSty m stall s) := by
  refine millStore_runs fun o f t hf => ?_
  split at hf <;> cases hf
  exact millFrame_eaOut fun _ _ _ _ => millFrame_storeOut _ (fun _ => False.elim) t

theorem execMillStxa_runs (m : Fin 4) (stall : Nat) (s : State) : OutcomeRuns s (execMillStxa m stall s) := by
  refine millStore_runs fun o f t hf => ?_
  split at hf <;> cases hf
  exact millFrame_absOut (millFrame_storeOut _ (fun _ => False.elim) t)

theorem execMillStya_runs (m : Fin 4) (stall : Nat) (s : State) : OutcomeRuns s (execMillStya m stall s) := by
  refine millStore_runs fun o f t hf => ?_
  split at hf <;> cases hf
  exact millFrame_absOut (millFrame_storeOut _ (fun _ => False.elim) t)

/-- Every command runs the life-cycle along an edge at most. -/
theorem exec_runs (c : Instr) (s : State) : OutcomeRuns s (exec c s) := by
  cases c with
  | sysBgenWrite | sysTickWrite | letterBudgetWrite | letterShareWrite | positionHiWrite | encFaultClear | ssi0ConfigWrite
  | senseLandCountWrite | loopBankWrite | coefWrite | notchEnWrite | hoistKWrite | hoistTripClear | cogAddrWrite
  | loopMillWrite | loopCapselWrite | doorFaultClear | doorPositionWrite | lockCauseClear | laneTkstopWrite | millFlagsClear
  | millSigWrite | millEvvecWrite | fioLinkoffClear | canLockWrite | canBitTimingWrite | groupCfgWrite | sysKeyctlWrite
  | encPwrRestore =>
    exact writeRow_runs _ _ _ s
  | millNop m stall | millHalt m stall | millMov m stall | millAdd m stall | millSub m stall | millNeg m stall
  | millAbs m stall | millMin m stall | millMax m stall | millAnd m stall | millOr m stall | millXor m stall
  | millNot m stall | millShl m stall | millAsr m stall | millLsr m stall | millCmp m stall | millMovi m stall
  | millMovu m stall | millLdx m stall | millLdy m stall | millMovai m stall | millSetb m stall | millSetl m stall
  | millMovda m stall | millMovad m stall | millMpy m stall | millMac m stall | millMsu m stall | millMacxy m stall
  | millMsuxy m stall | millClra m stall | millAccld m stall | millAccadd m stall | millExt m stall | millB m stall
  | millCall m stall | millRet m stall | millLoop m stall | millEndl m stall | millRte m stall | millClrf m stall
  | millMovl m stall | millAddl m stall | millAndl m stall | millCmpl m stall | millLdxa m stall | millLdya m stall =>
    exact fun u hu => .of_flash (millFrame_of_not_store m stall s u _ (by simp) hu).flash
  | millStx m stall => exact execMillStx_runs m stall s
  | millSty m stall => exact execMillSty_runs m stall s
  | millStxa m stall => exact execMillStxa_runs m stall s
  | millStya m stall => exact execMillStya_runs m stall s
  | powerOnReset dt => exact execPowerOnReset_runs dt s
  | brownOut dt vlog vkeep => exact execBrownOut_runs dt vlog vkeep s
  | resetPin dt => exact execResetPin_runs dt s
  | supplyStable dt x => exact (execSupplyStable_flash dt x s).runs
  | moduleResetSequence dt straps => exact (execModuleResetSequence_flash dt straps s).runs
  | boot dt imageBad aFails => exact execBoot_runs dt imageBad aFails s
  | bootDone dt => exact (execBootDone_flash dt s).runs
  | servoTick dt x => exact (execServoTick_flash dt x s).runs
  | parcelSeal dt units => exact (execParcelSeal_flash dt units s).runs
  | currentSample dt x => exact (execCurrentSample_flash dt x s).runs
  | overcurrent dt k bits => exact (execOvercurrent_flash dt k bits s).runs
  | loopSat dt l => exact (execLoopSat_flash dt l s).runs
  | brakePickEnd dt b => exact (execBrakePickEnd_flash dt b s).runs
  | letterArrival dt port bytes => exact (execLetterArrival_flash dt port bytes s).runs
  | hpPost dt length => exact (execHpPost_flash dt length s).runs
  | hpTake dt take => exact (execHpTake_flash dt take s).runs
  | hpEvidxWrite dt rd => exact (execHpEvidxWrite_flash dt rd s).runs
  | canLetterSegment dt ctrl sender dest data => exact (execCanLetterSegment_flash dt ctrl sender dest data s).runs
  | canReassemblyTimeout dt ctrl sender => exact (execCanReassemblyTimeout_flash dt ctrl sender s).runs
  | uartLetter dt bytes => exact (execUartLetter_flash dt bytes s).runs
  | uartGapTimeout dt => exact (execUartGapTimeout_flash dt s).runs
  | nop l => exact serve_runs_of_flash nopHandler_flash l s
  | identify l => exact serve_runs_of_flash identifyHandler_flash l s
  | regRead l => exact serve_runs_of_flash regReadHandler_flash l s
  | regWrite l => exact serve_runs (fun q t => (regWriteHandler_lcKept q t).runs) l s
  | regModify l => exact serve_runs (fun q t => (regModifyHandler_lcKept q t).runs) l s
  | moduleReset l | moduleResetLane l => exact serve_moduleReset_runs l s
  | configSave l => exact serve_runs (fun q t => (configSaveHandler_lcKept q t).runs) l s
  | tableWrite l => exact serve_runs_of_flash tableWriteHandler_flash l s
  | tableRead l => exact serve_runs_of_flash tableReadHandler_flash l s
  | tableCheck l => exact serve_runs_of_flash tableCheckHandler_flash l s
  | tableFill l => exact serve_runs_of_flash tableFillHandler_flash l s
  | moveRun l => exact serve_runs_of_flash moveRunHandler_flash l s
  | moveTrap l => exact serve_runs_of_flash moveTrapHandler_flash l s
  | moveTail l => exact serve_runs_of_flash moveTailHandler_flash l s
  | moveStop l => exact serve_runs_of_flash moveStopHandler_flash l s
  | setLimits l => exact serve_runs_of_flash setLimitsHandler_flash l s
  | home l => exact serve_runs_of_flash homeHandler_flash l s
  | gearSet l => exact serve_runs_of_flash gearSetHandler_flash l s
  | doorMode l => exact serve_runs_of_flash doorModeHandler_flash l s
  | doorOpen l => exact serve_runs_of_flash doorOpenHandler_flash l s
  | doorClose l => exact serve_runs_of_flash doorCloseHandler_flash l s
  | doorStop l => exact serve_runs_of_flash doorStopHandler_flash l s
  | doorLimits l => exact serve_runs_of_flash doorLimitsHandler_flash l s
  | loopConfig l => exact serve_runs_of_flash loopConfigHandler_flash l s
  | loopMode l => exact serve_runs_of_flash loopModeHandler_flash l s
  | coefBank l => exact serve_runs_of_flash coefBankHandler_flash l s
  | schedSet l => exact serve_runs_of_flash schedSetHandler_flash l s
  | inject l => exact serve_runs_of_flash injectHandler_flash l s
  | capture l => exact serve_runs_of_flash captureHandler_flash l s
  | groupJoin l => exact serve_runs_of_flash groupJoinHandler_flash l s
  | groupLeave l => exact serve_runs_of_flash groupLeaveHandler_flash l s
  | policySet l => exact serve_runs_of_flash policySetHandler_flash l s
  | flightSet l => exact serve_runs_of_flash flightSetHandler_flash l s
  | callEnter l | callCancel l => exact serve_runs_of_flash (callHandler_flash _ _) l s
  | lockLoad l => exact serve_runs_of_flash lockLoadHandler_flash l s
  | lockCommit l => exact serve_runs_of_flash lockCommitHandler_flash l s
  | lockTestBridge l | lockTestSto l => exact serve_runs_of_flash lockTestHandler_flash l s
  | watchChange l => exact serve_runs_of_flash watchChangeHandler_flash l s
  | watchSet l => exact serve_runs_of_flash watchSetHandler_flash l s
  | millStartTick l | millStartOnce l => exact serve_runs_of_flash millStartHandler_flash l s
  | millStop l => exact serve_runs_of_flash millStopHandler_flash l s
  | millFetch l => exact serve_runs_of_flash millFetchHandler_flash l s
  | outSet l => exact serve_runs_of_flash outSetHandler_flash l s
  | inRead l => exact serve_runs_of_flash inReadHandler_flash l s
  | outRestoreGroup l | outRestoreChannel l => exact serve_runs_of_flash outRestoreHandler_flash l s
  | counterConfig l => exact serve_runs_of_flash counterConfigHandler_flash l s
  | canMode l => exact serve_runs_of_flash canModeHandler_flash l s
  | canFilter l => exact serve_runs_of_flash canFilterHandler_flash l s
  | canTx l => exact serve_runs_of_flash canTxHandler_flash l s
  | canCancel l => exact serve_runs_of_flash canCancelHandler_flash l s
  | canRead l => exact serve_runs_of_flash canReadHandler_flash l s
  | linkModeStart l | linkModeStop l => exact serve_runs_of_flash linkModeHandler_flash l s
  | powerMode l => exact serve_runs_of_flash powerModeHandler_flash l s
  | rescueStart l => exact serve_runs_of_flash rescueStartHandler_flash l s
  | imageWrite l => exact serve_runs (fun q t => (imageWriteHandler_lcKept q t).runs) l s
  | imageVerify l => exact serve_runs (fun q t => (imageVerifyHandler_lcKept q t).runs) l s
  | imageActivate l => exact serve_runs (fun q t => (imageActivateHandler_lcKept q t).runs) l s
  | lcTransition l => exact serve_runs lcTransitionHandler_runs l s
  | abort l => exact serve_runs_of_flash abortHandler_flash l s
  | abortTakesEffect dt => exact execAbortTakesEffect_runs dt s
  | sessionOpenChallenge l | sessionOpenProve l | sessionOpenClose l => exact serve_runs_of_flash sessionHandler_flash l s
  | sessionTimeout dt => exact (execSessionTimeout_flash dt s).runs
  | sessionLockoutEnd dt => exact (execSessionLockoutEnd_flash dt s).runs
  | limitStop dt u k => exact (execLimitStop_flash dt u k s).runs
  | homeRearmEnd dt u => exact (execHomeRearmEnd_flash dt u s).runs
  | homeCapture dt u cap => exact (execHomeCapture_flash dt u cap s).runs
  | homeAdjust dt u => exact (execHomeAdjust_flash dt u s).runs
  | homeSearchExhausted dt u => exact (execHomeSearchExhausted_flash dt u s).runs
  | homeLimit dt u input => exact (execHomeLimit_flash dt u input s).runs
  | encFault dt k samples lineOk => exact (execEncFault_flash dt k samples lineOk s).runs
  | encAbsAngleSet dt c d => exact (execEncAbsAngleSet_flash dt c d s).runs
  | encZSync dt k enc => exact (execEncZSync_flash dt k enc s).runs
  | ssiRead dt x => exact (execSsiRead_flash dt x s).runs
  | sdFault dt x => exact (execSdFault_flash dt x s).runs
  | positionMismatch dt => exact (execPositionMismatch_flash dt s).runs
  | doorModulatorUpdate dt x => exact (execDoorModulatorUpdate_flash dt x s).runs
  | legacyStep dt x => exact (execLegacyStep_flash dt x s).runs
  | doorObstructed dt k => exact (execDoorObstructed_flash dt k s).runs
  | doorStall dt => exact (execDoorStall_flash dt s).runs
  | doorOpenTimeout dt => exact (execDoorOpenTimeout_flash dt s).runs
  | doorCloseTimeout dt => exact (execDoorCloseTimeout_flash dt s).runs
  | doorReopen dt => exact (execDoorReopen_flash dt s).runs
  | doorHoldExpiry dt => exact (execDoorHoldExpiry_flash dt s).runs
  | doorNudge dt => exact (execDoorNudge_flash dt s).runs
  | stageFault dt kind value => exact (execStageFault_flash dt kind value s).runs
  | interlockEvaluation dt x => exact (execInterlockEvaluation_flash dt x s).runs
  | bridgeFail dt => exact (execBridgeFail_flash dt s).runs
  | lockDiscrepancy dt k => exact (execLockDiscrepancy_flash dt k s).runs
  | delayElementExpiry dt k => exact (execDelayElementExpiry_flash dt k s).runs
  | lockDisagree dt => exact (execLockDisagree_flash dt s).runs
  | safetyChainOpen dt k => exact (execSafetyChainOpen_flash dt k s).runs
  | lockImageCheck dt bad1 bad2 => exact (execLockImageCheck_flash dt bad1 bad2 s).runs
  | lockCommitted dt bad => exact (execLockCommitted_flash dt bad s).runs
  | stoTestStep dt => exact (execStoTestStep_flash dt s).runs
  | stoTestDue dt => exact (execStoTestDue_flash dt s).runs
  | laneFault dt x => exact (execLaneFault_flash dt x s).runs
  | wdogExpired dt => exact (execWdogExpired_flash dt s).runs
  | takeover dt bad0 bad1 replay => exact (execTakeover_flash dt bad0 bad1 replay s).runs
  | parcelStale dt => exact (execParcelStale_flash dt s).runs
  | standbyReady dt laneB failed => exact (execStandbyReady_flash dt laneB failed s).runs
  | stileFault dt => exact (execStileFault_flash dt s).runs
  | watchDue dt => exact (execWatchDue_flash dt s).runs
  | watchChangeStart dt => exact (execWatchChangeStart_flash dt s).runs
  | watchChanged dt => exact (execWatchChanged_flash dt s).runs
  | watchSkipped dt => exact (execWatchSkipped_flash dt s).runs
  | millTickStart dt => exact (execMillTickStart_flash dt s).runs
  | millEventEntry m => exact (execMillEventEntry_flash m s).runs
  | bellStrokeTx dt => exact (execBellStrokeTx_flash dt s).runs
  | bellStroke dt x => exact (execBellStroke_flash dt x s).runs
  | statusSlotTx dt x => exact (execStatusSlotTx_flash dt x s).runs
  | slotLateCancel dt => exact (execSlotLateCancel_flash dt s).runs
  | statusSlotRx dt busB sender qual data => exact (execStatusSlotRx_flash dt busB sender qual data s).runs
  | carNumberTwin dt x => exact (execCarNumberTwin_flash dt x s).runs
  | referenceDigest dt => exact (execReferenceDigest_flash dt s).runs
  | requestFrame dt busB panel sender data => exact (execRequestFrame_flash dt busB panel sender data s).runs
  | cancelFrame dt busB panel sender data => exact (execCancelFrame_flash dt busB panel sender data s).runs
  | callFrameTxDrop dt => exact (execCallFrameTxDrop_flash dt s).runs
  | joinListenTimeout dt => exact (execJoinListenTimeout_flash dt s).runs
  | joinClaim dt => exact (execJoinClaim_flash dt s).runs
  | bellMissing dt => exact (execBellMissing_flash dt s).runs
  | bellYielded dt x => exact (execBellYielded_flash dt x s).runs
  | groupBusLost dt bus => exact (execGroupBusLost_flash dt bus s).runs
  | resyncRequest dt car => exact (execResyncRequest_flash dt car s).runs
  | resyncData dt sender car data => exact (execResyncData_flash dt sender car data s).runs
  | resyncReplay dt => exact (execResyncReplay_flash dt s).runs
  | canFrameRx dt c f ok age x => exact (execCanFrameRx_flash dt c f ok age x s).runs
  | canTxChoice dt c => exact (execCanTxChoice_flash dt c s).runs
  | canTxEnd dt c r x => exact (execCanTxEnd_flash dt c r x s).runs
  | twin dt c b => exact (execTwin_flash dt c b s).runs
  | busOff dt c x => exact (execBusOff_flash dt c x s).runs
  | busOffRecoveryStart dt c => exact (execBusOffRecoveryStart_flash dt c s).runs
  | busRecovered dt c seqs => exact (execBusRecovered_flash dt c seqs s).runs
  | canIntegrationDone dt c => exact (execCanIntegrationDone_flash dt c s).runs
  | carLinkCycle x => exact (execCarLinkCycle_flash x s).runs
  | carLinkFrameRx dt x => exact (execCarLinkFrameRx_flash dt x s).runs
  | carLinkDown dt => exact (execCarLinkDown_flash dt s).runs
  | phyStatusPoll dt up => exact (execPhyStatusPoll_flash dt up s).runs
  | linkPhyTimeout dt => exact (execLinkPhyTimeout_flash dt s).runs
  | linkSyncTimeout dt => exact (execLinkSyncTimeout_flash dt s).runs
  | blindLevelling dt f addr segs => exact (execBlindLevelling_flash dt f addr segs s).runs
  | linkOpenOnLoss dt => exact (execLinkOpenOnLoss_flash dt s).runs
  | linkDoorHoldExpiry dt => exact (execLinkDoorHoldExpiry_flash dt s).runs
  | fieldLinkFrame dt toField ok x => exact (execFieldLinkFrame_flash dt toField ok x s).runs
  | fieldLinkFault dt => exact (execFieldLinkFault_flash dt s).runs
  | inputSample dt bank mv => exact (execInputSample_flash dt bank mv s).runs
  | counterEdge dt n high => exact (execCounterEdge_flash dt n high s).runs
  | counterGateEnd dt n => exact (execCounterGateEnd_flash dt n s).runs
  | outputDiagCheck dt k mv temp => exact (execOutputDiagCheck_flash dt k mv temp s).runs
  | overload dt x => exact (execOverload_flash dt x s).runs
  | driverOvertemp dt k temp => exact (execDriverOvertemp_flash dt k temp s).runs
  | groupOvercurrent dt x => exact (execGroupOvercurrent_flash dt x s).runs
  | vfieldSample dt mv => exact (execVfieldSample_flash dt mv s).runs
  | fieldShed dt => exact (execFieldShed_flash dt s).runs
  | fieldRestored dt => exact (execFieldRestored_flash dt s).runs
  | standbyIdleExpiry dt => exact (execStandbyIdleExpiry_flash dt s).runs
  | scrubberPass dt addr error => exact (execScrubberPass_flash dt addr error s).runs
  | evtLost dt => exact (execEvtLost_flash dt s).runs
  | mainsLoss dt vlog vkeep low => exact execMainsLoss_runs dt vlog vkeep low s
  | mainsRestored dt vlog x => exact (execMainsRestored_flash dt vlog x s).runs
  | vkeepLow dt mv => exact (execVkeepLow_flash dt mv s).runs
  | rescueAutoStart dt => exact (execRescueAutoStart_flash dt s).runs
  | rescueLevelCheck dt => exact (execRescueLevelCheck_flash dt s).runs
  | powerModeEntry dt => exact execPowerModeEntry_runs dt s
  | wake dt src => exact execWake_runs dt src s
  | idleTimeout dt => exact (execIdleTimeout_flash dt s).runs
  | clockFault dt source => exact execClockFault_runs dt source s
  | encPwrFault dt ma => exact (execEncPwrFault_flash dt ma s).runs
  | overtemp dt fieldDie temp => exact (execOvertemp_flash dt fieldDie temp s).runs
  | flashProgramDone dt => exact execFlashProgramDone_runs dt s
  | sdValid dt x => exact (execSdValid_flash dt x s).runs
  | vkeepRecovered dt mv => exact (execVkeepRecovered_flash dt mv s).runs
  | inboxWrite dt offset bytes => exact (execInboxWrite_flash dt offset bytes s).runs
  | configSaveDone dt ok => exact execConfigSaveDone_runs dt ok s
  | imageVerifyDone dt => exact execImageVerifyDone_runs dt s
  | lcRecordWritten dt => exact execLcRecordWritten_runs dt s

/-- Settles O58: reset writes no transition, and each command runs the life-cycle along an edge at most. -/
theorem lifeCycleRunsAlongItsEdges : Obligations.LifeCycleRunsAlongItsEdges := by
  refine ⟨fun n hn => (nomatch hn), fun s t hs hstep => ?_⟩
  cases hqueue : s.pending with
  | nil =>
    rw [step, hqueue] at hstep
    cases hstep
    exact ⟨hs, .inl rfl⟩
  | cons c rest =>
    rw [step, hqueue] at hstep
    exact exec_runs c { s with pending := rest } t hstep hs

end Sys2Proof.Machine

/-! ### The field letters (R430, R434, R436, R439) -/

namespace Sys2Proof.Machine

/-- OUT_RESTORE of a group that the field supply and the mains let come back restores it where it is shed (R439). -/
theorem outRestore_run_group {q : Letter} {t : State} {n : Nat} (hkind : u8 q.payload 0 = 0) (hn : u8 q.payload 1 = n)
    (hfield : t.fio.shedT.entered = false) (hmains : bitAt t.pwr.mainsShed (n - 1) = true → t.pwr.mains = true) :
    outRestoreHandler.run q t = (.done 0 [], if t.groupShed n then t.restoreGroup n else t) := by
  have hfree : ¬ (t.fio.shedT.entered = true ∨ bitAt t.pwr.mainsShed (n - 1) = true ∧ ¬ t.pwr.mains = true) :=
    not_or.2 ⟨by simp [hfield], fun ⟨hshed, hlost⟩ => hlost (hmains hshed)⟩
  simp only [outRestoreHandler, handler, hkind, hn, if_true, if_neg hfree]
  split <;> rfl

/-- OUT_RESTORE of a channel whose cause is absent clears its latch (R439). -/
theorem outRestore_run_channel {q : Letter} {t : State} {k : Fin 32} (hkind : u8 q.payload 0 = 1) (hk : u8 q.payload 1 = k.val)
    (hcause : t.fio.latched.getLsbD k.val = true → t.causePresent k = false) :
    outRestoreHandler.run q t = (.done 0 [], if t.fio.latched.getLsbD k.val then
      t.setFio { t.fio with latched := t.fio.latched &&& ~~~(BitVec.ofNat 32 (2 ^ k.val)) } else t) := by
  have hindex : fidx 31 k.val = k := Fin.ext (Nat.mod_eq_of_lt k.isLt)
  have hother : ¬ (1 : Nat) = 0 := by decide
  cases hlatch : t.fio.latched.getLsbD k.val
  case false =>
    simp only [outRestoreHandler, handler, hkind, hk, hlatch, if_neg hother, doneWith, Bool.not_false, if_true,
      Bool.false_eq_true, if_false]
  case true =>
    simp only [outRestoreHandler, handler, hkind, hk, hlatch, if_neg hother, hindex, hcause hlatch, doneWith, Bool.not_true,
      Bool.false_eq_true, if_false, if_true]

/-- COUNTER_CONFIG of an input that neither the door nor the interlock uses holds mode and gate for the next tick (R434). -/
theorem counterConfig_run_free {q : Letter} {t : State} {k : Fin 8} (hk : u8 q.payload 0 = k.val)
    (hdoor : t.carStation = true → t.door.mode = 4 → k.val ≠ t.fld 0x50008 0 3 ∧ k.val ≠ t.fld 0x50008 4 3)
    (hfree : t.counterUsed k.val = false) :
    counterConfigHandler.run q t = (.done 0 [], t.setFio { t.fio with
      ctr := t.fio.ctr.set k { t.fio.ctr[k] with next := some (u8 q.payload 1, u32 q.payload 4) } }) := by
  have hindex : fidx 7 k.val = k := Fin.ext (Nat.mod_eq_of_lt k.isLt)
  have hother : ¬ (t.carStation = true ∧ t.door.mode = 4 ∧ (k.val = t.fld 0x50008 0 3 ∨ k.val = t.fld 0x50008 4 3)) :=
    fun ⟨hcar, hmode, huse⟩ => huse.elim (hdoor hcar hmode).1 (hdoor hcar hmode).2
  simp only [counterConfigHandler, handler, hk, if_neg hother, hfree, hindex, doneWith, Bool.false_eq_true, if_false]

/-- Settles O25: what each handler runs. -/
theorem fieldLettersComplete : Obligations.FieldLettersComplete := by
  refine ⟨?set, ?read, fun n _ _ => ?group, fun k => ?channel, fun k => ?counter⟩
  case set | read => exact .of_run (fun _ _ => rfl) (fun _ _ _ => rfl) fun _ _ _ => rfl
  case group =>
    exact .of_run (fun _ _ => rfl) (fun _ _ ⟨hkind, hn, _, _, hfield, hmains⟩ => outRestore_run_group hkind hn hfield hmains)
      fun _ _ _ => rfl
  case channel =>
    exact .of_run (fun _ _ => rfl) (fun _ _ ⟨hkind, hk, _, _, hcause⟩ => outRestore_run_channel hkind hk hcause) fun _ _ _ => rfl
  case counter =>
    exact .of_run (fun _ _ => rfl) (fun _ _ ⟨hk, _, _, _, _, hdoor, hfree⟩ => counterConfig_run_free hk hdoor hfree)
      fun _ _ _ => rfl

end Sys2Proof.Machine

/-! ### The CAN letters (R452, R461, R463, R465, R466, R468) -/

namespace Sys2Proof.Machine

/-- CAN_MODE that takes no group bus away enters the state (R452). -/
theorem canMode_run_free {q : Letter} {t : State} {c : Fin 3} (hc : canOf q.payload = c)
    (hbus : t.can[c].state = 1 → c.val < 2 → t.group.mask.getLsbD c.val = true → t.group.state ≠ 0 → u8 q.payload 1 = 1) :
    canModeHandler.run q t = (.done 0 [], t.canState c (u8 q.payload 1)) := by
  have hfree : ¬ (t.can[c].state = 1 ∧ u8 q.payload 1 ≠ 1 ∧ c.val < 2 ∧ t.group.mask.getLsbD c.val = true ∧ t.group.state ≠ 0) :=
    fun ⟨hstate, hmode, hgroup, hmask, hjoined⟩ => hmode (hbus hstate hgroup hmask hjoined)
  simp only [canModeHandler, handler, hc, if_neg hfree, doneWith]

/-- CAN_FILTER in state OFF, to a receive buffer where it names one, loads the element (R461, R462). -/
theorem canFilter_run_off {q : Letter} {t : State} {c : Fin 3} (hc : canOf q.payload = c) (hoff : t.can[c].state = 0)
    (hbuf : bitsAt (u32 q.payload 12) 4 3 = 3 → t.bufUse c (bitsAt (u32 q.payload 12) 8 8) = 2) :
    canFilterHandler.run q t = (.done 0 [], t.setCan c { t.can[c] with
      filters := (aset (fun _ => ⟨0, 0, 0⟩) (u16 q.payload 2)
        ⟨word (u32 q.payload 4), word (u32 q.payload 8), word (u32 q.payload 12)⟩ t.can[c].filters) }) := by
  have hgood : ¬ (bitsAt (u32 q.payload 12) 4 3 = 3 ∧ t.bufUse c (bitsAt (u32 q.payload 12) 8 8) ≠ 2) :=
    fun ⟨hkind, hother⟩ => hother (hbuf hkind)
  simp only [canFilterHandler, handler, hc, if_neg (not_not_intro hoff), if_neg hgood, doneWith]

section Buffer

variable {q : Letter} {t : State} {c : Fin 3} {b : Fin 256} (hc : canOf q.payload = c) (howned : t.canOwned c b.val = false)
include hc howned

/-- CAN_TX to a free transmit buffer of an active controller stores the frame and makes it pending (R466). -/
theorem canTx_run_free (hb : fidx 255 (u8 q.payload 1) = b) (huse : t.bufUse c b.val = 1)
    (hfree : t.can[c].pend.any (·.buf = b) = false) (hactive : t.can[c].state = 1) :
    canTxHandler.run q t = (.queued (.canTx c b), t.setCan c { t.can[c].putBuf b.val { CanRec.zero with frame := txFrame q.payload } with
      pend := t.can[c].pend ++ [txRequest b (bitAt (u8 q.payload 2) 3) (bitAt (u8 q.payload 2) 4)] }) := by
  simp only [canTxHandler, handler, hc, hb, howned, if_neg (not_not_intro huse), hfree, if_neg (not_not_intro hactive),
    Bool.false_eq_true, if_false]
  rfl

/-- CAN_CANCEL of a pending buffer makes its cancel request (R468). -/
theorem canCancel_run_pending (hb : u16 q.payload 2 = b.val)
    (hpending : t.can[c].pend.any (fun p => decide (p.buf = b) && !p.ended) = true) :
    canCancelHandler.run q t = (.done (word (b2n (t.cancelTx c b).1)) [], (t.cancelTx c b).2) := by
  have hindex : fidx 255 b.val = b := Fin.ext (Nat.mod_eq_of_lt b.isLt)
  have hval : t.can[c].pend.any (fun p => decide (p.buf.val = b.val) && !p.ended) = true := by
    simpa only [← Fin.ext_iff] using hpending
  simp only [canCancelHandler, handler, hc, hb, howned, hval, hindex, Bool.not_true, Bool.false_eq_true, if_false]

/-- CAN_READ of a buffer answers its record, which is fresh and overrun no longer (R465). -/
theorem canRead_run_buffer (hb : u16 q.payload 2 = b.val) :
    canReadHandler.run q t = (.done 0 (t.can[c].buf b.val).bytes, if t.bufUse c b.val = 2 then
      t.setCan c (t.can[c].putBuf b.val { t.can[c].buf b.val with fresh := false, lost := false }) else t) := by
  simp only [canReadHandler, handler, hc, hb, howned, if_pos b.isLt, Bool.false_eq_true, if_false]

end Buffer

/-- A cancel request for the frame on the bus marks it late (R468). -/
theorem State.cancelTx_of_onBus {t : State} {c : Fin 3} {b : Fin 256} (hbus : t.can[c].onBus = some b) :
    t.cancelTx c b = (true, (t.setCan c { t.can[c] with
      pend := t.can[c].pend.map fun p => if p.buf = b then { p with late := true } else p }).post (canEvent c 2) b.val) :=
  if_pos hbus

/-- A cancel request for a frame not on the bus withdraws it (R468). -/
theorem State.cancelTx_of_not_onBus {t : State} {c : Fin 3} {b : Fin 256} (hbus : t.can[c].onBus ≠ some b) :
    t.cancelTx c b = (false, (t.setCan c { t.can[c] with
      pend := t.can[c].pend.filter (·.buf ≠ b) }).complete (.canTx c b) .aborted 0 0) :=
  if_neg hbus

section Fifo

variable {q : Letter} {t : State} {c : Fin 3} {n : Nat} {rest : List Nat} (hc : canOf q.payload = c)
include hc

/-- CAN_READ of FIFO 0 takes its oldest entry (R465). -/
theorem canRead_run_fifo0 (hb : u16 q.payload 2 = 0x100) (howned : t.canOwned c 0x100 = false) (hfifo : t.can[c].fifo0 = n :: rest) :
    canReadHandler.run q t = (.done 0 ({ t.can[c].buf n with lost := (t.can[c].buf n).lost || t.can[c].fifoLost0 }).bytes,
      t.setCan c { t.can[c].putBuf n { t.can[c].buf n with fresh := false, lost := false } with fifo0 := rest, fifoLost0 := false }) := by
  have hbuffer : ¬ 0x100 < 0x100 := by decide
  have hfirst : ¬ 0x100 = 0x101 := by decide
  simp only [canReadHandler, handler, hc, hb, howned, if_neg hbuffer, if_neg hfirst, hfifo, Bool.false_eq_true, if_false]

/-- CAN_READ of FIFO 1 takes its oldest entry (R465). -/
theorem canRead_run_fifo1 (hb : u16 q.payload 2 = 0x101) (howned : t.canOwned c 0x101 = false) (hfifo : t.can[c].fifo1 = n :: rest) :
    canReadHandler.run q t = (.done 0 ({ t.can[c].buf n with lost := (t.can[c].buf n).lost || t.can[c].fifoLost1 }).bytes,
      t.setCan c { t.can[c].putBuf n { t.can[c].buf n with fresh := false, lost := false } with fifo1 := rest, fifoLost1 := false }) := by
  have hbuffer : ¬ 0x101 < 0x100 := by decide
  simp only [canReadHandler, handler, hc, hb, howned, if_neg hbuffer, if_true, hfifo, Bool.false_eq_true, if_false]

end Fifo

/-- Settles O19: what each handler runs. -/
theorem canLettersComplete : Obligations.CanLettersComplete := by
  refine ⟨fun c => ⟨?mode, ?filter, fun b => ⟨?tx, ?late, ?withdrawn, ?read⟩⟩, fun c n rest => ⟨?fifo0, ?fifo1⟩⟩
  case mode => exact .of_run (fun _ _ => rfl) (fun _ _ ⟨hc, hbus⟩ => canMode_run_free hc hbus) fun _ _ _ => rfl
  case filter =>
    exact .of_run (fun _ _ => rfl) (fun _ _ ⟨hc, hoff, hbuf⟩ => canFilter_run_off hc hoff hbuf) fun _ _ _ => rfl
  case tx =>
    exact .of_run (fun _ _ => rfl) (fun _ _ ⟨hc, hb, howned, huse, hfree, hactive⟩ => canTx_run_free hc howned hb huse hfree hactive)
      fun _ _ _ => rfl
  case late =>
    exact .of_run (fun _ _ => rfl) (fun _ _ ⟨hc, hb, howned, hpending, hbus⟩ => by
      rw [canCancel_run_pending hc howned hb hpending, State.cancelTx_of_onBus hbus]; rfl) fun _ _ _ => rfl
  case withdrawn =>
    exact .of_run (fun _ _ => rfl) (fun _ _ ⟨hc, hb, howned, hpending, hbus⟩ => by
      rw [canCancel_run_pending hc howned hb hpending, State.cancelTx_of_not_onBus hbus]; rfl) fun _ _ _ => rfl
  case read => exact .of_run (fun _ _ => rfl) (fun _ _ ⟨hc, hb, howned⟩ => canRead_run_buffer hc howned hb) fun _ _ _ => rfl
  case fifo0 =>
    exact .of_run (fun _ _ => rfl) (fun _ _ ⟨hc, hb, howned, hfifo⟩ => canRead_run_fifo0 hc hb howned hfifo) fun _ _ _ => rfl
  case fifo1 =>
    exact .of_run (fun _ _ => rfl) (fun _ _ ⟨hc, hb, howned, hfifo⟩ => canRead_run_fifo1 hc hb howned hfifo) fun _ _ _ => rfl

end Sys2Proof.Machine

/-! ### The letters of the car link (R494) -/

namespace Sys2Proof.Machine

/-- LINK_MODE start on a link that is OFF enters PHY_WAIT with the limits of the start (R494). -/
theorem linkMode_run_start {q : Letter} {t : State} (hstart : u8 q.payload 0 = 1) (hoff : t.link.state = 0) :
    linkModeHandler.run q t = (.queued .linkStart, t.setLink { t.link with
      state := 1, fibre := decide (u8 q.payload 1 = 1), since := t.now, limited := true, exempt := true, okRun := 0,
      stopReq := false, txSeg := 0, rx := none }) := by
  simp only [linkModeHandler, handler, if_pos hstart, if_neg (not_not_intro hoff)]

/-- LINK_MODE stop with no unit moving is DONE on a link that is OFF, else requested for the next cycle instant (R494). -/
theorem linkMode_run_stop {q : Letter} {t : State} (hstop : u8 q.payload 0 = 0) (hstill : t.anyMoving = false) :
    linkModeHandler.run q t = (if t.link.state = 0 then .ended .linkStop .done 0 0 else .queued .linkStop,
      if t.link.state = 0 then t else t.setLink { t.link with stopReq := true }) := by
  have hkind : ¬ u8 q.payload 0 = 1 := by omega
  simp only [linkModeHandler, handler, if_neg hkind, hstill, Bool.false_eq_true, if_false]
  split <;> rfl

/-- Settles O27: what the handler runs. -/
theorem linkLettersComplete : Obligations.LinkLettersComplete := by
  refine ⟨?start, ?stop⟩
  case start =>
    exact .of_run (fun _ _ => rfl) (fun _ _ ⟨hstart, _, _, _, hoff⟩ => linkMode_run_start hstart hoff) fun _ _ _ => rfl
  case stop =>
    refine .of_run (fun _ _ => rfl) (fun _ _ ⟨hstop, _, _, _, hstill⟩ => linkMode_run_stop hstop hstill) fun _ t _ => ?_
    split <;> rfl

end Sys2Proof.Machine

/-! ### The flash letters (R529, R530, R532, R533, R535, R536) -/

namespace Sys2Proof.Machine

section FlashLetters

variable {q : Letter} {t : State}

/-- CONFIG_SAVE with good ranges and an idle flash marks the older copy as being written (R530). -/
theorem configSave_run_good (hranges : t.badRange = none) (hidle : t.flashBusy = false) (hlc : t.flash.lc ≠ 4) :
    configSaveHandler.run q t = (.queued .configSave,
      let b := bankOf q.payload
      let n := t.freeUpTo (3637248 - 128)
      n.2.setFlash { n.2.flash.putCopy b (t.flash.older b) .damaged with saving := some (b, t.flash.older b,
        { saves := (match t.flash.best b with | some x => x.2.saves + 1 | none => 1), fwVersion := t.fwVersion, len := n.1,
          regs := t.savedRegs, letters := t.savedLetters, image := t.lock.image1 }) }) := by
  simp only [configSaveHandler, handler, hranges, hidle, if_neg hlc, Bool.false_eq_true, if_false]
  cases t.flash.best (bankOf q.payload) <;> rfl

/-- IMAGE_WRITE of whole blocks to a bank that is not running erases the sector it begins and programs the bytes (R532). -/
theorem imageWrite_run_blocks (hblocks : (q.payload.drop 8).length % 16 = 0) (hbank : t.runsBank (bankOf q.payload) = false)
    (hidle : t.flashBusy = false) : imageWriteHandler.run q t = (.done 0 [],
      let b := bankOf q.payload
      let o := u32 q.payload 4
      let f := if o % 65536 = 0 ∧ o < 0x100000 then t.flash.fw[b].eraseSector (o / 65536) else t.flash.fw[b]
      let u : State := { t with free := t.free + (q.payload.drop 8).length }
      u.setFlash { t.flash with
        fw := t.flash.fw.set b (programBytes t.free o (q.payload.drop 8) { f with factory := none }),
        verified := t.flash.verified.set b false, imgBusy := some (b, o / 65536) }) := by
  simp only [imageWriteHandler, handler, if_neg (not_not_intro hblocks), hbank, hidle, doneWith, Bool.false_eq_true, if_false]

/-- IMAGE_VERIFY with an idle flash begins the verification (R533). -/
theorem imageVerify_run_idle (hidle : t.flashBusy = false) :
    imageVerifyHandler.run q t = (.queued .imageVerify, t.setFlash { t.flash with verifying := some (bankOf q.payload) }) := by
  simp only [imageVerifyHandler, handler, hidle, Bool.false_eq_true, if_false]

/-- IMAGE_ACTIVATE of a verified bank writes the activation record (R533). -/
theorem imageActivate_run_verified (hverified : t.flash.verified[bankOf q.payload] = true) :
    imageActivateHandler.run q t = (.done 0 [], t.setFlash { t.flash with activation := bankOf q.payload }) := by
  simp only [imageActivateHandler, handler, hverified, doneWith, Bool.not_true, Bool.false_eq_true, if_false]

/-- LC_TRANSITION along an edge, parked, keyed for LOCKED and saved for SERVICE, begins the write of the record (R536). -/
theorem lcTransition_run_edge (hedge : transitionOk t.flash.lc (u32 q.payload 0) = true) (hparked : t.parked = true)
    (hkey : u32 q.payload 0 = 2 → t.transportKey = true → t.flash.key.isSome = true)
    (hsaved : u32 q.payload 0 = 3 → t.imageSaved = true) (hidle : t.flashBusy = false) :
    lcTransitionHandler.run q t = (.queued .lcTransition, t.setFlash { t.flash with lcTarget := some (u32 q.payload 0) }) := by
  have hkeyed : (decide (u32 q.payload 0 = 2) && t.transportKey && t.flash.key.isNone) = false := by
    simpa [Bool.and_eq_false_imp] using hkey
  have hstored : (decide (u32 q.payload 0 = 3) && !t.imageSaved) = false := by simpa using hsaved
  simp only [lcTransitionHandler, handler, hedge, hparked, hkeyed, hstored, hidle, Bool.not_true, Bool.false_eq_true, if_false]

end FlashLetters

/-- Settles O32: what each handler runs. -/
theorem flashLettersComplete : Obligations.FlashLettersComplete := by
  refine ⟨?save, ?write, ?verify, ?activate, ?transition⟩
  case save =>
    exact .of_run (fun _ _ => rfl) (fun _ _ ⟨_, hranges, hidle, hlc⟩ => configSave_run_good hranges hidle hlc) fun _ _ _ => rfl
  case write =>
    exact .of_run (fun _ _ => rfl) (fun _ _ ⟨_, _, _, hblocks, hbank, hidle⟩ => imageWrite_run_blocks hblocks hbank hidle)
      fun _ _ _ => rfl
  case verify => exact .of_run (fun _ _ => rfl) (fun _ _ ⟨_, hidle⟩ => imageVerify_run_idle hidle) fun _ _ _ => rfl
  case activate =>
    exact .of_run (fun _ _ => rfl) (fun _ _ ⟨_, hverified⟩ => imageActivate_run_verified hverified) fun _ _ _ => rfl
  case transition =>
    exact .of_run (fun _ _ => rfl) (fun _ _ ⟨_, _, hedge, hparked, hkey, hsaved, hidle⟩ =>
      lcTransition_run_edge hedge hparked hkey hsaved hidle) fun _ _ _ => rfl

end Sys2Proof.Machine

/-! ### The events of the flash die (R530, R532, R533, R536) -/

namespace Sys2Proof.Machine

section FlashEvents

variable {dt : Nat} {s t : State} (ht : t = s.advance dt) (hreset : t.inReset = false)
include ht hreset

/-- FLASH_PROGRAM_DONE frees the flash (R532). -/
theorem exec_flashProgramDone_up : exec (.flashProgramDone dt) s = .next (t.setFlash { t.flash with imgBusy := none }) := by
  show execFlashProgramDone dt s = _
  simp only [execFlashProgramDone, ← ht, hreset, Bool.false_eq_true, if_false]

/-- CONFIG_SAVE_DONE with a copy that reads back makes it valid (R530). -/
theorem exec_configSaveDone_good {b : Fin 2} {isB : Bool} {c : Conf} (hsaving : t.flash.saving = some (b, isB, c)) :
    exec (.configSaveDone dt true) s =
      .next ((t.setFlash ({ t.flash with saving := none }.putCopy b isB (.valid c))).complete .configSave .done 0 0) := by
  show execConfigSaveDone dt true s = _
  simp only [execConfigSaveDone, ← ht, hreset, hsaving, Bool.false_eq_true, if_false, if_true]

/-- CONFIG_SAVE_DONE with a copy that does not read back fails (R530). -/
theorem exec_configSaveDone_bad {b : Fin 2} {isB : Bool} {c : Conf} (hsaving : t.flash.saving = some (b, isB, c)) :
    exec (.configSaveDone dt false) s =
      .next ((t.setFlash { t.flash with saving := none }).complete .configSave .failed 0xEA 0) := by
  show execConfigSaveDone dt false s = _
  simp only [execConfigSaveDone, ← ht, hreset, hsaving, Bool.false_eq_true, if_false]

section Verify

variable {b : Fin 2} {q : State} (hverifying : t.flash.verifying = some b) (hq : q = t.setFlash { t.flash with verifying := none })
include hverifying hq

/-- IMAGE_VERIFY_DONE of a good bank marks it verified (R533). -/
theorem exec_imageVerifyDone_good (hgood : q.bankBad b = none) : exec (.imageVerifyDone dt) s =
    .next ((q.setFlash { q.flash with verified := q.flash.verified.set b true }).complete .imageVerify .done 0 0) := by
  show execImageVerifyDone dt s = _
  simp only [execImageVerifyDone, ← ht, hreset, hverifying, ← hq, hgood, Bool.false_eq_true, if_false]

/-- IMAGE_VERIFY_DONE of a bad bank fails with what is wrong (R533). -/
theorem exec_imageVerifyDone_bad {d : Nat} (hbad : q.bankBad b = some d) :
    exec (.imageVerifyDone dt) s = .next (q.complete .imageVerify .failed d 0) := by
  show execImageVerifyDone dt s = _
  simp only [execImageVerifyDone, ← ht, hreset, hverifying, ← hq, hbad, Bool.false_eq_true, if_false]

end Verify

/-- LC_RECORD_WRITTEN takes the state, answers the outstanding LC_TRANSITION and makes a module reset (R536). -/
theorem exec_lcRecordWritten_outstanding {n : Nat} {o : Outst} (htarget : t.flash.lcTarget = some n)
    (houtst : t.lb.outst.find? (fun x => x.act = .lcTransition) = some o) : exec (.lcRecordWritten dt) s =
      .next ((((t.setFlash (t.flash.transition n)).complete .lcTransition .done 0 0).portSent o.port).moduleReset 5 .sequence) := by
  show execLcRecordWritten dt s = _
  simp only [execLcRecordWritten, ← ht, hreset, htarget, houtst, Bool.false_eq_true, if_false]

end FlashEvents

/-- Settles O33: each event out of reset. -/
theorem flashEventsComplete : Obligations.FlashEventsComplete := by
  refine ⟨?program, ?save, ?verify, ?record⟩
  case program => exact fun dt s t ht hreset => exec_flashProgramDone_up ht hreset
  case save =>
    exact fun dt s t b isB c ht hreset hsaving =>
      ⟨exec_configSaveDone_good ht hreset hsaving, exec_configSaveDone_bad ht hreset hsaving⟩
  case verify =>
    exact fun dt s t b q ht hreset hverifying hq =>
      ⟨exec_imageVerifyDone_good ht hreset hverifying hq, fun d => exec_imageVerifyDone_bad ht hreset hverifying hq⟩
  case record =>
    exact fun dt s t n o ht hreset htarget houtst => exec_lcRecordWritten_outstanding ht hreset htarget houtst

end Sys2Proof.Machine

/-! ### The events of the car link (R488, R490, R492, R494, R495, R496, R497) -/

namespace Sys2Proof.Machine

section LinkEvents

variable {dt : Nat} {s t : State} (ht : t = s.advance dt) (hreset : t.inReset = false)
include ht hreset

section Cycle

variable {req : Fin 4} (hinstant : t.now % 20000 = 0)
include hinstant

/-- A stop requested takes effect at a cycle instant and ends both receipts (R494). -/
theorem exec_carLinkCycle_stop (hstop : t.link.stopReq = true) (hon : t.link.state ≠ 0) : exec (.carLinkCycle ⟨dt, req⟩) s =
    .next ((((if t.link.state = 3 then t.linkDown 0 else t.rxBreak).linkOff.complete .linkStart .aborted 0 0).complete .linkStop
      .done 0 0)) := by
  have hcycle : ¬ (t.now % 20000 ≠ 0 ∨ t.link.state = 0) := not_or.2 ⟨not_not_intro hinstant, hon⟩
  show execCarLinkCycle ⟨dt, req⟩ s = _
  simp only [execCarLinkCycle, ← ht, hreset, if_neg hcycle, if_pos hstop, Bool.false_eq_true, if_false]

variable {q : State} (hq : q = t.setLink { t.link with
  seqTx := (t.link.seqTx + 1) % 65536, doorOut := if t.serving = true then req.val else t.link.doorOut })
  (hgo : t.link.stopReq = false)
include hq hgo

/-- A link that is UP and has heard its partner since the last cycle instant sends a segment (R495). -/
theorem exec_carLinkCycle_heard (hup : t.link.state = 3) (haccepted : t.link.accepted = true)
    (hbefore : t.link.acceptedAt < t.now) : exec (.carLinkCycle ⟨dt, req⟩) s =
      .next (q.setLink { q.link with missed := 0, accepted := false }).linkSend := by
  subst hq
  show execCarLinkCycle ⟨dt, req⟩ s = _
  simp [execCarLinkCycle, ← ht, hreset, hinstant, hgo, hup, haccepted, State.setLink_now, hbefore]

/-- A link that is UP and has heard nothing since the last cycle instant breaks the run and counts a missed cycle (R495). -/
theorem exec_carLinkCycle_missed (hup : t.link.state = 3) (hsilent : t.link.accepted = false ∨ t.now ≤ t.link.acceptedAt) :
    exec (.carLinkCycle ⟨dt, req⟩) s = .next (q.rxBreak.setLink { q.rxBreak.link with
      missed := satAdd 3 t.link.missed 1, accepted := t.link.accepted }).linkSend := by
  have hheard : (t.link.accepted && decide (t.link.acceptedAt < t.now)) = false := by
    rcases hsilent with hnone | hlate
    · rw [hnone, Bool.false_and]
    · rw [decide_eq_false (Nat.not_lt.2 hlate), Bool.and_false]
  subst hq
  show execCarLinkCycle ⟨dt, req⟩ s = _
  simp [execCarLinkCycle, ← ht, hreset, hinstant, hgo, hup, State.setLink_now, hheard]

/-- A link in SYNC that is ready goes UP (R494). -/
theorem exec_carLinkCycle_up (hsync : t.link.state = 2) (hready : q.linkReady = true) :
    exec (.carLinkCycle ⟨dt, req⟩) s = .next q.linkUp.linkSend := by
  have hcycle : ¬ (t.now % 20000 ≠ 0 ∨ t.link.state = 0) := not_or.2 ⟨not_not_intro hinstant, by rw [hsync]; decide⟩
  have hwait : ¬ t.link.state = 1 := by rw [hsync]; decide
  have hdown : ¬ t.link.state = 3 := by rw [hsync]; decide
  have hgo' : ¬ t.link.stopReq = true := by rw [hgo]; decide
  have hup : q.linkReady = true ∧ (t.link.state = 2 ∨ q.fld 0xE0004 5 1 = 1) := ⟨hready, .inl hsync⟩
  show execCarLinkCycle ⟨dt, req⟩ s = _
  simp only [execCarLinkCycle, ← ht, hreset, if_neg hcycle, if_neg hgo', if_neg hwait, if_neg hdown, ← hq, if_pos hup,
    Bool.false_eq_true, if_false]

end Cycle

section Frame

variable {age : Nat} {f : List Byte} {x : LinkIn} (hon : 2 ≤ t.link.state) (hx : x = linkFields (slice f 14 320) age)
include hon hx

/-- A frame whose addresses, checksums or header fail is discarded and breaks the run (R492). -/
theorem exec_carLinkFrameRx_bad (hbad : t.frameOk f false = false) (hown : t.frameOk f true = false) :
    exec (.carLinkFrameRx dt ⟨age, f⟩) s =
      .next (t.setLink { t.link with discard := satAdd 0xFF t.link.discard 1, okRun := 0 }) := by
  have hself (k : LinkSt) : (t.setLink k).frameOk f true = false := hown
  show execCarLinkFrameRx dt ⟨age, f⟩ s = _
  simp only [execCarLinkFrameRx, ← ht, hreset, ← hx, if_neg (Nat.not_lt.2 hon), hbad, hself, Bool.not_false, Bool.true_or,
    Bool.false_and, Bool.false_eq_true, if_false, if_true]

variable {q u : State} (hgood : t.frameOk f false = true) (hkind : x.kind = (if t.machine then 2 else 1))
  (hnext : (x.seq + 65536 - t.link.seqRx) % 65536 = 1)
  (hlimits : t.link.state = 2 → t.link.limited = true → x.gen = t.sys.gen ∧ x.period = t.sys.period)
  (hq : q = t.setLink { t.link with
    exempt := false, accepted := true, acceptedAt := if t.link.accepted = true then t.link.acceptedAt else t.now, seqRx := x.seq,
    okRun := t.link.okRun + 1, echoTx := x.tTx,
    echoRx := t.now - x.age, flags := x.flags, gen := x.gen, period := x.period,
    locked := if t.machine then x.flags.getLsbD 1 else t.link.locked })
  (hu : u = (if (q.linkData x).carStation = true ∧ x.echoTx ≠ 0 then (q.linkData x).linkTime x else q.linkData x))
include hgood hkind hnext hlimits hq hu

/-- A frame accepted in sequence is taken: echoes, flags, station data and segment (R490, R492). -/
theorem exec_carLinkFrameRx_next : exec (.carLinkFrameRx dt ⟨age, f⟩) s = .next (u.rxSegment x) := by
  have hpartner : x.kind + (if t.machine then 1 else 2) = 3 := by
    rw [hkind]
    split <;> rfl
  have hsame : ¬ (t.link.state = 2 ∧ t.link.limited = true ∧ (x.gen ≠ t.sys.gen ∨ x.period ≠ t.sys.period)) :=
    fun ⟨hsync, hlim, hother⟩ => hother.elim (· (hlimits hsync hlim).1) (· (hlimits hsync hlim).2)
  subst hu hq
  show execCarLinkFrameRx dt ⟨age, f⟩ s = _
  simp only [execCarLinkFrameRx, ← ht, hreset, ← hx, if_neg (Nat.not_lt.2 hon), hgood, hpartner, hnext, if_neg hsame]
  simp

end Frame

/-- The third missed cycle makes the link DOWN at a cycle instant (R495). -/
theorem exec_carLinkDown_missed (hinstant : t.now % 20000 = 0) (hup : t.link.state = 3) (hmissed : 3 ≤ t.link.missed) :
    exec (.carLinkDown dt) s = .next (t.linkDown 4) := by
  show execCarLinkDown dt s = _
  simp only [execCarLinkDown, ← ht, hreset, hinstant, hup, hmissed, and_self, if_true, Bool.false_eq_true, if_false]

/-- The poll of the PHY reads its link, which ends PHY_WAIT (R488, R494). -/
theorem exec_phyStatusPoll_up {up : Bool} : exec (.phyStatusPoll dt up) s =
    .next (t.setLink (if t.link.state = 1 ∧ up = true then
      { t.link with phy := up, state := 2, since := t.now, okRun := 0, exempt := true } else { t.link with phy := up })) := by
  show execPhyStatusPoll dt up s = _
  simp only [execPhyStatusPoll, ← ht, hreset, Bool.false_eq_true, if_false]

/-- 5 s without PHY link fail the start (R494). -/
theorem exec_linkPhyTimeout_due (hdue : t.link.since + 400000000 = t.now) (hwait : t.link.state = 1) :
    exec (.linkPhyTimeout dt) s = .next (t.linkFail 0xC1) := by
  show execLinkPhyTimeout dt s = _
  simp only [execLinkPhyTimeout, ← ht, hreset, hdue, hwait, and_self, if_true, Bool.false_eq_true, if_false]

/-- 5 s in SYNC without UP fail a limited start (R494). -/
theorem exec_linkSyncTimeout_due (hdue : t.link.since + 400000000 = t.now) (hsync : t.link.state = 2)
    (hlimited : t.link.limited = true) : exec (.linkSyncTimeout dt) s = .next (t.linkFail 0xC4) := by
  show execLinkSyncTimeout dt s = _
  simp only [execLinkSyncTimeout, ← ht, hreset, hdue, hsync, hlimited, and_self, if_true, Bool.false_eq_true, if_false]

/-- BLIND_LEVELLING in the letter window with unit 0 in motion levels to the first landing that qualifies, or stops (R496). -/
theorem exec_blindLevelling_due {f : BitVec 16} {addr : Word} {segs : List Byte} {q : State} (hdue : t.link.blindDue = true)
    (hserving : t.serving = true) (hopen : t.sys.tickAt + 800 ≤ t.now) (hbudget : t.now ≤ t.sys.tickAt + 800 + t.budgetLen)
    (hmoving : t.ramp[0].moving = true) (hq : q = t.setLink { t.link with blindDue := false, blindJ := t.lane.jnext, blind := 1 }) :
    exec (.blindLevelling dt f addr segs) s =
      match q.blindTarget (decide (0 < t.ramp[0].vel ∨ (t.ramp[0].vel = 0 ∧ 0 ≤ t.ramp[0].acc))) with
      | none => .next ((q.post 0x0E03 255).orderStop 0 false .moveStop)
      | some (i, level) => .next ((q.post 0x0E03 i).blindMove level f addr segs) := by
  have hwindow : ¬ (t.now < t.sys.tickAt + 800 ∨ t.sys.tickAt + 800 + t.budgetLen < t.now) :=
    not_or.2 ⟨Nat.not_lt.2 hopen, Nat.not_lt.2 hbudget⟩
  subst hq
  show execBlindLevelling dt f addr segs s = _
  simp only [execBlindLevelling, ← ht, hreset, hdue, hserving, decide_eq_false hwindow, State.setLink_ramp, hmoving, Bool.not_true,
    Bool.or_self, Bool.false_eq_true, if_false]
  rfl

/-- 1 s of low tape speed in the zone opens the door of a car whose link is down (R497). -/
theorem exec_linkOpenOnLoss_due {sl p : Nat} {q : State} (hcar : t.carStation = true) (hhold : t.link.hold = true)
    (hfitted : t.fld 0xE0020 16 1 = 1) (hfirst : t.link.opened = false) (hslow : t.link.slowAt = some sl) (hlong : sl + 80000000 ≤ t.now)
    (hzones : t.linkZones = true) (hpermit : t.openPermit = true) (hmode : 1 ≤ t.door.mode ∧ t.door.mode ≤ 3)
    (hsound : t.door.fault = false) (hp : p = t.fld 0xE0020 17 3) (hprofile : t.profileBad p = false)
    (hstate : t.door.state = 3 ∨ t.door.state = 4 ∨ t.door.state = 10 ∨ t.door.state = 11)
    (hq : q = t.setLink { t.link with opened := true, openedAt := some t.now }) :
    exec (.linkOpenOnLoss dt) s = .next ((q.setDoor { q.door with
      hold := 0, openProfile := p, nudge := false, firstHold := none }).openSoon p) := by
  have hmodes : t.door.mode = 1 ∨ t.door.mode = 2 ∨ t.door.mode = 3 := by omega
  subst hq hp
  show execLinkOpenOnLoss dt s = _
  simp [execLinkOpenOnLoss, ← ht, hreset, hcar, hhold, hfitted, hfirst, hslow, hlong, hzones, hpermit, hmodes, hsound, hprofile, hstate,
    or_assoc]

/-- The hold time of a door opened on loss closes it (R497). -/
theorem exec_linkDoorHoldExpiry_due {o : Nat} (hopened : t.link.openedAt = some o)
    (hdue : o + t.fld 0xE0020 24 8 * 80000000 ≤ t.now) (hstate : t.door.state = 6 ∨ t.door.state = 10) :
    exec (.linkDoorHoldExpiry dt) s =
      .next ((t.setLink { t.link with openedAt := none }).closeSoon (t.fld 0xE0020 17 3) false) := by
  show execLinkDoorHoldExpiry dt s = _
  simp only [execLinkDoorHoldExpiry, ← ht, hreset, hopened, if_neg (Nat.not_lt.2 hdue), State.setLink_door, if_pos hstate,
    Bool.false_eq_true, if_false]
  rfl

end LinkEvents

/-- Settles O28: each event out of reset. -/
theorem linkEventsComplete : Obligations.LinkEventsComplete := by
  refine ⟨?cycle, ?bad, ?next, ?down, ?poll, ?timeouts, ?blind, ?openDoor, ?closeDoor⟩
  case cycle =>
    exact fun dt req s t ht hreset hinstant => ⟨exec_carLinkCycle_stop ht hreset hinstant, fun q hq hgo =>
      ⟨exec_carLinkCycle_heard ht hreset hinstant hq hgo, exec_carLinkCycle_missed ht hreset hinstant hq hgo,
        exec_carLinkCycle_up ht hreset hinstant hq hgo⟩⟩
  case bad => exact fun dt age f x s t ht hreset hon hx => exec_carLinkFrameRx_bad ht hreset hon hx
  case next =>
    exact fun dt age f x s t q u ht hreset hon hx hgood hkind hnext hlimits hq hu =>
      exec_carLinkFrameRx_next ht hreset hon hx hgood hkind hnext hlimits hq hu
  case down => exact fun dt s t ht hreset => exec_carLinkDown_missed ht hreset
  case poll => exact fun dt up s t ht hreset => exec_phyStatusPoll_up ht hreset
  case timeouts =>
    exact fun dt s t ht hreset hdue => ⟨exec_linkPhyTimeout_due ht hreset hdue, exec_linkSyncTimeout_due ht hreset hdue⟩
  case blind =>
    intro dt f addr segs s t q ht hreset hdue hserving hopen hbudget hmoving hq
    rw [exec_blindLevelling_due ht hreset hdue hserving hopen hbudget hmoving hq]
    exact ⟨fun i level htarget => by rw [htarget], fun htarget => by rw [htarget]⟩
  case openDoor =>
    intro dt s t sl p q ht hreset hcar hhold hfitted hfirst hslow hlong hzones hpermit hmode hmode' hsound hp hprofile hstate hq
    exact exec_linkOpenOnLoss_due ht hreset hcar hhold hfitted hfirst hslow hlong hzones hpermit ⟨hmode, hmode'⟩ hsound hp hprofile
      hstate hq
  case closeDoor => exact fun dt s t o ht hreset => exec_linkDoorHoldExpiry_due ht hreset

end Sys2Proof.Machine

/-! ### The events of power and supervision (R445, R505, R507, R510, R511, R514–R516, R519, R521, R541, R571) -/

namespace Sys2Proof.Machine

/-- A test of four samples is one of the whole vector. -/
theorem vector4_all {p : Nat → Bool} {v : Vector Nat 4} (h : ∀ k : Fin 4, p v[k] = true) : v.toList.all p = true := by
  refine List.all_eq_true.2 fun x hx => ?_
  obtain ⟨k, hk, rfl⟩ := List.getElem_of_mem hx
  have hlen : k < 4 := by simpa using hk
  simpa using h ⟨k, hlen⟩

section PowerEvents

variable {dt : Nat} {s t : State} (ht : t = s.advance dt)
include ht

/-- A fault of the 32 kHz crystal bars SLEEP (R507). -/
theorem exec_clockFault_sleep : exec (.clockFault dt 2) s = .next ((t.setPwr { t.pwr with xtalOk := false }).post 5 3) := by
  show execClockFault dt 2 s = _
  have hsource : ((2 : Fin 3) : Nat) = 2 := rfl
  simp only [execClockFault, ← ht, if_pos hsource]

/-- A fault of the 25 MHz crystal or the PLL makes a module reset (R507). -/
theorem exec_clockFault_reset {k : Fin 3} (hsource : k.val ≠ 2) : exec (.clockFault dt k) s =
    .next ((t.setPwr { t.pwr with clockFault := some (k.val + 1) }).moduleReset 4 t.resetPhase) := by
  show execClockFault dt k s = _
  simp only [execClockFault, ← ht, if_neg hsource]

variable (hreset : t.inReset = false)
include hreset

/-- POWER_MODE_ENTRY at its instant enters the mode, and wakes at once where mains was lost (R510, R511). -/
theorem exec_powerModeEntry_due {m : PMode} {mask : Nat} {due : Postmark} {q u : State} (hentry : t.pwr.entry = some (m, mask, due))
    (hdue : t.now = due) (hrun : t.pwr.mode = .run)
    (hq : q = t.setPwr { t.pwr with mode := m, wakeMask := mask, entry := none, enteredAt := t.now, linkHeld := false })
    (hu : u = (if m = .sleep then q.parkBlocks.sleepBlocks else if m = .park then q.parkBlocks else q)) :
    exec (.powerModeEntry dt) s = .next (if u.pwr.mains = true then u else u.wake 8) := by
  have henter : ¬ (t.now ≠ due ∨ t.pwr.mode ≠ .run) := not_or.2 ⟨not_not_intro hdue, not_not_intro hrun⟩
  rw [hu]
  show execPowerModeEntry dt s = _
  simp only [execPowerModeEntry, ← ht, hreset, hentry, if_neg henter, ← hq, Bool.false_eq_true, if_false]
  cases m <;> simp only [reduceCtorEq, or_self, or_true, or_false, if_true, if_false]

/-- WAKE by a wake source in force raises RUN (R514). -/
theorem exec_wake_source {src : Fin 14} (hmode : t.pwr.mode ≠ .run) (hwakes : t.wakes src.val = true) (hsource : src.val < 10) :
    exec (.wake dt src) s = .next (t.wake src.val) := by
  have hforce : ¬ (t.pwr.mode = .run ∨ ¬ t.wakes src.val = true) := not_or.2 ⟨hmode, not_not_intro hwakes⟩
  show execWake dt src s = _
  simp only [execWake, ← ht, hreset, if_neg hforce, if_pos hsource, Bool.false_eq_true, if_false]

/-- IDLE_TIMEOUT after the parked idle time posts a POWER_MODE (R515). -/
theorem exec_idleTimeout_due {at' : Postmark} (hfrom : t.pwr.idleFrom = some at') (hserving : t.serving = true)
    (hidle : t.parkedIdle = true) (hon : t.fld 0xF0008 0 1 = 1) (hdue : at' + t.fld 0xF0008 4 12 * 80000000 ≤ t.now) :
    exec (.idleTimeout dt) s = .next ((t.setPwr { t.pwr with idleFrom := none }).post5 0x0D0 1
      (bytesLE 4 (t.fld 0xF0008 1 2) ++ bytesLE 4 (t.fld 0xF0008 16 10))) := by
  show execIdleTimeout dt s = _
  simp only [execIdleTimeout, ← ht, hreset, hfrom, hserving, hidle, hon, hdue, and_self, if_true, Bool.false_eq_true, if_false]

/-- MAINS_LOSS out of SLEEP posts 0x0F01, wakes and sheds the groups of SHEDMASK (R516, R517). -/
theorem exec_mainsLoss_run {vlog : Vector Nat 4} {vkeep : Nat} {low : Vector Bool 4} {q : State} (hmains : t.pwr.mains = true)
    (hlow : ∀ k : Fin 4, vlog[k] < 17000 ∨ (t.fld 0xF0004 1 1 = 1 ∧ low[k] = true)) (hphase : t.pwr.phase = .run)
    (hmode : t.pwr.mode ≠ .sleep)
    (hq : q = t.setPwr { t.pwr with
      mains := false, onVkeep := true, lostAt := some t.now, rescued := false, vlog := vlog[3], vkeep := vkeep, restoreAt := none }) :
    exec (.mainsLoss dt vlog vkeep low) s = .next (((q.post 0x0F01 vkeep).wake 8).mainsShed) := by
  have hlost : (t.pwr.mains && t.mainsLow vlog low) = true := by
    simpa [hmains, State.mainsLow] using hlow
  have hup : ¬ (q.inReset = true ∨ q.pwr.phase = .released) := by
    rw [hq]
    exact not_or.2 ⟨(Bool.eq_false_iff.1 hreset :), fun h => nomatch hphase.symm.trans h⟩
  have hawake : ¬ (q.pwr.mode = .sleep ∧ q.fld 0xF0004 0 1 = 0) := fun h => hmode (by rw [hq] at h; exact h.1)
  show execMainsLoss dt vlog vkeep low s = _
  simp only [execMainsLoss, ← ht, if_pos hlost, ← hq, if_neg hup, if_neg hawake]

/-- MAINS_RESTORED for 10 ms posts 0x0F06 and lets the groups wait for their restoration (R516, R518). -/
theorem exec_mainsRestored_held {vlog : Nat} {high : Bool} {since : Postmark} (hmains : t.pwr.mains = false) (hvlog : 18000 ≤ vlog)
    (hsense : t.fld 0xF0004 1 1 = 1 → high = true) (hsince : since + 800000 ≤ t.now) :
    exec (.mainsRestored dt vlog ⟨high, since⟩) s = .next ((t.setPwr { t.pwr with
      mains := true, onVkeep := false, lostAt := none, vlog := vlog,
      restoreAt := some (t.now + t.fld 0xA0130 16 8 * 800000) }).post 0x0F06 vlog) := by
  have hback : t.pwr.mains = false ∧ 18000 ≤ vlog ∧ since + 800000 ≤ t.now ∧ (t.fld 0xF0004 1 1 = 1 → high = true) :=
    ⟨hmains, hvlog, hsince, hsense⟩
  show execMainsRestored dt vlog ⟨high, since⟩ s = _
  simp only [execMainsRestored, ← ht, if_pos hback, hreset, Bool.false_eq_true, if_false]

/-- VKEEP four times below its level posts 0x0F02 while the detection is armed (R571). -/
theorem exec_vkeepLow_armed {mv : Vector Nat 4} (harmed : t.pwr.vkeepArmed = true)
    (hlow : ∀ k : Fin 4, mv[k] < t.fld 0xF0004 8 8 * 100) : exec (.vkeepLow dt mv) s =
      .next ((t.setPwr { t.pwr with vkeepArmed := false, vkeep := mv[3] }).post 0x0F02 mv[3]) := by
  have hall : (t.pwr.vkeepArmed && mv.toList.all (· < t.vkeepLow)) = true := by
    rw [harmed, Bool.true_and]
    exact vector4_all fun k => decide_eq_true (hlow k)
  show execVkeepLow dt mv s = _
  simp only [execVkeepLow, ← ht, hreset, if_pos hall, Bool.false_eq_true, if_false]
  rfl

/-- VKEEP four times 0.5 V above its level arms the detection again (R571). -/
theorem exec_vkeepRecovered_high {mv : Vector Nat 4} (hhigh : ∀ k : Fin 4, t.fld 0xF0004 8 8 * 100 + 500 ≤ mv[k]) :
    exec (.vkeepRecovered dt mv) s = .next (t.setPwr { t.pwr with vkeepArmed := true, vkeep := mv[3] }) := by
  have hall : mv.toList.all (t.vkeepLow + 500 ≤ ·) = true := vector4_all fun k => decide_eq_true (hhigh k)
  show execVkeepRecovered dt mv s = _
  simp only [execVkeepRecovered, ← ht, hreset, hall, Bool.or_true, Bool.false_eq_true, if_false]

/-- RESCUE_AUTO_START after DELAY, unit 0 at standstill out of level, posts RESCUE_START (R519). -/
theorem exec_rescueAutoStart_due {at' : Postmark} (hlost : t.pwr.lostAt = some at') (hmachine : t.machine = true)
    (hserving : t.serving = true) (hboot : t.pwr.bootDone = true) (hon : t.fld 0xF001C 20 1 = 1) (hmains : t.pwr.mains = false)
    (honce : t.pwr.rescued = false) (hdue : at' + t.fld 0xF001C 24 8 * 80000000 ≤ t.now) (hstill : t.moving 0 = false)
    (hlevel : t.sense.inLevel = false) :
    exec (.rescueAutoStart dt) s = .next ((t.setPwr { t.pwr with rescued := true }).post5 0x0D1 1 (bytesLE 4 0)) := by
  show execRescueAutoStart dt s = _
  simp only [execRescueAutoStart, ← ht, hreset, hlost, hmachine, hserving, hboot, hon, hmains, honce, hdue, hstill, hlevel, and_self,
    if_true, Bool.false_eq_true, if_false]

section Rescue

variable {r : RescueSt} (hrescue : t.pwr.rescue = some r)
include hrescue

/-- A rescue whose move failed ends FAILED 0xD7 (R521). -/
theorem exec_rescueLevelCheck_moveFailed {d : Nat} (hmove : t.rescueMove r = some (.error d)) :
    exec (.rescueLevelCheck dt) s = .next (t.rescueEnd .failed 0xD7 d 3) := by
  show execRescueLevelCheck dt s = _
  simp only [execRescueLevelCheck, ← ht, hreset, hrescue, hmove, Bool.false_eq_true, if_false]

variable {p : Postmark} (hmove : t.rescueMove r = some (.ok p))
include hmove

/-- A rescue at level within 1 s of its move ends DONE (R521). -/
theorem exec_rescueLevelCheck_atLevel (htick : t.now = t.sys.tickAt) (hsoon : t.now ≤ p + 80000000) (hstill : t.moving 0 = false)
    (htarget : t.ramp[0].pos = r.target * 65536) (hlevel : t.sense.inLevel = true) :
    exec (.rescueLevelCheck dt) s = .next (t.rescueEnd .done 0 0 2) := by
  have hdone : t.now = t.sys.tickAt ∧ t.now ≤ p + 80000000 ∧ t.moving 0 = false ∧ t.ramp[0].pos = r.target * 65536 ∧
      t.sense.inLevel = true := ⟨htick, hsoon, hstill, htarget, hlevel⟩
  show execRescueLevelCheck dt s = _
  simp only [execRescueLevelCheck, ← ht, hreset, hrescue, hmove, if_pos hdone, Bool.false_eq_true, if_false]

/-- A rescue out of level 1 s after its move ends FAILED 0xD8 (R521). -/
theorem exec_rescueLevelCheck_late (hlate : t.now = p + 80000000) (hlevel : t.sense.inLevel = false) :
    exec (.rescueLevelCheck dt) s = .next (t.rescueEnd .failed 0xD8 (ucode 32 t.sense.landDist) 3) := by
  show execRescueLevelCheck dt s = _
  simp only [execRescueLevelCheck, ← ht, hreset, hrescue, hmove, hlevel, if_pos hlate, and_false, Bool.false_eq_true, if_false]

end Rescue

/-- ENC_PWR above 350 mA is switched off with 0x0F07 (R505). -/
theorem exec_encPwrFault_over {ma : Nat} (hon : t.pwr.encOn = true) (hover : 350 < ma) : exec (.encPwrFault dt ma) s =
    .next ((t.setPwr { t.pwr with encOn := false, encFault := some false }).post 0x0F07 0) := by
  show execEncPwrFault dt ma s = _
  simp only [execEncPwrFault, ← ht, hreset, hon, hover, and_self, if_true, Bool.false_eq_true, if_false]

/-- A control die that passes 115 °C posts 0x0F04 (R541). -/
theorem exec_overtemp_control {temp : Int} (hover : 115 < temp) (hfirst : t.pwr.overC = false) : exec (.overtemp dt false temp) s =
    .next ((t.setPwr { t.pwr with tempC := temp, overC := true }).post 0x0F04 (256 * ucode 16 temp)) := by
  show execOvertemp dt false temp s = _
  simp [execOvertemp, ← ht, hreset, hover, hfirst, b2n]

/-- A field die that passes 115 °C posts 0x0F04 (R541). -/
theorem exec_overtemp_field {temp : Int} (hover : 115 < temp) (hfirst : t.pwr.overF = false) : exec (.overtemp dt true temp) s =
    .next ((t.setPwr { t.pwr with tempF := temp, overF := true }).post 0x0F04 (1 + 256 * ucode 16 temp)) := by
  show execOvertemp dt true temp s = _
  simp [execOvertemp, ← ht, hreset, hover, hfirst, b2n]

/-- STANDBY_IDLE_EXPIRY holds lights and ventilation off after their idle times (R445). -/
theorem exec_standbyIdleExpiry_on (hon : t.fld 0xA0180 0 1 = 1) (htick : t.tickDue = false) :
    exec (.standbyIdleExpiry dt) s = .next (t.setFio { t.fio with
      lightsOff := t.fio.lightsOff || decide (t.fio.idleFrom + t.fld 0xA0180 4 12 * 80000000 ≤ t.now),
      ventOff := t.fio.ventOff || decide (t.fio.idleFrom + t.fld 0xA0180 16 12 * 80000000 ≤ t.now) }).outRefresh := by
  have hbit : bitAt (t.reg 0xA0180) 0 = true := by simpa [bitAt, State.fld, bitsAt] using hon
  show execStandbyIdleExpiry dt s = _
  simp only [execStandbyIdleExpiry, ← ht, hreset, hbit, htick, Bool.not_false, Bool.and_self, if_true, Bool.false_eq_true, if_false]
  rfl

end PowerEvents

/-- Settles O30: each event out of reset. -/
theorem powerEventsComplete : Obligations.PowerEventsComplete := by
  refine ⟨?entry, ?wake, ?idle, ?lost, ?restored, ?vkeep, ?autoStart, ?level, ?clock, ?encoder, ?overtemp, ?standby⟩
  case entry =>
    exact fun dt s t m mask due q u ht hreset hentry hdue hrun hq hu => exec_powerModeEntry_due ht hreset hentry hdue hrun hq hu
  case wake => exact fun dt src s t ht hreset => exec_wake_source ht hreset
  case idle => exact fun dt s t at' ht hreset => exec_idleTimeout_due ht hreset
  case lost =>
    exact fun dt vlog vkeep low s t q ht hreset hmains hlow hphase hmode hq =>
      exec_mainsLoss_run ht hreset hmains hlow hphase hmode hq
  case restored =>
    exact fun dt vlog high since s t ht hreset hmains hvlog hsense => exec_mainsRestored_held ht hreset hmains hvlog hsense
  case vkeep => exact fun dt mv s t ht hreset => ⟨exec_vkeepLow_armed ht hreset, exec_vkeepRecovered_high ht hreset⟩
  case autoStart => exact fun dt s t at' ht hreset => exec_rescueAutoStart_due ht hreset
  case level =>
    exact fun dt s t r ht hreset hrescue => ⟨fun d => exec_rescueLevelCheck_moveFailed ht hreset hrescue,
      fun p hmove => exec_rescueLevelCheck_atLevel ht hreset hrescue hmove,
      fun p hmove => exec_rescueLevelCheck_late ht hreset hrescue hmove⟩
  case clock => exact fun dt s t ht => ⟨exec_clockFault_sleep ht, fun k => exec_clockFault_reset ht⟩
  case encoder => exact fun dt ma s t ht hreset => exec_encPwrFault_over ht hreset
  case overtemp =>
    exact fun dt temp s t ht hreset hover => ⟨exec_overtemp_control ht hreset hover, exec_overtemp_field ht hreset hover⟩
  case standby => exact fun dt s t ht hreset => exec_standbyIdleExpiry_on ht hreset

end Sys2Proof.Machine

/-! ### The CAN events (R460, R467, R468, R471–R474) -/

namespace Sys2Proof.Machine

section CanEvents

variable {dt : Nat} {c : Fin 3} {s t : State} (ht : t = s.advance dt) (hreset : t.inReset = false)
include ht hreset

section Frame

variable {f : CanFrame} {ok : Bool} {age : Nat} {x : BusIn}

/-- An FD frame says nothing to a wake receiver (R474). -/
theorem exec_canFrameRx_wakeFd (hwake : t.wakeReceiver c = true) (hfd : f.fdf = true) :
    exec (.canFrameRx dt c f ok age x) s = .next t := by
  show execCanFrameRx dt c f ok age x s = _
  simp only [execCanFrameRx, ← ht, hreset, hwake, State.wakeRx, hfd, Bool.false_eq_true, if_false, if_true]

/-- A classical frame wakes if it is a wake frame, and an error if it is the 32nd in a row (R474). -/
theorem exec_canFrameRx_wake {n : Nat} (hwake : t.wakeReceiver c = true) (hfd : f.fdf = false)
    (hn : n = (if ok then 0 else satAdd 32 t.can[c].wakeErrs 1)) : exec (.canFrameRx dt c f ok age x) s =
      .next ((t.setCan c { t.can[c] with wakeErrs := n }).noteIf ((ok && t.wakeFrame c f) || decide (n = 32)) (2 + c.val)) := by
  show execCanFrameRx dt c f ok age x s = _
  simp only [execCanFrameRx, ← ht, hreset, hwake, State.wakeRx, hfd, ← hn, Bool.false_eq_true, if_false, if_true]

variable (hwake : t.wakeReceiver c = false) (hactive : t.canActive c = true)
include hwake hactive

/-- An FD frame is foreign to an active controller while FD is 0 (R460). -/
theorem exec_canFrameRx_foreign (hfd : f.fdf = true) (hoff : t.canCfg c 0 1 = 0) :
    exec (.canFrameRx dt c f ok age x) s = .next (t.fdForeign c x) := by
  show execCanFrameRx dt c f ok age x s = _
  simp only [execCanFrameRx, ← ht, hreset, hwake, hactive, hfd, hoff, decide_true, Bool.not_true, Bool.and_self, Bool.false_eq_true,
    if_false, if_true]

variable (hkind : ¬ (f.fdf = true ∧ t.canCfg c 0 1 = 0))
include hkind

/-- A bad frame counts on an active controller (R472). -/
theorem exec_canFrameRx_bad : exec (.canFrameRx dt c f false age x) s =
    .next (t.canBusIn c (t.can[c].afterRx false x) x.seen) := by
  have hkind' : (f.fdf && decide (t.canCfg c 0 1 = 0)) = false := by simpa using hkind
  show execCanFrameRx dt c f false age x s = _
  simp only [execCanFrameRx, ← ht, hreset, hwake, hactive, hkind', Bool.not_true, Bool.not_false, Bool.false_eq_true, if_false, if_true]

/-- A good frame of an active controller goes through the filters with its age; one that GROUP or the letterbox takes only where
COPY is 1 (R460). -/
theorem exec_canFrameRx_good {u v : State} {taken : Bool} (hu : u = t.canBusIn c (t.can[c].afterRx true x) x.seen)
    (htaken : taken = (decide (c.val < 2 ∧ u.group.state ≠ 0 ∧ f.xtd = true) && groupTypes.contains (frameType f.id)))
    (hv : v = (if (c.val < 2 ∧ u.group.state ≠ 0 ∧ f.xtd = true) ∧ ((taken = false ∧ frameType f.id ≠ 0x70 ∧ frameType f.id ≠ 0x71) ∨
      groupFrameBad f = true) then u.groupDiscard else u)) :
    exec (.canFrameRx dt c f true age x) s =
      .next (if (taken = true ∨ v.letterFrame c f = true) ∧ v.canCfg c 4 1 = 0 then v else v.filterFrame c f (v.now - age)) := by
  have hkind' : (f.fdf && decide (t.canCfg c 0 1 = 0)) = false := by simpa using hkind
  have hgroup : decide (c.val < 2 ∧ u.group.state ≠ 0 ∧ f.xtd = true) = (decide (c.val < 2) && decide (u.group.state ≠ 0) && f.xtd) := by
    simp [Bool.and_assoc]
  have hv' : v = if ((decide (c.val < 2) && decide (u.group.state ≠ 0) && f.xtd) &&
      (!(taken || decide (frameType f.id = 0x70) || decide (frameType f.id = 0x71)) || groupFrameBad f)) = true
      then u.groupDiscard else u := by
    rw [hv]
    simp [and_assoc]
  rw [hgroup] at htaken
  show execCanFrameRx dt c f true age x s = _
  simp only [execCanFrameRx, ← ht, hreset, hwake, hactive, hkind', ← hu, ← htaken, ← hv', Bool.not_true, Bool.false_eq_true,
    if_false]
  simp only [Bool.and_eq_true, Bool.or_eq_true, decide_eq_true_eq]
  split <;> rfl

end Frame

/-- The choice sends the pending frame of highest priority (R467). -/
theorem exec_canTxChoice_pending {p : CanPend} (hactive : t.canActive c = true) (hstate : t.can[c].state = 1)
    (hfree : t.can[c].onBus = none)
    (hleast : leastBy (fun p : CanPend => if t.canCfg c 3 1 = 1 then p.buf.val
        else arbKey (t.can[c].buf p.buf.val).frame * 256 + p.buf.val)
      (t.can[c].pend.filter fun p => !p.late && !p.ended && decide (p.twinCnt < t.canCfg c 24 4)) = some p) :
    exec (.canTxChoice dt c) s = .next (t.setCan c { t.can[c].putBuf p.buf.val { t.can[c].buf p.buf.val with pm := t.now } with
      onBus := some p.buf,
      pend := t.can[c].pend.map fun r => if r.buf = p.buf then { r with attempts := r.attempts + 1 } else r }) := by
  have hopen : (!t.canActive c || decide (t.can[c].state ≠ 1) || t.can[c].onBus.isSome) = false := by
    rw [hactive, hstate, hfree]
    rfl
  show execCanTxChoice dt c s = _
  simp only [execCanTxChoice, ← ht, hreset, hopen, hleast, Bool.false_eq_true, if_false]
  rfl

section TxEnd

variable {r : TxEnd} {x : BusIn} {b : Fin 256} {p : CanPend} {u : State} {q : CanSt} (hbus : t.can[c].onBus = some b)
  (hu : u = t.canBusIn c (t.can[c].afterTx r x) x.seen)
  (hq : q = (if (u.can[c].buf b.val).frame.fdf && bitAt (u.reg (canBase c.val + 12)) 19 then
    { u.can[c] with onBus := none, loopDly := min x.loopDly 127 } else { u.can[c] with onBus := none }))
  (hp : q.pend.find? (·.buf = b) = some p)
include hbus hu hq hp

/-- A frame sent ends DONE with LATE and TWIN (R466). -/
theorem exec_canTxEnd_sent (hsent : r = .sent) : exec (.canTxEnd dt c r x) s =
    let g := { q with pend := q.pend.filter (·.buf ≠ b) }
    .next ((u.setCan c (g.putBuf b.val { g.buf b.val with sent := true, cancelLate := p.late })).endTx c p .done 0
      (b2n p.late + 2 * b2n p.twinSeen)) := by
  have hbuf : ({ u.can[c] with onBus := none } : CanSt).buf b.val = u.can[c].buf b.val := rfl
  show execCanTxEnd dt c r x s = _
  simp only [execCanTxEnd, ← ht, hreset, hbus, ← hu, hbuf, ← hq, hp, if_pos hsent, Bool.false_eq_true, if_false]

/-- A failed attempt of a frame that goes on counts data-bit errors (R471). -/
theorem exec_canTxEnd_again (hfailed : r ≠ .sent) (hlate : p.late = false) (hended : p.ended = false) (hsingle : p.single = false)
    (hstate : q.state = 1) : exec (.canTxEnd dt c r x) s = .next (u.setCan c { q with
      pend := q.pend.map fun k =>
        if k.buf = b then { k with twinCnt := if r = .dataBitError then p.twinCnt + 1 else 0 } else k }) := by
  have hbuf : ({ u.can[c] with onBus := none } : CanSt).buf b.val = u.can[c].buf b.val := rfl
  have hgoes : (p.late || p.ended || p.single || decide (q.state ≠ 1)) = false := by simp [hlate, hended, hsingle, hstate]
  show execCanTxEnd dt c r x s = _
  simp only [execCanTxEnd, ← ht, hreset, hbus, ← hu, hbuf, ← hq, hp, if_neg hfailed, hgoes, Bool.false_eq_true, if_false]

end TxEnd

/-- A twin reached posts the block's event, and stops the frame FAILED 0xB7 or goes on (R471). -/
theorem exec_twin_reached {b : Fin 256} {p : CanPend} (hp : t.can[c].pend.find? (·.buf = b) = some p)
    (hreached : t.canCfg c 24 4 ≤ p.twinCnt) : exec (.twin dt c b) s =
      let u := t.twinPost c b
      if p.twinStop then .next ((u.setCan c { u.can[c] with pend := u.can[c].pend.filter (·.buf ≠ b) }).endTx c p .failed 0xB7
        p.attempts)
      else .next (u.setCan c { u.can[c] with
        pend := u.can[c].pend.map fun k => if k.buf = b then { k with twinCnt := 0, twinSeen := true } else k }) := by
  show execTwin dt c b s = _
  simp only [execTwin, ← ht, hreset, hp, if_neg (Nat.not_lt.2 hreached), Bool.false_eq_true, if_false]

/-- Above 255 errors bus-off counts, posts and cancels what is pending with 0xB5 (R472). -/
theorem exec_busOff_over {x : BusIn} {q : CanSt} (hstate : t.can[c].state = 1) (hnew : t.can[c].errst < 2) (hover : 256 ≤ x.txc)
    (hq : q = { t.can[c] with
      errst := 2, onBus := none, boAt := t.now, busOff := satAdd 0xFF t.can[c].busOff 1, txc := 255,
      errSeen := t.can[c].errSeen ||| x.seen }) :
    exec (.busOff dt c x) s = .next (((t.setCan c q).post (canEvent c 4) q.counters).cancelPend c q.pend 0xB5 true) := by
  have henters : ¬ (t.can[c].state ≠ 1 ∨ 2 ≤ t.can[c].errst ∨ x.txc < 256) := by omega
  subst hq
  show execBusOff dt c x s = _
  simp only [execBusOff, ← ht, hreset, if_neg henters, Bool.false_eq_true, if_false]

/-- The recovery starts BODELAY after bus-off while BORECOV is 1 (R473). -/
theorem exec_busOffRecoveryStart_due (hoff : t.can[c].errst = 2) (hrecover : t.canCfg c 2 1 = 1)
    (hdue : t.can[c].boAt + t.fld (canBase c.val + 0x18) 0 16 * 80000 ≤ t.now) :
    exec (.busOffRecoveryStart dt c) s = .next (t.setCan c { t.can[c] with errst := 3 }) := by
  show execBusOffRecoveryStart dt c s = _
  simp only [execBusOffRecoveryStart, ← ht, hreset, if_pos (⟨hoff, hrecover, hdue⟩ : _ ∧ _ ∧ _), Bool.false_eq_true, if_false]

/-- The end of the recovery takes the counters to 0 and posts (R473). -/
theorem exec_busRecovered_end {q : CanSt} (hrecovering : t.can[c].errst = 3)
    (hq : q = { t.can[c] with errst := 0, txc := 0, rxc := 0 }) :
    exec (.busRecovered dt c 128) s = .next ((t.setCan c q).post (canEvent c 7) q.counters) := by
  have hends : ¬ (t.can[c].errst ≠ 3 ∨ 128 ≠ 128) := not_or.2 ⟨not_not_intro hrecovering, not_not_intro rfl⟩
  subst hq
  show execBusRecovered dt c 128 s = _
  simp only [execBusRecovered, ← ht, hreset, if_neg hends, Bool.false_eq_true, if_false]

/-- 11 recessive bits end the wait (R452). -/
theorem exec_canIntegrationDone_up :
    exec (.canIntegrationDone dt c) s = .next (t.setCan c { t.can[c] with integ := false }) := by
  show execCanIntegrationDone dt c s = _
  simp only [execCanIntegrationDone, ← ht, hreset, Bool.false_eq_true, if_false]

end CanEvents

/-- Before the 128th occurrence nothing recovers (R473). -/
theorem exec_busRecovered_before {dt n : Nat} {c : Fin 3} {s : State} (hn : n ≠ 128) :
    exec (.busRecovered dt c n) s = .next (s.advance dt) := by
  show execBusRecovered dt c n s = _
  simp only [execBusRecovered, if_pos (Or.inr hn : _ ∨ n ≠ 128), ite_self]

/-- Settles O20: each event out of reset. -/
theorem canEventsComplete : Obligations.CanEventsComplete := by
  refine ⟨?frame, ?choice, ?ended, ?twin, ?off, ?recovery, ?recovered, ?before, ?integrated⟩
  case frame =>
    exact fun dt c f ok age x s t ht hreset => ⟨exec_canFrameRx_wakeFd ht hreset, fun n => exec_canFrameRx_wake ht hreset,
      exec_canFrameRx_foreign ht hreset, fun u v taken hwake hactive hkind hu htaken hv =>
        ⟨exec_canFrameRx_bad ht hreset hwake hactive hkind, exec_canFrameRx_good ht hreset hwake hactive hkind hu htaken hv⟩⟩
  case choice => exact fun dt c s t p ht hreset => exec_canTxChoice_pending ht hreset
  case ended =>
    exact fun dt c r x s t b p u q ht hreset hbus hu hq hp =>
      ⟨exec_canTxEnd_sent ht hreset hbus hu hq hp, exec_canTxEnd_again ht hreset hbus hu hq hp⟩
  case twin => exact fun dt c b s t p ht hreset => exec_twin_reached ht hreset
  case off => exact fun dt c x s t q ht hreset => exec_busOff_over ht hreset
  case recovery => exact fun dt c s t ht hreset => exec_busOffRecoveryStart_due ht hreset
  case recovered => exact fun dt c s t q ht hreset => exec_busRecovered_end ht hreset
  case before => exact fun dt c n s => exec_busRecovered_before
  case integrated => exact fun dt c s t ht hreset => exec_canIntegrationDone_up ht hreset

end Sys2Proof.Machine

/-! ### Memory read back, and the full event ring (R39, R45) -/

namespace Sys2Proof.Machine

/-- Settles O46: what a read after a store gives, at a stored address and at another. -/
theorem storedBytesReadBack : Obligations.StoredBytesReadBack := by
  refine fun a b bs s hwf => ⟨fun hlast hfirst => ?stored, fun hother => ?other⟩
  case stored =>
    rw [cell_storeBytes a b bs hwf, if_pos ⟨hfirst, by omega⟩, List.getD_eq_getElem]
  case other =>
    rw [cell_storeBytes a b bs hwf, if_neg (by omega)]

/-- A record posted that repeats none takes the place of the oldest one in a full ring (R45). -/
theorem EvSt.post_full {pm : Postmark} {code : Nat} {d : Word} {e : EvSt} (hfull : e.unread = 256) (hlen : e.recs.length = 256)
    (hnew : evNewest code d e.recs = none) :
    e.post pm code d = { e with
      recs := evInsert ⟨code, 0, d, pm, e.era⟩ (e.recs.drop 1), wr := (e.wr + 1) % 512, rd := (e.rd + 1) % 512,
      lost := satAdd 0xFFFF e.lost 1, lostSince := satAdd 0xFFFFFFFF e.lostSince 1 } := by
  simp [EvSt.post, hfull, hlen, hnew]

/-- A record posted into a ring with room loses none (R45). -/
theorem EvSt.post_lost {pm : Postmark} {code : Nat} {d : Word} {e : EvSt} (hroom : e.unread < 256) :
    (e.post pm code d).lost = e.lost := by
  simp only [EvSt.post, if_pos hroom]
  split <;> rfl

/-- EVT_LOST in a ring with room posts the count of the records lost and starts it again (R45). -/
theorem exec_evtLost_room {dt : Nat} {s t : State} (ht : t = s.advance dt) (hreset : t.inReset = false)
    (hroom : t.ev.unread < 256) (hlost : 0 < t.ev.lostSince) :
    exec (.evtLost dt) s = .next { t.post 0x0004 t.ev.lostSince with
      ev := { (t.post 0x0004 t.ev.lostSince).ev with lostSince := 0 } } := by
  show execEvtLost dt s = _
  simp only [execEvtLost, ← ht, hreset, if_pos (And.intro hroom hlost), Bool.false_eq_true, if_false]

/-- Settles O47: the full ring, the frame of a post, EVT_LOST in a ring with room, and the read of SYS_EVLOST. -/
theorem eventRingWhenFull : Obligations.EventRingWhenFull := by
  refine ⟨?full, fun _ _ _ => rfl, ?lost, fun _ => rfl⟩
  case full =>
    intro pm code d e hfull hlen hnew
    rw [EvSt.post_full hfull hlen hnew]
    exact ⟨rfl, rfl, rfl, rfl, rfl⟩
  case lost =>
    intro dt s t ht hreset _ hroom hlost
    exact ⟨_, exec_evtLost_room ht hreset hroom hlost, rfl, EvSt.post_lost hroom⟩

end Sys2Proof.Machine

/-! ### The tick, the scrubber and EVT_LOST (R22, R40, R45, R83, R568) -/

namespace Sys2Proof.Machine

section TickRows

variable {dt : Nat} {s t : State} (ht : t = s.advance dt)
include ht

/-- SERVO_TICK at a due tick instant counts the tick and makes the work of the blocks (R22). -/
theorem exec_servoTick_due {x : TickIn} (hdue : t.tickDue = true) : exec (.servoTick dt x) s =
    .next (State.tickBlocks x { t with sys := { t.sys with tickAt := t.now, tickNo := t.sys.tickNo + 1 } }) := by
  show execServoTick dt x s = _
  simp only [execServoTick, ← ht, hdue, Bool.not_true, Bool.false_eq_true, if_false]

/-- ABORT_TAKES_EFFECT at a due tick instant makes each ABORT of the tick take effect, in the order of service (R83). -/
theorem exec_abortTakesEffect_due (hdue : t.tickDue = true) : exec (.abortTakesEffect dt) s =
    .next (t.lb.aborts.foldl (fun u q => u.abortOne q) { t with lb := { t.lb with aborts := [] } }) := by
  show execAbortTakesEffect dt s = _
  simp only [execAbortTakesEffect, ← ht, hdue, Bool.not_true, Bool.false_eq_true, if_false]

variable {a : Nat} {e : Fin 3} (hreset : t.inReset = false) (hawake : t.pwr.mode ≠ .sleep)
include hreset hawake

/-- SCRUBBER_PASS out of reset and SLEEP looks at its word alone (R40). -/
theorem exec_scrubberPass_awake : exec (.scrubberPass dt a e) s =
    .next (if e.val = 2 ∨ a / 8 * 8 ∈ t.mem.hard then ((t.putHard (a / 8 * 8)).eccFound (a / 8 * 8)).scrubAct (a / 8 * 8)
      else if e.val = 1 ∨ a / 8 * 8 ∈ t.mem.soft then t.eccCorrect (a / 8 * 8) else t) := by
  show execScrubberPass dt a e s = _
  simp only [execScrubberPass, ← ht, hreset, hawake, decide_false, Bool.or_self, Bool.false_eq_true, if_false,
    List.contains_iff_mem]
  split
  · rfl
  · split <;> rfl

end TickRows

/-- Settles O41: each row at its instant, the scrubber by what its word holds. -/
theorem tickRowsComplete : Obligations.TickRowsComplete := by
  refine ⟨?tick, ?abort, ?scrub, ?lost⟩
  case tick => exact fun dt x s t ht hdue => exec_servoTick_due ht hdue
  case abort => exact fun dt s t ht hdue => exec_abortTakesEffect_due ht hdue
  case scrub =>
    intro dt a e s t ht hreset hawake
    rw [exec_scrubberPass_awake ht hreset hawake]
    refine ⟨fun hbad => ?uncorrectable, fun hgood hone => ?symbol, fun hnew hgood hclean => ?clean⟩
    case uncorrectable => rw [if_pos hbad]
    case symbol =>
      have htwo : e.val ≠ 2 := by rcases hone with h | ⟨h, _⟩ <;> omega
      rw [if_neg (not_or.2 ⟨htwo, hgood⟩), if_pos (hone.imp_right And.right)]
    case clean => rw [if_neg (not_or.2 ⟨by omega, hgood⟩), if_neg (not_or.2 ⟨by omega, hclean⟩)]
  case lost => exact fun dt s t ht hreset hroom hlost => exec_evtLost_room ht hreset hroom hlost

end Sys2Proof.Machine

/-! ### When a field output is on (R315, R322, R435, R442, R445) -/

namespace Sys2Proof.Machine

/-- What the grant, the permits, the safe stop and LINKOFF allow an output by (R322, R334, R435). -/
theorem outPermitted_imp {s : State} {k : Nat} (h : s.outPermitted k = true) :
    s.grant = true ∧ s.fio.linkOff = false ∧ ∃ i, s.image = some i ∧ s.permit (u8 i (0x9F0 + k)) = true ∧
      (s.safeStop = true → bitAt (u32 i 0x9E0) k = false) := by
  simp only [State.outPermitted, State.imagePermit, State.imageByte, Bool.and_eq_true, Bool.not_eq_true'] at h
  obtain ⟨⟨⟨⟨hgrant, hlink⟩, hpermit⟩, hstop⟩, -⟩ := h
  cases himage : s.image with
  | none => rw [himage] at hpermit; cases hpermit
  | some i =>
    rw [himage] at hpermit hstop
    exact ⟨hgrant, hlink, i, rfl, hpermit, fun hsafe => by rw [hsafe] at hstop; simpa using hstop⟩

/-- The stile that grants output enables is in no fault and grants a lane (R20, R351). -/
theorem stile_of_grant {s : State} (h : s.grant = true) : s.lane.stile ≠ .none ∧ s.lane.stile ≠ .fault := by
  constructor <;> intro hstile <;> simp [State.grant, hstile] at h

/-- An output that the drivers have on out of SLEEP is allowed, and neither latched, shed nor held off by standby (R435). -/
theorem outWanted_imp {s : State} {k : Nat} (h : s.outWanted.getLsbD k = true) (hk : k < 32)
    (hawake : s.pwr.mode ≠ .sleep) : s.fio.latched.getLsbD k = false ∧ s.outShed k = false ∧
      s.fio.allowed.getLsbD k = true ∧ s.outStandby k = false := by
  rw [State.outWanted, maskOf_getLsbD _ hk] at h
  simp only [if_neg hawake, Bool.and_eq_true, Bool.not_eq_true'] at h
  obtain ⟨⟨hlatch, hshed⟩, ⟨hallowed, hstandby⟩, -⟩ := h
  exact ⟨hlatch, hshed, hallowed, hstandby⟩

section FieldFrames

variable {dt : Nat} {x : DiagIn} {s t : State} (ht : t = s.advance dt) (hreset : t.inReset = false) (hawake : t.pwr.mode ≠ .sleep)
include ht hreset hawake

/-- A frame to the field die carries what the grant and the permits allow; after a lost link the counters are valid again at once
(R429, R435). -/
theorem exec_fieldLinkFrame_out {u : State} (hu : u = (t.setFio { t.fio with
    allowed := maskOf 32 (fun k => t.fio.cmd.getLsbD k && t.outPermitted k), frameAt := t.now, linkLost := false }).outRefresh) :
    exec (.fieldLinkFrame dt true true x) s = .next (if t.fio.linkLost = true then u.setFio (u.fio.countersBack u.now) else u) := by
  show execFieldLinkFrame dt true true x s = _
  simp only [execFieldLinkFrame, ← ht, hreset, if_neg hawake, ← hu, Bool.not_true, Bool.false_eq_true, if_false, if_true]

end FieldFrames

/-- Settles O52: the drivers follow what the frame carries. -/
theorem outputsNeedGrantAndPermits : Obligations.OutputsNeedGrantAndPermits := by
  intro dt x s t u k ht hreset hawake hnext hk hon
  have hdrivers : (t.setFio { t.fio with
      allowed := maskOf 32 (fun k => t.fio.cmd.getLsbD k && t.outPermitted k), frameAt := t.now,
      linkLost := false }).outWanted.getLsbD k = true := by
    rw [exec_fieldLinkFrame_out ht hreset hawake rfl] at hnext
    cases hnext
    revert hon
    split <;> exact id
  obtain ⟨hlatch, hshed, hallowed, hstandby⟩ := outWanted_imp hdrivers hk hawake
  have hcarried : (t.fio.cmd.getLsbD k && t.outPermitted k) = true := (maskOf_getLsbD _ hk).symm.trans hallowed
  obtain ⟨hcmd, hpermitted⟩ := Bool.and_eq_true_iff.1 hcarried
  obtain ⟨hgrant, hlink, i, himage, hpermit, hstop⟩ := outPermitted_imp hpermitted
  obtain ⟨hfirst, hsecond⟩ := Bool.and_eq_true_iff.1 hpermit
  exact ⟨hcmd, hlatch, hshed, hstandby, hlink, stile_of_grant hgrant, i, himage, hfirst, hsecond, hstop⟩

end Sys2Proof.Machine

/-! ### The field events (R21, R426, R428, R432, R433, R435, R438, R440, R442, R443) -/

namespace Sys2Proof.Machine

/-- An input at a sampling window of a bank: sampled and debounced where its own window ends (R426-R428). -/
def State.windowInput (t : State) (bank : Fin 6) (mv : Vector Int 8) (k : Fin 48) : InSt :=
  if k.val / 8 = bank.val ∧ t.counting k.val = false ∧ windowEnds t.now (t.inPeriod k.val) bank.val = true then
    t.fio.inp[k].sample t.now
      (if t.door.mode = 4 ∧ (k.val = t.fld 0x50008 0 3 ∨ k.val = t.fld 0x50008 4 3) then 1 else t.deb k.val) (t.inv k.val)
      t.fio.linkLost (t.fio.inp[k].reads k.val mv[fidx 7 (k.val % 8)])
  else t.fio.inp[k]

section FieldEvents

variable {dt : Nat} {s t : State} (ht : t = s.advance dt) (hreset : t.inReset = false)
include ht hreset

section FieldLink

variable {x : DiagIn} (hawake : t.pwr.mode ≠ .sleep)
include hawake

/-- A frame that fails its check is counted and discarded (R21). -/
theorem exec_fieldLinkFrame_bad (toField : Bool) : exec (.fieldLinkFrame dt toField false x) s =
    .next (t.setFio { t.fio with linkErr := satAdd 0xFFFF t.fio.linkErr 1 }) := by
  show execFieldLinkFrame dt toField false x s = _
  simp only [execFieldLinkFrame, ← ht, hreset, if_neg hawake, Bool.not_false, Bool.false_eq_true, if_false, if_true]

/-- A frame from the field die carries the images, the currents and the temperature (R21, R430). -/
theorem exec_fieldLinkFrame_in : exec (.fieldLinkFrame dt false true x) s = .next (t.setFio { t.fio with
    view := Vector.ofFn (fun k : Fin 48 => t.fio.view[k].take t.fio.inp[k]),
    amps := Vector.ofFn (fun k : Fin 32 => if t.fio.on.getLsbD k.val then x.amps[k] else 0),
    groupA := x.groupA, groupB := x.groupB, hottest := x.hottest }) := by
  show execFieldLinkFrame dt false true x s = _
  simp only [execFieldLinkFrame, ← ht, hreset, if_neg hawake, Bool.not_true, Bool.false_eq_true, if_false]

/-- Three periods without a valid frame switch off the outputs and the door stage (R21, R444). -/
theorem exec_fieldLinkFault_due (hfrom : t.fio.frameAt + 1920 ≤ t.now) (hto : t.now ≤ t.fio.frameAt + 2000)
    (hlinked : t.fio.linkLost = false) : exec (.fieldLinkFault dt) s = .next (((t.setFio { t.fio.invalidate with
      linkLost := true, linkOff := true, allowed := 0 }).outRefresh.post 0x0A08 ((t.now - t.fio.frameAt) / 640)).doorSwitch) := by
  have hdue : t.fio.frameAt + 1920 ≤ t.now ∧ t.now ≤ t.fio.frameAt + 2000 ∧ ¬ t.fio.linkLost = true ∧ t.pwr.mode ≠ .sleep :=
    ⟨hfrom, hto, Bool.eq_false_iff.1 hlinked, hawake⟩
  show execFieldLinkFault dt s = _
  simp only [execFieldLinkFault, ← ht, hreset, if_pos hdue, Bool.false_eq_true, if_false]
  rfl

end FieldLink

/-- A sampling window debounces the inputs of its bank, and their changes may wake (R426, R428, R431). -/
theorem exec_inputSample_window {bank : Fin 6} {mv : Vector Int 8} (hfield : t.fio.input.entered = false) {u : State}
    (hu : u = t.setFio { t.fio with
      inp := Vector.ofFn (t.windowInput bank mv), sampleAt := t.now,
      unsampled := if t.fio.sampleAt = t.now then t.fio.unsampled else t.fio.inp }) :
    exec (.inputSample dt bank mv) s = .next (u.noteIf (u.wakeImage t.fio.inp) 5).inputsBack := by
  have hinputs : t.windowInput bank mv = fun k : Fin 48 =>
      if k.val / 8 = bank.val ∧ ¬ t.counting k.val = true ∧ windowEnds t.now (t.inPeriod k.val) bank.val = true then
        t.fio.inp[k].sample t.now
          (if (t.door.mode = 4 && (k.val = t.fld 0x50008 0 3 || k.val = t.fld 0x50008 4 3)) = true then 1 else t.deb k.val)
          (t.inv k.val) t.fio.linkLost (t.fio.inp[k].reads k.val mv[fidx 7 (k.val % 8)])
      else t.fio.inp[k] := by
    funext k
    simp only [State.windowInput, Bool.not_eq_true, Bool.and_eq_true, Bool.or_eq_true, decide_eq_true_eq]
  rw [hinputs] at hu
  subst hu
  show execInputSample dt bank mv s = _
  simp only [execInputSample, ← ht, hreset, hfield, Bool.false_eq_true, if_false]

/-- A counter's edge after 2 µs on a new level, into the active state counted (R432, R433). -/
theorem exec_counterEdge_stable {i : Fin 8} {high : Bool} {x : InSt} {img : Bool} {u : State} (hmode : t.fio.ctr[i].mode ≠ 0)
    (hawake : t.pwr.mode ≠ .sleep) (hx : x = t.fio.inp[(⟨i.val, by omega⟩ : Fin 48)]) (hvalid : x.valid = true)
    (hstable : x.chgPm + 160 ≤ t.now) (himg : img = (high != t.inv i.val))
    (hu : u = (t.setFio { t.fio with
      inp := t.fio.inp.set i.val { x with
        level := high, raw := high, img := img, chgPm := if img = x.img then x.chgPm else t.now },
      ctr := t.fio.ctr.set i (if img && !x.img then t.fio.ctr[i].edge t.now else t.fio.ctr[i]) })) :
    exec (.counterEdge dt i high) s = .next (u.noteIf (u.wakeImage t.fio.inp) 5) := by
  have hacts : ¬ (t.fio.ctr[i].mode = 0 ∨ t.pwr.mode = .sleep ∨ ¬ x.valid = true ∨ t.now < x.chgPm + 160) := by
    rintro (h | h | h | h)
    · exact hmode h
    · exact hawake h
    · exact h hvalid
    · exact Nat.not_lt.2 hstable h
  show execCounterEdge dt i high s = _
  simp only [execCounterEdge, ← ht, hreset, ← hx, if_neg hacts, ← himg, hu, Bool.false_eq_true, if_false]

/-- The end of a gate sets the frequency of its input (R433). -/
theorem exec_counterGateEnd_due {i : Fin 8} (hmode : t.fio.ctr[i].mode = 2)
    (hdue : t.fio.ctr[i].gateAt + t.fio.ctr[i].gate * 80 = t.now) (hvalid : (t.inp i.val).valid = true)
    (hawake : t.pwr.mode ≠ .sleep) : exec (.counterGateEnd dt i) s = .next (t.setFio { t.fio with
      ctr := t.fio.ctr.set i { t.fio.ctr[i] with
        value := t.fio.ctr[i].freq, gateAt := t.fio.ctr[i].gateAt + t.fio.ctr[i].gate * 80, edges := 0 } }) := by
  have hends : t.fio.ctr[i].mode = 2 ∧ t.fio.ctr[i].gateAt + t.fio.ctr[i].gate * 80 = t.now ∧ (t.inp i.val).valid = true ∧
      t.pwr.mode ≠ .sleep := ⟨hmode, hdue, hvalid, hawake⟩
  show execCounterGateEnd dt i s = _
  simp only [execCounterGateEnd, ← ht, hreset, if_pos hends, Bool.false_eq_true, if_false]

section Diagnostics

variable {k : Fin 32}

section Off

variable {mv : Nat} {temp : Int} {q : State} (hoff : t.fio.on.getLsbD k.val = false) (hawake : t.pwr.mode ≠ .sleep)
  (hperiod : t.fld 0xA001C 0 6 ≠ 0) (hsince : t.fio.toff[k] < t.now)
  (hdue : (t.now - t.fio.toff[k]) % (t.fld 0xA001C 0 6 * 20000) = 0)
  (hq : q = t.setFio { t.fio with volt := t.fio.volt.set k mv, temp := t.fio.temp.set k temp })
include hoff hawake hperiod hsince hdue hq

/-- A check that is due of an output that is off: the voltage tells backfeed, an open load or neither (R438). -/
theorem exec_outputDiagCheck_due : exec (.outputDiagCheck dt k mv temp) s =
    if 12000 < mv then
      if t.fio.latched.getLsbD k.val then .next q else .next ((q.latchOut k 0).post 0x0A01 k.val)
    else if mv < 2000 then
      .next (q.setFio { q.fio with openLoad := q.fio.openLoad &&& ~~~(BitVec.ofNat 32 (2 ^ k.val)) })
    else if bitAt (t.reg 0xA0110) k.val && !t.fio.openLoad.getLsbD k.val then
      .next ((q.setFio { q.fio with openLoad := q.fio.openLoad ||| BitVec.ofNat 32 (2 ^ k.val) }).post 0x0A02 k.val)
    else .next q := by
  have hchecked : (t.fio.on.getLsbD k.val || decide (t.pwr.mode = .sleep) || decide (t.fld 0xA001C 0 6 * 20000 = 0) ||
      decide (t.now ≤ t.fio.toff[k]) || decide ((t.now - t.fio.toff[k]) % (t.fld 0xA001C 0 6 * 20000) ≠ 0)) = false := by
    have hlen : t.fld 0xA001C 0 6 * 20000 ≠ 0 := by omega
    simp only [hoff, hdue, decide_eq_false hawake, decide_eq_false hlen, decide_eq_false (Nat.not_le.2 hsince), ne_eq,
      not_true_eq_false, decide_false, Bool.or_self]
  subst hq
  show execOutputDiagCheck dt k mv temp s = _
  simp only [execOutputDiagCheck, ← ht, hreset, hchecked, Bool.false_eq_true, if_false]
  rfl

end Off

variable (hon : t.fio.on.getLsbD k.val = true) (hawake : t.pwr.mode ≠ .sleep)
include hon hawake

/-- An output on and at its current limit for OVLTIME is latched (R438). -/
theorem exec_overload_due {since : Postmark} (hafter : t.fio.ton[k] ≤ since) (hdue : t.now = since + t.fld 0xA001C 8 8 * 80000) :
    exec (.overload dt ⟨k, since⟩) s = .next ((t.latchOut k 1).post 0x0A03 (k.val + 0x100)) := by
  show execOverload dt ⟨k, since⟩ s = _
  simp only [execOverload, ← ht, hreset, hon, hawake, hafter, ← hdue, decide_true, ne_eq, not_false_eq_true, Bool.and_self,
    Bool.false_eq_true, if_false, if_true]

/-- A driver above 160 °C latches its output (R438). -/
theorem exec_driverOvertemp_hot {temp : Int} (hhot : 160 < temp) : exec (.driverOvertemp dt k temp) s =
    .next (((t.setFio { t.fio with temp := t.fio.temp.set k temp }).latchOut k 2).post 0x0A03 (k.val + 0x200)) := by
  have hacts : ((t.setFio { t.fio with temp := t.fio.temp.set k temp }).fio.on.getLsbD k.val &&
      decide ((t.setFio { t.fio with temp := t.fio.temp.set k temp }).pwr.mode ≠ .sleep) && decide (160 < temp)) = true := by
    simp only [State.setFio_fio, State.setFio_pwr, hon, hawake, hhot, ne_eq, not_false_eq_true, decide_true, Bool.and_self]
  show execDriverOvertemp dt k temp s = _
  simp only [execDriverOvertemp, ← ht, hreset, if_pos hacts, Bool.false_eq_true, if_false]

end Diagnostics

/-- A group current above 4 A latches the channel of the highest current after every GRPTIME (R438). -/
theorem exec_groupOvercurrent_due {b : Bool} {since : Postmark} {n : Nat} {k : Fin 32} (hawake : t.pwr.mode ≠ .sleep)
    (hn : n = t.fld 0xA001C 16 8 * 800000) (hpos : 0 < n) (hsince : since < t.now) (hdue : (t.now - since) % n = 0)
    (hk : t.heaviest b = some k) (hhigh : 4000 < (if b then t.fio.groupB else t.fio.groupA)) :
    exec (.groupOvercurrent dt ⟨b, since⟩) s = .next ((t.latchOut k 3).post 0x0A03 (k.val + 0x300)) := by
  have hacts : ¬ (t.pwr.mode = .sleep ∨ n = 0 ∨ t.now ≤ since ∨ (t.now - since) % n ≠ 0) := by
    rintro (h | h | h | h)
    · exact hawake h
    · exact Nat.ne_of_gt hpos h
    · exact Nat.not_le.2 hsince h
    · exact h hdue
  show execGroupOvercurrent dt ⟨b, since⟩ s = _
  simp only [execGroupOvercurrent, ← ht, hreset, ← hn, if_neg hacts, hk, if_pos hhigh, Bool.false_eq_true, if_false]

section Supply

variable {mv : Nat} {q : State} (hq : q = t.setFio { t.fio with
    vfield := mv, low := t.fio.low.step 19000 20000 mv, shedT := t.fio.shedT.step 16500 17500 mv,
    input := t.fio.input.step 15000 16000 mv, restAt := t.restFrom mv })
  (hlow : q.fio.low.entered = t.fio.low.entered) (hshed : q.fio.shedT.entered = t.fio.shedT.entered)
include hq hlow hshed

/-- A VFIELD sample that crosses no threshold is counted against all three (R440). -/
theorem exec_vfieldSample_steady (hinput : q.fio.input.entered = t.fio.input.entered) :
    exec (.vfieldSample dt mv) s = .next q := by
  subst hq
  simp only [State.setFio_fio] at hlow hshed hinput
  show execVfieldSample dt mv s = _
  simp only [execVfieldSample, ← ht, hreset, hlow, hshed, hinput, Bool.and_not_self, Bool.not_and_self, Bool.false_eq_true, if_false]

/-- A VFIELD sample that enters the input threshold alone makes the inputs invalid and posts 0x0A06 (R429, R440, R447). -/
theorem exec_vfieldSample_inputEntered (hin : q.fio.input.entered = true) (hout : t.fio.input.entered = false) :
    exec (.vfieldSample dt mv) s =
      .next ((q.setFio { (q.fio.discard q.now).invalidate with invalidPosted := true }).post 0x0A06 mv) := by
  subst hq
  simp only [State.setFio_fio] at hlow hshed hin
  show execVfieldSample dt mv s = _
  simp only [execVfieldSample, ← ht, hreset, hlow, hshed, hin, hout, Bool.and_not_self, Bool.not_and_self, Bool.not_false,
    Bool.and_self, Bool.false_eq_true, if_false, if_true]

end Supply

/-- The next step of the shedding sequence is taken at its instant (R442). -/
theorem exec_fieldShed_due {at' : Postmark} {g : Nat} (hnext : t.fio.shedNext = some (g, at'))
    (hentered : t.fio.shedT.entered = true) (hdue : at' = t.now) : exec (.fieldShed dt) s = .next (t.shedOne g) := by
  show execFieldShed dt s = _
  simp only [execFieldShed, ← ht, hreset, hnext, if_pos (And.intro hentered hdue), Bool.false_eq_true, if_false]

/-- A group that VFIELD shed is restored RESTTIME after VFIELD came back (R443). -/
theorem exec_fieldRestored_due {at' : Postmark} {g : Nat} (hfrom : t.fio.restAt = some at') (hdue : at' ≤ t.now)
    (hleft : t.fio.shedT.entered = false) (hgroup : t.autoGroup t.fieldOnly = some g) : exec (.fieldRestored dt) s =
      .next ((t.setFio { t.fio with restAt := some (t.now + t.fld 0xA0130 16 8 * 800000) }).restoreGroup g) := by
  show execFieldRestored dt s = _
  simp only [execFieldRestored, ← ht, hreset, hleft, hfrom, decide_eq_true hdue, hgroup, Bool.false_eq_true, if_false, if_true]

end FieldEvents

/-- Settles O26: one lemma for each event and outcome. -/
theorem fieldEventsComplete : Obligations.FieldEventsComplete := by
  refine ⟨?frame, ?fault, ?sample, ?edge, ?gate, ?diag, ?hot, ?group, ?steady, ?entered, ?shed, ?restored⟩
  case frame =>
    exact fun dt x s t ht hreset hawake => ⟨exec_fieldLinkFrame_bad ht hreset hawake,
      fun u => exec_fieldLinkFrame_out ht hreset hawake, exec_fieldLinkFrame_in ht hreset hawake⟩
  case fault => exact fun dt s t ht hreset hfrom hto hlinked hawake => exec_fieldLinkFault_due ht hreset hawake hfrom hto hlinked
  case sample =>
    exact fun dt bank mv s t ht hreset hfield => ⟨Vector.ofFn (t.windowInput bank mv), _, rfl,
      exec_inputSample_window ht hreset hfield rfl, fun k => Vector.getElem_ofFn k.isLt⟩
  case edge => exact fun dt i high s t x img u ht hreset => exec_counterEdge_stable ht hreset
  case gate => exact fun dt i s t ht hreset => exec_counterGateEnd_due ht hreset
  case diag =>
    intro dt k mv temp s t q ht hreset hoff hawake hperiod hsince hdue hq
    rw [exec_outputDiagCheck_due ht hreset hoff hawake hperiod hsince hdue hq]
    refine ⟨fun hback hfree => ?backfeed, fun hlo hhi htest hnew => ?openLoad, fun hnone => ?none⟩
    case backfeed => rw [if_pos hback, if_neg (Bool.eq_false_iff.1 hfree)]
    case openLoad => rw [if_neg (by omega), if_neg (by omega), if_pos (by rw [htest, hnew]; rfl)]
    case none => rw [if_neg (by omega), if_pos hnone]
  case hot =>
    exact fun dt k s t ht hreset hon hawake =>
      ⟨fun since => exec_overload_due ht hreset hon hawake, fun temp => exec_driverOvertemp_hot ht hreset hon hawake⟩
  case group => exact fun dt b since n s t k ht hreset => exec_groupOvercurrent_due ht hreset
  case steady => exact fun dt mv s t q ht hreset => exec_vfieldSample_steady ht hreset
  case entered => exact fun dt mv s t q ht hreset => exec_vfieldSample_inputEntered ht hreset
  case shed => exact fun dt s t at' g ht hreset => exec_fieldShed_due ht hreset
  case restored => exact fun dt s t at' g ht hreset => exec_fieldRestored_due ht hreset

end Sys2Proof.Machine

/-! ### Every step keeps memory canonical and the event ring in its shape (R44, R45, R54, R524)

Memory changes by bytes put, words corrected, cleared or marked, and the ring by posts, reads and its counts: these operations are
shown to keep `State.sound`. Every other operation of the model is a composition of them with changes that leave both. -/

namespace Sys2Proof.Machine

/-- Memory is in its canonical form and the event ring in its shape. -/
def Sound (s : State) : Prop := s.sound = true

section Base

variable {s t : State}

theorem sound_iff : Sound s ↔ s.mem.wf = true ∧ s.ev.wf = true := Bool.and_eq_true_iff

/-- What leaves memory and the event ring keeps a state sound. -/
theorem Sound.kept (h : Sound s) (hkept : (t.mem, t.ev) = (s.mem, s.ev)) : Sound t := by
  obtain ⟨hmem, hev⟩ := Prod.ext_iff.1 hkept
  rw [sound_iff, show t.mem = s.mem from hmem, show t.ev = s.ev from hev]
  exact sound_iff.1 h

/-- What leaves the event ring and keeps memory canonical keeps a state sound. -/
theorem Sound.memory (h : Sound s) (hev : t.ev = s.ev) (hmem : s.mem.wf = true → t.mem.wf = true) : Sound t := by
  obtain ⟨hm, he⟩ := sound_iff.1 h
  exact sound_iff.2 ⟨hmem hm, hev ▸ he⟩

/-- What leaves memory and keeps the shape of the event ring keeps a state sound. -/
theorem Sound.ring (h : Sound s) (hmem : t.mem = s.mem) (hev : s.ev.wf = true → t.ev.wf = true) : Sound t := by
  obtain ⟨hm, he⟩ := sound_iff.1 h
  exact sound_iff.2 ⟨hmem ▸ hm, hev he⟩

/-- A state with the memory and the event ring of reset is sound. -/
theorem Sound.of_reset (hreset : (t.mem, t.ev) = (State.reset.mem, State.reset.ev)) : Sound t :=
  Sound.kept resetStateSound.1 hreset

theorem Sound.ite {c : Prop} {_ : Decidable c} (hs : Sound s) (ht : Sound t) : Sound (if c then s else t) := by
  split <;> assumption

/-- Either of two results with their states. -/
theorem Sound.iteSnd {α : Type} {c : Prop} {_ : Decidable c} {x y : α × State} (hx : Sound x.2) (hy : Sound y.2) :
    Sound (if c then x else y).2 := by
  split <;> assumption

/-- Either of two results with their states in front. -/
theorem Sound.iteFst {α : Type} {c : Prop} {_ : Decidable c} {x y : State × α} (hx : Sound x.1) (hy : Sound y.1) :
    Sound (if c then x else y).1 := by
  split <;> assumption

theorem Sound.foldl {α : Type} {f : State → α → State} {l : List α} (h : Sound s) (hf : ∀ {s a}, Sound s → Sound (f s a)) :
    Sound (l.foldl f s) := by
  induction l generalizing s with
  | nil => exact h
  | cons a l ih => exact ih (hf h)

/-- A fold over states beside a result. -/
theorem Sound.foldlFst {α β : Type} {f : State × β → α → State × β} {l : List α} {r : State × β} (h : Sound r.1)
    (hf : ∀ {r a}, Sound r.1 → Sound (f r a).1) : Sound (l.foldl f r).1 := by
  induction l generalizing r with
  | nil => exact h
  | cons a l ih => exact ih (hf h)

/-- A fold over results beside a state. -/
theorem Sound.foldlSnd {α β : Type} {f : β × State → α → β × State} {l : List α} {r : β × State} (h : Sound r.2)
    (hf : ∀ {r a}, Sound r.2 → Sound (f r a).2) : Sound (l.foldl f r).2 := by
  induction l generalizing r with
  | nil => exact h
  | cons a l ih => exact ih (hf h)

/-- Whatever state an outcome leads to is sound. -/
def SoundNext (o : Host.Outcome State Fault Refusal) : Prop := ∀ t, o = .next t → Sound t

theorem Sound.next (h : Sound s) : SoundNext (.next s) := fun _ ht => Host.Outcome.next.inj ht ▸ h

theorem SoundNext.ite {c : Prop} {_ : Decidable c} {o o' : Host.Outcome State Fault Refusal} (h : SoundNext o)
    (h' : SoundNext o') : SoundNext (if c then o else o') := by
  split <;> assumption

/-- Whatever state a register write leaves, if it is one, is sound. -/
def SoundWrite (o : Option WriteRes) : Prop := ∀ r, o = some r → Sound r.2

theorem Sound.written {r : WriteRes} (h : Sound r.2) : SoundWrite (some r) := fun _ hr => Option.some.inj hr ▸ h

theorem SoundWrite.none : SoundWrite none := fun _ hr => nomatch hr

theorem SoundWrite.ite {c : Prop} {_ : Decidable c} {o o' : Option WriteRes} (h : SoundWrite o) (h' : SoundWrite o') :
    SoundWrite (if c then o else o') := by
  split <;> assumption

end Base

end Sys2Proof.Machine

/-! ### The operations of the blocks, their handlers and events

One lemma per operation, in the order of the model: it names the operation, and its proof the steps the operation makes. -/

namespace Sys2Proof.Machine

section Operations

variable {s : State}

/-! #### The operations shared by the blocks -/

theorem Sound.advance {dt : Nat} (h : Sound s) : Sound (s.advance dt) := h.kept (by rfl)

theorem Sound.noteWake {src : Nat} (h : Sound s) : Sound (s.noteWake src) := .ite h (h.kept (by rfl))

theorem Sound.noteIf {b : Bool} {src : Nat} (h : Sound s) : Sound (s.noteIf b src) := .ite h.noteWake h

theorem Sound.freeWord (h : Sound s) : Sound s.freeWord.2 := h.kept (by rfl)

theorem Sound.freeUpTo {n : Nat} (h : Sound s) : Sound (s.freeUpTo n).2 := h.kept (by rfl)

theorem Sound.postAt {pm : Postmark} {code d : Nat} (h : Sound s) : Sound (s.postAt pm code d) :=
  h.ring (by rfl) (EvSt.post_wf pm code (word d))

theorem Sound.post {code d : Nat} (h : Sound s) : Sound (s.post code d) := h.postAt

theorem Sound.putCell {a : Nat} {b : Byte} (h : Sound s) : Sound (s.putCell a b) := h.memory (by rfl) (putCell_wf a b)

theorem Sound.putCells {a : Nat} {l : List Byte} (h : Sound s) : Sound (s.putCells a l) := by
  induction l generalizing a s with
  | nil => exact h
  | cons b l ih => exact ih h.putCell

theorem Sound.eccCorrect {w : Nat} (h : Sound s) : Sound (s.eccCorrect w) :=
  sound_iff.2 ⟨eccCorrect_wf w (sound_iff.1 h).1, (sound_iff.1 h.post).2⟩

theorem Sound.eccFound {w : Nat} (h : Sound s) : Sound (s.eccFound w) := (h.kept (by rfl)).post

theorem Sound.eccRead {a n : Nat} (h : Sound s) : Sound (s.eccRead a n).2 := by
  have hfold : Sound ((s.mem.soft.filter (touches a n)).foldl (fun s w => s.eccCorrect w) s) := h.foldl fun h => h.eccCorrect
  simp only [State.eccRead]
  split
  · exact hfold
  · exact hfold.eccFound

theorem Sound.eccClear {a n : Nat} (h : Sound s) : Sound (s.eccClear a n) := h.memory (by rfl) (eccClear_wf a n)

theorem Sound.storeBytes {a : Nat} {bs : List Byte} (h : Sound s) : Sound (s.storeBytes a bs) := h.putCells.eccClear

theorem Sound.storePart {a : Nat} {bs : List Byte} {w : Nat} (h : Sound s) : Sound (s.storePart a bs w) :=
  .ite h.storeBytes (.ite h.eccRead h.eccRead.storeBytes)

theorem Sound.storeMerged {a : Nat} {bs : List Byte} (h : Sound s) : Sound (s.storeMerged a bs) :=
  h.foldl fun h => h.storePart

/-- A word marked uncorrectable leaves memory canonical (R37, R38). -/
theorem putHard_wf (w : Nat) (h : s.mem.wf = true) : (s.putHard w).mem.wf = true := by
  unfold State.putHard
  split
  · simp only [MemSt.wf, Bool.and_eq_true] at h ⊢
    obtain ⟨⟨⟨hcells, hsoft⟩, hhard⟩, huncorr⟩ := h
    exact ⟨⟨⟨hcells, rising_filter _ hsoft⟩, rising_insertUp w hhard⟩, huncorr⟩
  · exact h

theorem Sound.putHard {w : Nat} (h : Sound s) : Sound (s.putHard w) :=
  h.memory (by unfold State.putHard; split <;> rfl) (putHard_wf w)

theorem Sound.memUncorr {w : Nat} (h : Sound s) : Sound (s.memUncorr w) := h.memory (by rfl) (memUncorr_wf w)

theorem Sound.deadLetter {port : Fin 6} {st : Nat} (h : Sound s) : Sound (s.deadLetter port st) := (h.kept (by rfl)).post

theorem Sound.sendReceipt {port : Fin 6} {src : Addr} {r : Receipt} (h : Sound s) : Sound (s.sendReceipt port src r) := by
  unfold State.sendReceipt
  split
  · exact h.kept (by rfl)
  · exact h.kept (by rfl)
  · exact h
  · exact h.kept (by rfl)

theorem Sound.portSent {port : Fin 6} (h : Sound s) : Sound (s.portSent port) := by
  simp only [State.portSent]
  split
  · exact h.kept (by rfl)
  · exact h.kept (by rfl)
  · exact h

theorem Sound.finish {f : Finished} (h : Sound s) : Sound (s.finish f) := h.kept (by rfl)

theorem Sound.journal {kind : Nat} {st : Status} {detail : Nat} {pm : Postmark} {hdr ctl : List Byte} {further : Word}
    (h : Sound s) : Sound (s.journal kind st detail pm hdr ctl further) :=
  (h.kept (by rfl)).eccClear

theorem Sound.sessionDone {port : Fin 6} {op16 : Nat} (h : Sound s) : Sound (s.sessionDone port op16) := by
  unfold State.sessionDone
  split
  · exact .ite (h.kept (by rfl)) h
  · exact h

theorem Sound.finalReceipt {d : Deferred} (h : Sound s) : Sound (s.finalReceipt d) :=
  .ite (Sound.ite h h.sendReceipt.journal).finish.sessionDone (Sound.ite h h.sendReceipt.journal).finish

theorem Sound.completeIf {mine : Outst → Bool} {pm : Postmark} {st : Status} {detail further : Nat} (h : Sound s) :
    Sound (s.completeIf mine pm st detail further) :=
  (h.kept (by rfl)).foldl fun h => .ite h.finalReceipt (h.kept (by rfl))

theorem Sound.completeAt {pm : Postmark} {a : Action} {st : Status} {detail further : Nat} (h : Sound s) :
    Sound (s.completeAt pm a st detail further) :=
  h.completeIf

theorem Sound.complete {a : Action} {st : Status} {detail further : Nat} (h : Sound s) :
    Sound (s.complete a st detail further) :=
  h.completeAt

theorem Sound.flushDeferred (h : Sound s) : Sound s.flushDeferred := h.foldl fun h => .ite (h.kept (by rfl)).finalReceipt h

/-! #### Registers -/

theorem Sound.setReg {a v : Nat} (h : Sound s) : Sound (s.setReg a v) := h.kept (by rfl)

theorem Sound.setFld {a lo len v : Nat} (h : Sound s) : Sound (s.setFld a lo len v) := h.setReg

theorem Sound.setPair {a : Nat} {v : Int} (h : Sound s) : Sound (s.setPair a v) := h.kept (by rfl)

/-! #### The link and the session keys -/

theorem Sound.moveSource {c : Nat} {d : Int} (h : Sound s) : Sound (s.moveSource c d) := h.kept (by rfl)

theorem Sound.setRamp {u : Fin 4} {r : RampSt} (h : Sound s) : Sound (s.setRamp u r) := h.kept (by rfl)

/-! #### Letters and receipts -/

theorem Sound.tagFailure {port : Fin 6} (h : Sound s) : Sound (s.tagFailure port) := (h.kept (by rfl)).post

/-- The state in which the check of a privileged letter ends, passed or not. -/
def privEnd : Except (Status × Nat × State) State → State
  | .error e => e.2.2
  | .ok t => t

theorem Sound.privCheck {opc k : Nat} {l : Letter} (h : Sound s) : Sound (privEnd (s.privCheck opc k l)) := by
  unfold State.privCheck
  split
  · exact h
  split
  · exact h
  split
  · exact h
  split
  · exact h
  split
  · exact h.tagFailure
  · exact h.kept (by rfl)

theorem Sound.answer {opc k : Nat} {l : Letter} {gap : Bool} {st : Status} {detail : Nat} {further : Word} {tail : List Byte}
    (h : Sound s) : Sound (s.answer opc k l gap st detail further tail) := by
  unfold State.answer
  extract_lets +onlyGivenNames _ t _ u v w
  have ht : Sound t := .ite h h.journal
  have hu : Sound u := .ite ht ht.sendReceipt
  have hv : Sound v := .ite hu hu.finish
  have hw : Sound w := .ite hv.deadLetter hv
  exact .ite hw.sessionDone hw

theorem Sound.keepLetter {opc : Nat} {p : List Byte} (h : Sound s) : Sound (s.keepLetter opc p) := by
  unfold State.keepLetter
  split
  · exact h.kept (by rfl)
  · exact h

theorem Sound.abortLater {opc k : Nat} {l : Letter} {refusal : Option (Status × Nat)} (h : Sound s) :
    Sound (s.abortLater opc k l refusal) :=
  (h.kept (by rfl)).journal

theorem Sound.turnAway {opc k : Nat} {l : Letter} {gap : Bool} {st : Status} {detail : Nat} (h : Sound s) :
    Sound (s.turnAway opc k l gap st detail) :=
  .ite h.abortLater h.answer

theorem Sound.reply {opc k : Nat} {l : Letter} {gap : Bool} {r : Reply} (h : Sound s) : Sound (s.reply opc k l gap r) := by
  simp only [State.reply]
  split
  · exact h.answer
  · exact h.answer
  · exact h.answer.kept (by rfl)
  · exact h.answer.finalReceipt
  · exact h.abortLater

theorem Sound.enqueue {q : Queued} (h : Sound s) : Sound (s.enqueue q) :=
  .ite (h.kept (by rfl)).noteWake.post (h.kept (by rfl)).noteWake

theorem Sound.admitFrom {l : List Queued} (h : Sound s) : Sound (State.admitFrom l s) := by
  induction l generalizing s with
  | nil => exact h.kept (by rfl)
  | cons q l ih =>
    rw [State.admitFrom]
    split
    · exact ih h.enqueue
    · exact h.kept (by rfl)

theorem Sound.admitHeld (h : Sound s) : Sound s.admitHeld := h.admitFrom

theorem Sound.post5 {opc cls : Nat} {payload : List Byte} (h : Sound s) : Sound (s.post5 opc cls payload) :=
  (h.kept (by rfl)).admitHeld

theorem Sound.boxRefuse {port : Fin 6} {src : Addr} {op16 : Nat} {seq : BitVec 16} {st : Status} {detail : Nat}
    (h : Sound s) : Sound (s.boxRefuse port src op16 seq st detail) :=
  (Sound.ite h.sendReceipt.finish h).deadLetter

/-- The state in which the checks of a letter end, passed or not. -/
def gateEnd : Except State State → State
  | .error t => t
  | .ok t => t

theorem Sound.iteGate {c : Prop} {_ : Decidable c} {e : Except State State} (h : Sound s) (he : Sound (gateEnd e)) :
    Sound (gateEnd (if c then .error s else e)) := by
  split <;> assumption

theorem Sound.gate {opc : Nat} {i : OpInfo} {f : Handler} {l : Letter} {gap : Bool} (h : Sound s) :
    Sound (gateEnd (s.gate opc i f l gap)) := by
  have hpriv : Sound (privEnd (s.privCheck opc i.ctl l)) := h.privCheck
  unfold State.gate
  refine .iteGate h.boxRefuse (.iteGate h.boxRefuse (.iteGate h.turnAway ?_))
  split
  · next heq =>
    rw [heq] at hpriv
    have ht := hpriv
    exact Sound.turnAway ht
  · next t heq =>
    rw [heq] at hpriv
    have ht : Sound t := hpriv
    refine .iteGate ht.answer ?_
    cases f.bad t l with
    | some o =>
      dsimp only [gateEnd]
      exact ht.answer
    | none => exact .iteGate ht.answer ht

theorem Sound.conclude {opc : Nat} {i : OpInfo} {f : Handler} {l : Letter} {gap : Bool} (h : Sound s)
    (hrun : Sound (f.run l s).2) : Sound (s.conclude opc i f l gap) := by
  unfold State.conclude
  extract_lets r
  split
  · exact (Sound.ite hrun h).answer
  · exact hrun.keepLetter.reply

theorem Sound.taken {opc : Nat} {l q : Letter} {gap : Bool} {t : State} (h : Sound s)
    (htaken : s.taken opc l = some (q, gap, t)) : Sound t := by
  unfold State.taken at htaken
  (repeat' split at htaken) <;> cases htaken
  exact (h.kept (by rfl)).admitHeld

/-- Serving a letter keeps a state sound if its handler does. -/
theorem Sound.serve {opc : Nat} {f : Handler} {l : Letter} (h : Sound s)
    (hrun : ∀ {q t}, Sound t → Sound (f.run q t).2) : Sound (s.serve opc f l) := by
  unfold State.serve
  extract_lets t
  have ht : Sound t := h.advance
  split
  · next i q gap u _ htaken =>
    have hgate : Sound (gateEnd (u.gate opc i f q gap)) := (ht.taken htaken).gate
    split <;> rename_i heq <;> rw [heq] at hgate
    · exact hgate
    · exact Sound.conclude hgate (hrun hgate)
  · exact ht

/-! #### CAN -/

theorem Sound.setCan {c : Fin 3} {q : CanSt} (h : Sound s) : Sound (s.setCan c q) := h.kept (by rfl)

theorem Sound.endTx {c : Fin 3} {p : CanPend} {st : Status} {detail further : Nat} (h : Sound s) :
    Sound (s.endTx c p st detail further) :=
  .ite h h.complete

theorem Sound.cancelPend {c : Fin 3} {ps : List CanPend} {detail : Nat} {counts : Bool} (h : Sound s) :
    Sound (s.cancelPend c ps detail counts) :=
  h.setCan.foldl fun h => h.endTx

theorem Sound.canState {c : Fin 3} {m : Nat} (h : Sound s) : Sound (s.canState c m) := (Sound.ite h.cancelPend h).setCan

theorem canModeHandler_sound {q : Letter} {t : State} (h : Sound t) : Sound (canModeHandler.run q t).2 :=
  .iteSnd h h.canState

theorem canFilterHandler_sound {q : Letter} {t : State} (h : Sound t) : Sound (canFilterHandler.run q t).2 :=
  .iteSnd h (.iteSnd h h.setCan)

theorem canTxHandler_sound {q : Letter} {t : State} (h : Sound t) : Sound (canTxHandler.run q t).2 :=
  .iteSnd h (.iteSnd h (.iteSnd h (.iteSnd h h.setCan)))

theorem Sound.cancelTx {c : Fin 3} {b : Fin 256} (h : Sound s) : Sound (s.cancelTx c b).2 :=
  .iteSnd h.setCan.post h.setCan.complete

theorem canCancelHandler_sound {q : Letter} {t : State} (h : Sound t) : Sound (canCancelHandler.run q t).2 :=
  .iteSnd h (.iteSnd h h.cancelTx)

theorem Sound.abortTx {c : Fin 3} {b : Fin 256} (h : Sound s) : Sound (s.abortTx c b).2 := .iteSnd h.setCan.post h.setCan

theorem canReadHandler_sound {q : Letter} {t : State} (h : Sound t) : Sound (canReadHandler.run q t).2 := by
  unfold canReadHandler handler
  dsimp -zeta only
  extract_lets +onlyGivenNames _ _ _
  refine .iteSnd h (.iteSnd (.ite h.setCan h) ?_)
  extract_lets +onlyGivenNames _
  split
  · exact h
  · exact h.setCan

theorem Sound.lockWrite {c : Fin 3} {w v : Nat} (h : Sound s) : Sound (s.lockWrite c w v) := h.setCan

theorem Sound.groupDiscard (h : Sound s) : Sound s.groupDiscard := h.kept (by rfl)

theorem Sound.rxOverrun {c : Fin 3} {detail : Nat} (h : Sound s) : Sound (s.rxOverrun c detail) := h.setCan.post

theorem Sound.rejectFrame {c : Fin 3} (h : Sound s) : Sound (s.rejectFrame c) := h.setCan

theorem Sound.storeBuf {c : Fin 3} {b : Nat} {r : CanRec} (h : Sound s) : Sound (s.storeBuf c b r) := by
  simp only [State.storeBuf]
  refine .ite ?_ (.ite h.setCan.rxOverrun h.setCan)
  split
  · exact h.setCan
  · exact h.setCan.rxOverrun

theorem Sound.storeFifo {c : Fin 3} {f : Nat} {r : CanRec} (h : Sound s) : Sound (s.storeFifo c f r) := by
  simp only [State.storeFifo]
  split
  · exact h.rejectFrame
  · exact .ite h.setCan.rxOverrun (.ite h.setCan.rxOverrun h.setCan)

theorem Sound.filterFrame {c : Fin 3} {f : CanFrame} {pm : Postmark} (h : Sound s) : Sound (s.filterFrame c f pm) := by
  unfold State.filterFrame
  extract_lets +onlyGivenNames _ _ _
  split
  · split
    · exact h.storeFifo
    · exact h.storeFifo
    · exact h.rejectFrame
  · extract_lets +onlyGivenNames _ _
    split
    · exact h.storeFifo
    · exact h.storeFifo
    · exact .ite h.storeBuf h.rejectFrame
    · exact h.rejectFrame

theorem Sound.canBusIn {c : Fin 3} {n : Nat × Nat} {seen : BitVec 13} (h : Sound s) : Sound (s.canBusIn c n seen) := by
  simp only [State.canBusIn]
  refine .ite h.setCan ?_
  split
  · exact .ite h.setCan.post h.setCan
  · exact h.setCan
  · exact h.setCan

theorem Sound.wakeRx {c : Fin 3} {f : CanFrame} {ok : Bool} (h : Sound s) : Sound (s.wakeRx c f ok) := .ite h h.setCan.noteIf

theorem Sound.fdForeign {c : Fin 3} {x : BusIn} (h : Sound s) : Sound (s.fdForeign c x) := .ite h.setCan h.canBusIn

theorem execCanFrameRx_sound {dt : Nat} {c : Fin 3} {f : CanFrame} {ok : Bool} {age : Nat} {x : BusIn} (h : Sound s) :
    SoundNext (execCanFrameRx dt c f ok age x s) := by
  simp only [execCanFrameRx]
  refine .ite h.advance.next (.ite h.advance.wakeRx.next ?_)
  refine .ite h.advance.next (.ite h.advance.fdForeign.next (.ite h.advance.canBusIn.next ?_))
  refine .ite (Sound.ite h.advance.canBusIn.groupDiscard h.advance.canBusIn).next ?_
  exact (Sound.ite h.advance.canBusIn.groupDiscard h.advance.canBusIn).filterFrame.next

theorem execCanTxChoice_sound {dt : Nat} {c : Fin 3} (h : Sound s) : SoundNext (execCanTxChoice dt c s) := by
  simp only [execCanTxChoice]
  refine .ite h.advance.next (.ite h.advance.next ?_)
  split
  · exact h.advance.next
  · exact h.advance.setCan.next

theorem Sound.twinPost {c : Fin 3} {b : Fin 256} (h : Sound s) : Sound (s.twinPost c b) := h.setCan.post

theorem execCanTxEnd_sound {dt : Nat} {c : Fin 3} {r : TxEnd} {x : BusIn} (h : Sound s) :
    SoundNext (execCanTxEnd dt c r x s) := by
  simp only [execCanTxEnd]
  refine .ite h.advance.next ?_
  split
  · exact h.advance.next
  split
  · exact h.advance.canBusIn.setCan.next
  refine .ite h.advance.canBusIn.setCan.endTx.next ?_
  refine .ite ?_ h.advance.canBusIn.setCan.next
  refine .ite (Sound.ite h.advance.canBusIn.setCan.twinPost h.advance.canBusIn.setCan).endTx.next ?_
  exact (Sound.ite h.advance.canBusIn.setCan.twinPost h.advance.canBusIn.setCan).endTx.next

theorem execTwin_sound {dt : Nat} {c : Fin 3} {b : Fin 256} (h : Sound s) : SoundNext (execTwin dt c b s) := by
  simp only [execTwin]
  refine .ite h.advance.next ?_
  split
  · exact (Sound.ite h.advance.twinPost h.advance).next
  exact .ite h.advance.next (.ite h.advance.twinPost.setCan.endTx.next h.advance.twinPost.setCan.next)

theorem execBusOff_sound {dt : Nat} {c : Fin 3} {x : BusIn} (h : Sound s) : SoundNext (execBusOff dt c x s) :=
  .ite h.advance.next (.ite h.advance.next h.advance.setCan.post.cancelPend.next)

theorem execBusOffRecoveryStart_sound {dt : Nat} {c : Fin 3} (h : Sound s) : SoundNext (execBusOffRecoveryStart dt c s) :=
  .ite h.advance.next (.ite h.advance.setCan.next h.advance.next)

theorem execBusRecovered_sound {dt : Nat} {c : Fin 3} {seqs : Nat} (h : Sound s) :
    SoundNext (execBusRecovered dt c seqs s) :=
  .ite h.advance.next (.ite h.advance.next h.advance.setCan.post.next)

theorem execCanIntegrationDone_sound {dt : Nat} {c : Fin 3} (h : Sound s) : SoundNext (execCanIntegrationDone dt c s) :=
  .ite h.advance.next h.advance.setCan.next

/-! #### Sensing -/

theorem Sound.histTrim {k : Fin 3} (h : Sound s) : Sound (s.histTrim k) := h.kept (by rfl)

theorem Sound.clearHomed {c : Nat} (h : Sound s) : Sound (s.clearHomed c) := h.kept (by rfl)

theorem Sound.encFault {k : Fin 3} {kind : Nat} (h : Sound s) : Sound (s.encFault k kind) :=
  (h.kept (by rfl)).clearHomed.post

theorem Sound.encFaultNew {k : Fin 3} {kind : Nat} (h : Sound s) : Sound (s.encFaultNew k kind) := .ite h h.encFault

theorem Sound.setCh {k : Fin 3} {q : EncCh} (h : Sound s) : Sound (s.setCh k q) := h.kept (by rfl)

theorem Sound.encCount {k : Fin 3} {t : Nat} {d : Int} (h : Sound s) : Sound (s.encCount k t d) :=
  .ite h (h.kept (by rfl)).setCh

theorem Sound.abStep {k : Fin 3} {x : EncSample} (h : Sound s) : Sound (s.abStep k x) :=
  .ite h.setCh (.ite h.setCh.encCount.encFaultNew h.setCh.encCount)

theorem Sound.sinStep {k : Fin 3} {x : EncSample} (h : Sound s) : Sound (s.sinStep k x) := by
  unfold State.sinStep
  extract_lets +onlyGivenNames _ _ _ _ _ _ _ _ _ _ _ _ t _ u v
  have ht : Sound t := (h.kept (by rfl)).setCh
  have hu : Sound u := .ite ht.encCount.encFaultNew ht.encCount
  have hv : Sound v := .ite hu.encFaultNew hu
  exact .ite hv.encFaultNew hv

theorem Sound.hallSample {k : Fin 3} {x : EncSample} (h : Sound s) : Sound (s.hallSample k x) :=
  .ite h.encFaultNew (.ite h.setCh.encCount.encFaultNew h.setCh.encCount)

theorem Sound.encStep {k : Fin 3} {x : EncSample} (h : Sound s) : Sound (s.encStep k x) := by
  unfold State.encStep
  extract_lets +onlyGivenNames _ t
  have ht : Sound t := .ite (h.kept (by rfl)) h
  split
  · exact ht
  · exact ht.sinStep
  · exact ht.hallSample
  · exact ht.abStep

theorem Sound.encRun {k : Fin 3} {l : List EncSample} (h : Sound s) : Sound (s.encRun k l) := h.foldl fun h => h.encStep

theorem Sound.encLine {k : Fin 3} {ok : Bool} (h : Sound s) : Sound (s.encLine k ok) :=
  .ite (h.kept (by rfl)).encFaultNew (h.kept (by rfl))

theorem Sound.encFaultClear {k : Fin 3} (h : Sound s) : Sound (s.encFaultClear k) :=
  .ite (.ite (h.kept (by rfl)).post (h.kept (by rfl))) h

theorem Sound.encRevive {k : Fin 3} (h : Sound s) : Sound (s.encRevive k) := .ite (h.kept (by rfl)).post h

theorem Sound.encStart {k : Fin 3} (h : Sound s) : Sound (s.encStart k) := h.kept (by rfl)

theorem Sound.encEnable {k : Fin 3} (h : Sound s) : Sound (s.encEnable k) := h.encStart.encRevive

theorem Sound.encDisable {k : Fin 3} (h : Sound s) : Sound (s.encDisable k) := h.kept (by rfl)

theorem Sound.encLatch {k : Fin 3} {x : EncIn} (h : Sound s) : Sound (s.encLatch k x) := by
  unfold State.encLatch
  refine .ite (h.kept (by rfl)) ?_
  extract_lets +onlyGivenNames t _ u _
  have ht : Sound t := h.encRun.encLine.histTrim
  have hu : Sound u := .ite ht.encFault ht
  exact .ite (.ite (hu.kept (by rfl)) (hu.kept (by rfl)).post) (hu.kept (by rfl))

theorem execSsiRead_sound {dt : Nat} {x : SsiIn} (h : Sound s) : SoundNext (execSsiRead dt x s) := by
  simp only [execSsiRead]
  refine .ite h.advance.next (.ite h.advance.next (.ite h.advance.next ?_))
  split
  · exact .ite (h.kept (by rfl)).clearHomed.post.next (h.kept (by rfl)).next
  · exact .ite (h.kept (by rfl)).post.next (h.kept (by rfl)).next

theorem Sound.ssiLatch (h : Sound s) : Sound s.ssiLatch := by
  unfold State.ssiLatch
  extract_lets +onlyGivenNames _ _ t
  have ht : Sound t := .ite h (h.kept (by rfl))
  split
  · exact .ite (ht.kept (by rfl)) (ht.kept (by rfl))
  · exact ht.kept (by rfl)

theorem Sound.carLatch (h : Sound s) : Sound s.carLatch := by
  unfold State.carLatch
  refine .ite (h.kept (by rfl)) ?_
  split
  · exact h.kept (by rfl)
  · exact .ite (h.kept (by rfl)) (h.kept (by rfl))

theorem Sound.tripCheck {k : Fin 3} (h : Sound s) : Sound (s.tripCheck k) := .ite (h.kept (by rfl)).post h

theorem Sound.sdStep {k : Fin 3} {b : Bool} (h : Sound s) : Sound (s.sdStep k b) := by
  unfold State.sdStep
  extract_lets +onlyGivenNames _ _ t
  have ht : Sound t := .ite (h.kept (by rfl)).post (.ite (h.kept (by rfl)).post (h.kept (by rfl)))
  exact .ite ht.tripCheck ht

theorem Sound.sdRun {k : Fin 3} {bits : List Bool} (h : Sound s) : Sound (s.sdRun k bits) :=
  .ite (h.foldl fun h => h.sdStep) h

theorem Sound.sdLatch {k : Fin 3} {bits : List Bool} (h : Sound s) : Sound (s.sdLatch k bits) :=
  .ite (h.sdRun.kept (by rfl)) h.sdRun

theorem Sound.sdSwitch {k : Fin 3} (h : Sound s) : Sound (s.sdSwitch k) := .ite h (h.kept (by rfl))

theorem Sound.adcLatch {k : Fin 16} {conv : List (Fin 4096)} (h : Sound s) : Sound (s.adcLatch k conv) := by
  simp only [State.adcLatch]
  refine .ite h ?_
  split
  · exact h
  · exact .ite (h.kept (by rfl)).post (h.kept (by rfl))

theorem Sound.loadLatch (h : Sound s) : Sound s.loadLatch := by
  simp only [State.loadLatch]
  split
  · exact .ite (h.kept (by rfl)) (h.kept (by rfl))
  · split
    · exact .ite (h.kept (by rfl)) (h.kept (by rfl))
    · exact h.kept (by rfl)
  · exact h.kept (by rfl)

theorem Sound.landLatch (h : Sound s) : Sound s.landLatch := by
  simp only [State.landLatch]
  split
  · exact .ite (h.kept (by rfl)) (h.kept (by rfl))
  · exact h.kept (by rfl)

theorem Sound.cmpLatch (h : Sound s) : Sound s.cmpLatch :=
  .ite (h.kept (by rfl)) (.ite (.ite (h.kept (by rfl)) (h.kept (by rfl))) h)

theorem Sound.senseLatch {x : TickIn} (h : Sound s) : Sound (s.senseLatch x) :=
  (h.encLatch.encLatch.encLatch.ssiLatch.carLatch.sdLatch.sdLatch.sdLatch.foldl fun h =>
    h.adcLatch).loadLatch.landLatch.cmpLatch

theorem execEncAbsAngleSet_sound {dt : Nat} {c d : Int} (h : Sound s) : SoundNext (execEncAbsAngleSet dt c d s) := by
  simp only [execEncAbsAngleSet]
  refine .ite h.advance.next ?_
  exact .ite (.ite h.advance.encFault.next (h.kept (by rfl)).encRevive.next) h.advance.next

theorem execEncZSync_sound {dt : Nat} {k : Fin 3} {enc : List EncSample} (h : Sound s) :
    SoundNext (execEncZSync dt k enc s) := by
  unfold execEncZSync
  extract_lets +onlyGivenNames _
  refine .ite h.advance.next ?_
  extract_lets +onlyGivenNames _
  refine .ite h.advance.next ?_
  extract_lets +onlyGivenNames t _ _ _ u
  have ht : Sound t := h.advance.encRun
  have hu : Sound u := .ite (ht.kept (by rfl)) ht
  refine .ite ?_ hu.next
  split
  · exact (hu.kept (by rfl)).next
  · exact .ite hu.next (.ite hu.next hu.encFaultNew.next)

theorem execSdFault_sound {dt : Nat} {x : SdIn} (h : Sound s) : SoundNext (execSdFault dt x s) :=
  .ite h.advance.next h.advance.sdRun.next

theorem execSdValid_sound {dt : Nat} {x : SdIn} (h : Sound s) : SoundNext (execSdValid dt x s) :=
  .ite h.advance.next h.advance.sdRun.next

theorem execPositionMismatch_sound {dt : Nat} (h : Sound s) : SoundNext (execPositionMismatch dt s) :=
  .ite h.advance.next (.ite (h.kept (by rfl)).post.next h.advance.next)

/-! #### Loop slots -/

theorem Sound.setSlot {i : Fin 16} {q : SlotSt} (h : Sound s) : Sound (s.setSlot i q) := h.kept (by rfl)

theorem Sound.cogging {angle : Nat} (h : Sound s) : Sound (lastState (s.cogging angle)) := by
  unfold State.cogging
  extract_lets a i j e
  split
  · exact h.eccRead
  · split <;> exact h.eccRead.eccRead

theorem Sound.friction {i : Fin 16} (h : Sound s) : Sound (s.friction i).2 := .iteSnd h h.freeWord

theorem Sound.tcf {i : Fin 16} {angle : Nat} (h : Sound s) : Sound (lastState (s.tcf i angle)) := by
  have hcog : Sound (lastState (s.cogging angle)) := h.cogging
  unfold State.tcf
  extract_lets q cog fric
  split
  · exact h
  split <;> rename_i heq
  · split at heq
    · rwa [heq] at hcog
    · cases heq
  · rename_i t
    have ht : Sound t := by
      split at heq
      · rwa [heq] at hcog
      · cases heq; exact h
    exact .iteSnd ht.friction ht

theorem Sound.injection {i : Fin 16} (h : Sound s) : Sound (lastState (s.injection i)) := by
  unfold State.injection
  extract_lets q c m
  split
  · exact h
  extract_lets a e s1 _ s2 s3
  have h2 : Sound s2 := .ite (h.eccRead.kept (by rfl)) h.eccRead
  have h3 : Sound s3 := .ite h2.setSlot.complete h2.setSlot
  split <;> exact h3

theorem Sound.keepOutput {i : Fin 16} {blk : Bool} (h : Sound s) : Sound (s.keepOutput i blk) := h.setSlot.post

theorem Sound.loopOverrun {i : Fin 16} {w : Nat} {blk : Bool} (h : Sound s) : Sound (s.loopOverrun i w blk) :=
  h.memUncorr.keepOutput

theorem Sound.switchMode {i : Fin 16} {rd : Nat → Int} {blk : Bool} (h : Sound s) : Sound (s.switchMode i rd blk) := by
  simp only [State.switchMode]
  split
  · exact h
  exact .ite h.setSlot (.ite h (.ite h.setSlot (.ite (Sound.ite h.complete h).setSlot h.setSlot)))

theorem Sound.coefStep {i : Fin 16} (h : Sound s) : Sound (s.coefStep i).2 := h.setSlot

theorem Sound.lawSample {i : Fin 16} {rd : Nat → Int} {angle : Nat} {blk chg : Bool} {old : List Int}
    (h : Sound s) : Sound (s.lawSample i rd angle blk chg old).1 := by
  unfold State.lawSample
  extract_lets q fs rc g rv fv raw r s1 q1 s2
  have hinj : Sound (lastState (s2.injection i)) := (Sound.ite h.post h).setSlot.injection
  have hlost : Sound (match s2.injection i with | .error (w, u) => u.memUncorr w | .ok (_, u) => u) := by
    split <;> rename_i heq <;> rw [heq] at hinj
    · exact Sound.memUncorr hinj
    · exact hinj
  refine .iteFst hlost.setSlot ?_
  split
  · next heq => rw [heq] at hinj; exact Sound.loopOverrun hinj
  next t heq =>
    rw [heq] at hinj
    have htcf : Sound (lastState (t.tcf i angle)) := Sound.tcf hinj
    split <;> rename_i heq' <;> rw [heq'] at htcf
    · exact Sound.loopOverrun htcf
    · exact Sound.setSlot htcf

theorem Sound.slotCompute {i : Fin 16} {rd : Nat → Int} {angle : Nat} (h : Sound s) :
    Sound (s.slotCompute i rd angle).1 := by
  unfold State.slotCompute
  split
  · exact h
  extract_lets blk s1 old cs s2 blk2 q idle
  have h2 : Sound s2 := h.switchMode.coefStep
  have hinj : Sound (lastState (s2.injection i)) := h2.injection
  split
  · exact h2.setSlot
  · exact .iteFst h2.keepOutput h2.lawSample
  · exact .iteFst h2.keepOutput h2.lawSample
  · split <;> rename_i heq <;> rw [heq] at hinj
    · exact Sound.loopOverrun hinj
    · exact .iteFst (Sound.setSlot hinj) (.iteFst (Sound.setSlot hinj) (Sound.setSlot hinj))

theorem Sound.slotSample {i : Fin 16} {rd : Nat → Int} {angle : Nat} (h : Sound s) : Sound (s.slotSample i rd angle) :=
  h.slotCompute.setSlot

theorem Sound.tickSlots (h : Sound s) : Sound s.tickSlots := (h.kept (by rfl)).foldl fun h => .ite h.slotSample h

/-! #### The loop engine at a tick -/

theorem Sound.loadSet {i : Fin 16} {b : Bool} {region : Nat} (h : Sound s) : Sound (s.loadSet i b region) := by
  simp only [State.loadSet]
  split
  · exact h.eccRead.memUncorr.setSlot
  · exact h.eccRead.setSlot

theorem Sound.loadBanks {bnd : Nat} (h : Sound s) : Sound (s.loadBanks bnd) := by
  unfold State.loadBanks
  extract_lets t
  have ht : Sound t := h.foldl fun h => .ite h.setSlot.loadSet.loadSet h
  clear_value t
  exact ht.kept (by rfl)

theorem Sound.schedTick (h : Sound s) : Sound s.schedTick :=
  .ite h (.ite (h.kept (by rfl)) (.ite (h.kept (by rfl)) (h.kept (by rfl)).loadBanks))

theorem Sound.notchTick (h : Sound s) : Sound s.notchTick := by
  simp only [State.notchTick]
  refine .ite h (.ite h.post ?_)
  split
  · exact h.kept (by rfl)
  · exact h.post

theorem Sound.brakeProfile {b : Fin 2} (h : Sound s) : Sound (s.brakeProfile b) :=
  .ite (h.kept (by rfl)) (.ite (h.kept (by rfl)) h)

theorem Sound.brakePwm {b : Fin 2} (h : Sound s) : Sound (s.brakePwm b) := h.kept (by rfl)

theorem Sound.capStep {clock : Nat} (h : Sound s) : Sound (s.capStep clock) := by
  unfold State.capStep
  split
  · exact h
  refine .ite h ?_
  extract_lets +onlyGivenNames _ _ _ _ _ _ t
  have ht : Sound t := h.kept (by rfl)
  exact .ite (.ite (ht.storeMerged.kept (by rfl)).complete (ht.storeMerged.kept (by rfl))) ht

theorem Sound.loopTick (h : Sound s) : Sound s.loopTick := by
  unfold State.loopTick
  exact h.schedTick.notchTick.brakeProfile.brakeProfile.tickSlots.brakePwm.brakePwm.capStep

theorem execLoopSat_sound {dt : Nat} {i : Fin 16} (h : Sound s) : SoundNext (execLoopSat dt i s) := by
  simp only [execLoopSat]
  refine .ite h.advance.next ?_
  split
  · exact .ite h.advance.setSlot.post.next h.advance.next
  · exact h.advance.next

theorem execBrakePickEnd_sound {dt : Nat} {b : Fin 2} (h : Sound s) : SoundNext (execBrakePickEnd dt b s) :=
  .ite h.advance.next (.ite (h.kept (by rfl)).next h.advance.next)

/-! #### Segments -/

theorem Sound.putLimits {u : Fin 4} {l : Limits} (h : Sound s) : Sound (s.putLimits u l) :=
  h.setReg.setReg.setReg.setReg.setReg

/-! #### Ramp units -/

theorem Sound.untail {u : Fin 4} (h : Sound s) : Sound (s.untail u) := .ite h.setRamp.complete h

theorem Sound.endMove {u : Fin 4} {st : Status} {detail further : Nat} (h : Sound s) :
    Sound (s.endMove u st detail further) :=
  h.setRamp.complete.complete.untail

theorem Sound.stopEnd {u : Fin 4} (h : Sound s) : Sound (s.stopEnd u) := by
  unfold State.stopEnd
  extract_lets +onlyGivenNames _ _ _ _ t
  have ht : Sound t := by
    unfold t
    split
    · split
      · exact h.setRamp.setRamp.endMove
      · exact h.setRamp.setRamp.endMove
      · exact .ite h.setRamp.setRamp.endMove h.setRamp
    · split
      · exact h.setRamp.endMove
      · exact h.setRamp
  exact ht.complete

theorem Sound.orderStop {u : Fin 4} {hard : Bool} {w : StopWhy} (h : Sound s) : Sound (s.orderStop u hard w) := h.setRamp

theorem Sound.planTick {u : Fin 4} {hard : Bool} {ph : List StopPhase} {e : Int} {n : Nat} (h : Sound s) :
    Sound (s.planTick u hard ph e n) := by
  simp only [State.planTick]
  split
  · exact h.setRamp
  · exact h.setRamp.stopEnd

theorem Sound.startPlan {u : Fin 4} {hard : Bool} {l : Limits} {p v a : Int} (h : Sound s) :
    Sound (s.startPlan u hard l p v a) :=
  h.setRamp.untail.planTick

theorem Sound.stepsTick {u : Fin 4} {hard up : Bool} {v num den : Nat} (h : Sound s) :
    Sound (s.stepsTick u hard up v num den) :=
  .ite h.setRamp.stopEnd h.setRamp

theorem Sound.readSeg {u : Fin 4} {x : SegRun} {i : Nat} (h : Sound s) : Sound (s.readSeg u x i) := by
  simp only [State.readSeg]
  split
  · exact h
  split
  · exact h.eccRead.memUncorr.setRamp
  · exact .ite h.eccRead.setRamp h.eccRead.setRamp

theorem Sound.runTick {u : Fin 4} {x : SegRun} {stop : Option Bool} (h : Sound s) : Sound (s.runTick u x stop) := by
  simp only [State.runTick]
  split
  · split
    · exact h.setRamp
    split
    · exact h.setRamp.setRamp.startPlan
    · exact h.setRamp.setRamp
  · split
    · exact .ite h.setRamp.setRamp.endMove.complete h.setRamp.setRamp.startPlan
    · exact h.setRamp.setRamp.stopEnd
    split
    · exact .ite h.setRamp.setRamp.complete.readSeg h.setRamp.readSeg
    · exact .ite h.setRamp.setRamp.endMove h.setRamp.readSeg

theorem Sound.trapReached {u : Fin 4} {t : TrapRun} (h : Sound s) : Sound (s.trapReached u t) := by
  simp only [State.trapReached]
  split
  · exact .ite h.setRamp.post.endMove h.setRamp
  · exact h.setRamp.endMove

theorem Sound.trapRunTick {u : Fin 4} {t0 : TrapRun} {newDec : Bool} {stop : Option Bool} (h : Sound s) :
    Sound (s.trapRunTick u t0 newDec stop) := by
  unfold State.trapRunTick
  extract_lets +onlyGivenNames _ _ _ _ _ _ _ _
  split
  · refine .ite h.setRamp.setRamp.trapReached.complete ?_
    exact .ite h.setRamp.setRamp.stopEnd (Sound.ite h.setRamp.setRamp.post h.setRamp).setRamp.stepsTick
  · extract_lets +onlyGivenNames _ _ _ t
    have ht : Sound t := by
      unfold t
      split
      · exact (Sound.ite h.setRamp.setRamp.post h.setRamp).post
      · exact .ite h.setRamp.setRamp.post h.setRamp
    split
    · exact ht.trapReached
    · exact ht.setRamp.endMove
    · exact ht.setRamp

theorem Sound.permitTick {u : Fin 4} {p : Nat} (h : Sound s) : Sound (s.permitTick u p) :=
  (Sound.ite h.setRamp.endMove h.setRamp).complete

theorem Sound.profileTick {u : Fin 4} (h : Sound s) : Sound (s.profileTick u) := by
  unfold State.profileTick
  extract_lets +onlyGivenNames _ _ _ t _
  have ht : Sound t := by
    unfold t
    split
    · exact h.putLimits.setRamp
    · exact h
  refine .ite ht.permitTick ?_
  extract_lets +onlyGivenNames _ _ _
  split
  · exact .ite ht.setRamp.stopEnd ht.setRamp.setRamp
  · exact ht.setRamp.runTick
  · exact ht.setRamp.trapRunTick
  extract_lets +onlyGivenNames _ v
  have hv : Sound v := ht.setRamp.setRamp
  split
  · exact .ite hv.stepsTick hv.stepsTick
  refine .ite ?_ ?_
  · split <;> exact hv.planTick
  · split
    · exact hv.untail.planTick
    · exact hv.planTick

theorem Sound.homingTick {u : Fin 4} (h : Sound s) : Sound (s.homingTick u) := by
  simp only [State.homingTick]
  split
  · exact h
  split
  · exact .ite h h.setRamp
  · exact h

theorem Sound.gearTick {u : Fin 4} (h : Sound s) : Sound (s.gearTick u) := by
  simp only [State.gearTick]
  exact .ite (.ite h.setRamp h.setRamp) (.ite (Sound.ite h h.post).setRamp (.ite h.setRamp h.setRamp))

theorem Sound.rampTick {u : Fin 4} (h : Sound s) : Sound (s.rampTick u) := h.homingTick.profileTick.gearTick

theorem Sound.rampTicks (h : Sound s) : Sound s.rampTicks := h.rampTick.rampTick.rampTick.rampTick

theorem moveRunHandler_sound {q : Letter} {t : State} (h : Sound t) : Sound (moveRunHandler.run q t).2 := by
  unfold moveRunHandler handler
  dsimp -zeta only
  extract_lets +onlyGivenNames _ _ _ _
  split
  · exact h
  extract_lets +onlyGivenNames _
  split
  · exact h.eccRead
  extract_lets +onlyGivenNames _ _ _
  split
  · exact h.eccRead
  · exact .iteSnd h.eccRead h.eccRead.setRamp

theorem moveTrapHandler_sound {q : Letter} {t : State} (h : Sound t) : Sound (moveTrapHandler.run q t).2 := by
  simp only [moveTrapHandler]
  split
  · exact h
  · exact .iteSnd h (.iteSnd h (.iteSnd h.setRamp (.iteSnd h h.setRamp)))

theorem moveTailHandler_sound {q : Letter} {t : State} (h : Sound t) : Sound (moveTailHandler.run q t).2 := by
  simp only [moveTailHandler]
  refine .iteSnd h (.iteSnd h (.iteSnd h ?_))
  split
  · refine .iteSnd h (.iteSnd h ?_)
    split
    · exact h.eccRead
    split
    · exact h.eccRead
    · exact h.eccRead.setRamp
  · exact h

theorem moveStopHandler_sound {q : Letter} {t : State} (h : Sound t) : Sound (moveStopHandler.run q t).2 :=
  .iteSnd h (.iteSnd h.orderStop h)

theorem setLimitsHandler_sound {q : Letter} {t : State} (h : Sound t) : Sound (setLimitsHandler.run q t).2 :=
  .iteSnd h h.setRamp

theorem homeHandler_sound {q : Letter} {t : State} (h : Sound t) : Sound (homeHandler.run q t).2 := by
  simp only [homeHandler]
  split
  · exact h
  · exact .iteSnd h h.setRamp

theorem gearSetHandler_sound {q : Letter} {t : State} (h : Sound t) : Sound (gearSetHandler.run q t).2 := by
  simp only [gearSetHandler]
  refine .iteSnd h (.iteSnd h (.iteSnd h.setRamp ?_))
  split
  · exact h.eccRead
  · exact h.eccRead.setRamp

theorem execLimitStop_sound {dt : Nat} {u k : Fin 4} (h : Sound s) : SoundNext (execLimitStop dt u k s) := by
  simp only [execLimitStop]
  refine .ite h.advance.next ?_
  split
  · exact h.advance.next
  · exact .ite (.ite h.advance.setRamp.orderStop.post.next h.advance.setRamp.next) h.advance.next

theorem execHomeRearmEnd_sound {dt : Nat} {u : Fin 4} (h : Sound s) : SoundNext (execHomeRearmEnd dt u s) := by
  simp only [execHomeRearmEnd]
  refine .ite h.advance.next ?_
  split
  · split
    · exact .ite h.advance.setRamp.next h.advance.next
    · exact h.advance.next
  · exact h.advance.next

theorem execHomeCapture_sound {dt : Nat} {u : Fin 4} {cap : Int} (h : Sound s) : SoundNext (execHomeCapture dt u cap s) := by
  simp only [execHomeCapture]
  refine .ite h.advance.next ?_
  split
  · split
    · exact .ite h.advance.setRamp.next h.advance.next
    · exact h.advance.next
  · exact h.advance.next

theorem execHomeAdjust_sound {dt : Nat} {u : Fin 4} (h : Sound s) : SoundNext (execHomeAdjust dt u s) := by
  simp only [execHomeAdjust]
  refine .ite h.advance.next ?_
  split
  · exact .ite h.advance.moveSource.setRamp.next h.advance.next
  · exact h.advance.next

theorem execHomeSearchExhausted_sound {dt : Nat} {u : Fin 4} (h : Sound s) : SoundNext (execHomeSearchExhausted dt u s) := by
  simp only [execHomeSearchExhausted]
  refine .ite h.advance.next ?_
  split
  · exact .ite h.advance.setRamp.next h.advance.next
  · exact h.advance.next

theorem execHomeLimit_sound {dt : Nat} {u : Fin 4} {input : Fin 48} (h : Sound s) :
    SoundNext (execHomeLimit dt u input s) := by
  simp only [execHomeLimit]
  refine .ite h.advance.next ?_
  split
  · split
    · exact .ite h.advance.setRamp.post.next h.advance.next
    · exact h.advance.next
  · exact h.advance.next

/-! #### The door -/

theorem Sound.setDoor {d : DoorSt} (h : Sound s) : Sound (s.setDoor d) := h.kept (by rfl)

theorem Sound.doorTo {st : Nat} (h : Sound s) : Sound (s.doorTo st) := .ite h.setDoor.post h.setDoor

theorem Sound.doorUnknown (h : Sound s) : Sound s.doorUnknown := h.setDoor

theorem Sound.doorFail {detail : Nat} (h : Sound s) : Sound (s.doorFail detail) := h.complete.complete

theorem Sound.foldGear {u : Fin 4} (h : Sound s) : Sound (s.foldGear u) := .ite h h.setRamp

theorem Sound.startDoor {target : Int} {vlim k : Nat} (h : Sound s) : Sound (s.startDoor target vlim k) :=
  (Sound.ite h.foldGear h).setReg.setReg.setReg.setReg.setRamp.setDoor

theorem Sound.openDoor {k : Nat} (h : Sound s) : Sound (s.openDoor k) := h.startDoor.setDoor.doorTo

theorem Sound.closeDoor {k : Nat} {nudge : Bool} {since : Postmark} (h : Sound s) : Sound (s.closeDoor k nudge since) :=
  h.startDoor.setDoor.doorTo

theorem Sound.homingClose {k : Nat} {nudge : Bool} {since : Postmark} (h : Sound s) : Sound (s.homingClose k nudge since) :=
  h.startDoor.setDoor.doorTo

theorem Sound.openSoon {k : Nat} (h : Sound s) : Sound (s.openSoon k) := .ite h.openDoor h.setDoor

theorem Sound.closeSoon {k : Nat} {nudge : Bool} (h : Sound s) : Sound (s.closeSoon k nudge) :=
  .ite (.ite h.homingClose h.closeDoor) h.setDoor

theorem doorModeHandler_sound {q : Letter} {t : State} (h : Sound t) : Sound (doorModeHandler.run q t).2 :=
  .iteSnd h (.iteSnd h (.iteSnd h (.iteSnd h (.iteSnd h (.iteSnd h h.setDoor)))))

theorem Sound.doorOpenHandler_stopFirst {k : Nat} (h : Sound s) : Sound (doorOpenHandler.stopFirst k s) :=
  h.complete.orderStop.setDoor.doorTo

theorem doorOpenHandler_sound {q : Letter} {t : State} (h : Sound t) : Sound (doorOpenHandler.run q t).2 := by
  unfold doorOpenHandler handler
  dsimp -zeta only
  extract_lets +onlyGivenNames _ _
  refine .iteSnd h (.iteSnd h (.iteSnd h (.iteSnd h (.iteSnd h ?_))))
  extract_lets +onlyGivenNames _
  split
  · exact .iteSnd h.setDoor.complete.complete.setDoor h.setDoor.complete
  · exact h.setDoor.setDoor
  · exact h.setDoor.doorOpenHandler_stopFirst
  · exact h.setDoor.doorOpenHandler_stopFirst
  · exact h.setDoor.complete.complete.setDoor
  · exact h.setDoor.complete.complete.openSoon

theorem Sound.doorCloseHandler_renew {k : Nat} {nudge : Bool} (h : Sound s) : Sound (doorCloseHandler.renew k nudge s) :=
  h.complete.setRamp.setDoor.doorTo

theorem doorCloseHandler_sound {q : Letter} {t : State} (h : Sound t) : Sound (doorCloseHandler.run q t).2 := by
  unfold doorCloseHandler handler
  dsimp -zeta only
  extract_lets +onlyGivenNames _ _ _
  refine .iteSnd h (.iteSnd h (.iteSnd h (.iteSnd h (.iteSnd h.complete.setDoor ?_))))
  split
  · exact h.post
  split
  · exact h.complete.setDoor
  · exact h.complete.complete.orderStop.setDoor
  · exact h.complete.complete.setDoor
  · exact h.doorCloseHandler_renew
  · exact h.doorCloseHandler_renew
  · exact h.complete.complete.closeSoon

theorem doorStopHandler_sound {q : Letter} {t : State} (h : Sound t) : Sound (doorStopHandler.run q t).2 :=
  .iteSnd h.setDoor h.doorFail.setDoor

theorem doorLimitsHandler_sound {q : Letter} {t : State} (h : Sound t) : Sound (doorLimitsHandler.run q t).2 :=
  .iteSnd h h.setDoor

theorem Sound.haltUnit (h : Sound s) : Sound s.haltUnit := h.setRamp

theorem Sound.stageOff (h : Sound s) : Sound s.stageOff := (Sound.ite h h.haltUnit).doorFail.setDoor.doorTo

theorem Sound.doorSwitch (h : Sound s) : Sound s.doorSwitch := by
  unfold State.doorSwitch
  exact .ite (.ite h h.stageOff) (.ite h.setDoor (.ite h.stageOff (.ite (.ite h h.doorTo) h)))

theorem Sound.doorPermitCheck (h : Sound s) : Sound s.doorPermitCheck :=
  .ite (Sound.ite h.orderStop h).foldGear.complete.setDoor.doorTo h

theorem Sound.doorModeTick (h : Sound s) : Sound s.doorModeTick := by
  unfold State.doorModeTick
  split
  · exact h
  · exact (Sound.ite (Sound.ite h h.doorFail).haltUnit (.ite h h.doorFail)).setDoor.doorSwitch

theorem Sound.doorLimTick (h : Sound s) : Sound s.doorLimTick := by
  unfold State.doorLimTick
  split
  · exact h
  · exact (Sound.ite h.setReg.setFld h.setReg).setDoor

theorem Sound.doorEstimate (h : Sound s) : Sound s.doorEstimate := .ite h.setDoor (.ite h.setDoor.post h.setDoor)

theorem Sound.doorStopTick (h : Sound s) : Sound s.doorStopTick := by
  unfold State.doorStopTick
  refine .ite h ?_
  extract_lets +onlyGivenNames _ _ _
  refine .ite h ?_
  extract_lets +onlyGivenNames _ _ t
  have ht : Sound t := h.doorFail.setDoor
  refine .ite ht.complete ?_
  refine .ite ?_ (.ite ht.setDoor.haltUnit.doorTo ht.setDoor.doorTo)
  extract_lets +onlyGivenNames _ _ u
  have hu : Sound u := by
    unfold u
    split
    · exact ht
    · exact ht.setRamp
  exact hu.orderStop.doorTo

theorem Sound.homingContact (h : Sound s) : Sound s.homingContact := by
  simp only [State.homingContact]
  refine .ite ?_ h
  exact .ite h.setDoor.setDoor.setRamp (.ite h.setDoor.moveSource.setRamp.orderStop h.setDoor.moveSource.setRamp)

theorem Sound.doorPre (h : Sound s) : Sound s.doorPre :=
  .ite h h.doorModeTick.doorLimTick.doorSwitch.doorPermitCheck.doorEstimate.doorStopTick.homingContact

theorem Sound.closedLocked (h : Sound s) : Sound s.closedLocked := h.setDoor.doorTo.complete

theorem Sound.reachClosed (h : Sound s) : Sound s.reachClosed := .ite (.ite h.closedLocked h.doorTo) h

theorem Sound.doorStateTick_closing {u : Fin 4} {still : Bool} {failed : Option (Nat × Nat)} (h : Sound s) :
    Sound (State.doorStateTick.closing s u still failed) := by
  simp only [State.doorStateTick.closing]
  refine .ite h ?_
  split
  · exact h.complete.setDoor.doorTo
  · exact .ite h.reachClosed h

theorem Sound.doorStateTick_preopen (h : Sound s) : Sound (State.doorStateTick.preopen s) := .ite h.doorTo h

theorem Sound.doorStateTick (h : Sound s) : Sound s.doorStateTick := by
  simp only [State.doorStateTick]
  refine .ite h ?_
  split
  · refine .ite h ?_
    split
    · exact h.closeDoor
    · exact .ite h.openDoor h.complete.setDoor.doorTo
    split
    · exact h.complete.setDoor.doorTo
    · exact .ite h.setDoor.doorTo.complete.complete h.setDoor.doorTo.complete
  · refine .ite h ?_
    split
    · exact h.closeDoor
    · exact .ite h.openDoor h.complete.setDoor.doorTo
    · exact h
  · refine .ite h ?_
    split
    · exact h.closeDoor
    · exact .ite h.openDoor h.complete.setDoor
    · exact h
  · refine .ite h ?_
    split
    · exact h.closeDoor
    · exact h.openDoor
    · exact h
  · refine .ite h ?_
    split
    · exact h.homingClose
    · exact h
  · exact .ite h (.ite (.ite h.reachClosed h.startDoor) h.complete.setDoor.doorUnknown)
  · exact h.doorStateTick_closing
  · exact h.doorStateTick_closing
  · exact .ite h.closedLocked h.doorStateTick_preopen
  · exact .ite h.doorStateTick_preopen h.doorTo.doorStateTick_preopen
  · exact h

theorem Sound.doorSteps (h : Sound s) : Sound s.doorSteps := .ite h h.setDoor

theorem Sound.doorStopEnd (h : Sound s) : Sound s.doorStopEnd := by
  unfold State.doorStopEnd
  refine .ite h (.ite h.complete ?_)
  refine .ite ?_ (.ite h h.complete)
  split
  · exact .ite h.complete h
  · exact h.complete

theorem Sound.doorForceTick (h : Sound s) : Sound s.doorForceTick := .ite h.setDoor.post h.setDoor

theorem Sound.doorPost (h : Sound s) : Sound s.doorPost :=
  .ite h (.ite h.doorStopEnd (Sound.ite h h.doorStateTick).doorSteps.doorStopEnd.doorForceTick)

theorem Sound.reverseDoor (h : Sound s) : Sound s.reverseDoor :=
  .ite h.orderStop.complete.setDoor.doorUnknown h.orderStop.complete.setDoor.doorTo

theorem execDoorObstructed_sound {dt : Nat} {k : Fin 4} (h : Sound s) : SoundNext (execDoorObstructed dt k s) :=
  .ite h.advance.next (.ite h.advance.post.reverseDoor.next h.advance.next)

theorem execDoorStall_sound {dt : Nat} (h : Sound s) : SoundNext (execDoorStall dt s) := by
  simp only [execDoorStall]
  refine .ite h.advance.next ?_
  split
  · refine .ite ?_ h.advance.next
    refine .ite h.advance.setDoor.post.reverseDoor.next ?_
    refine .ite (Sound.ite h.advance.setDoor.post.orderStop h.advance.setDoor.post).complete.doorTo.next ?_
    exact h.advance.next
  · exact h.advance.next

theorem execDoorOpenTimeout_sound {dt : Nat} (h : Sound s) : SoundNext (execDoorOpenTimeout dt s) := by
  simp only [execDoorOpenTimeout]
  refine .ite h.advance.next ?_
  split
  · exact .ite h.advance.orderStop.complete.setDoor.doorTo.next h.advance.next
  · exact h.advance.next

theorem execDoorCloseTimeout_sound {dt : Nat} (h : Sound s) : SoundNext (execDoorCloseTimeout dt s) := by
  simp only [execDoorCloseTimeout]
  refine .ite h.advance.next ?_
  split
  · refine .ite ?_ h.advance.next
    refine Sound.next ?_
    refine .ite (Sound.ite h.advance.post.complete.orderStop h.advance.post.complete).setDoor.doorUnknown ?_
    exact (Sound.ite h.advance.post.complete.orderStop h.advance.post.complete).setDoor.doorTo
  · exact h.advance.next

theorem execDoorReopen_sound {dt : Nat} (h : Sound s) : SoundNext (execDoorReopen dt s) :=
  .ite h.advance.next (.ite h.advance.openDoor.next h.advance.next)

theorem execDoorHoldExpiry_sound {dt : Nat} (h : Sound s) : SoundNext (execDoorHoldExpiry dt s) := by
  simp only [execDoorHoldExpiry]
  refine .ite h.advance.next ?_
  split
  · exact .ite (.ite h.advance.setDoor.setDoor.next h.advance.setDoor.closeDoor.next) h.advance.next
  · exact h.advance.next

theorem execDoorNudge_sound {dt : Nat} (h : Sound s) : SoundNext (execDoorNudge dt s) := by
  simp only [execDoorNudge]
  refine .ite h.advance.next ?_
  split
  · exact .ite h.advance.setDoor.post.next h.advance.next
  · exact h.advance.next

theorem execStageFault_sound {dt : Nat} {kind : Fin 6} {value : Int} (h : Sound s) :
    SoundNext (execStageFault dt kind value s) :=
  .ite h.advance.next (.ite h.advance.setDoor.post.doorSwitch.next h.advance.next)

/-! #### Field inputs and outputs -/

theorem Sound.setFio {f : FioSt} (h : Sound s) : Sound (s.setFio f) := h.kept (by rfl)

theorem Sound.outRefresh (h : Sound s) : Sound s.outRefresh := h.setFio

theorem Sound.latchOut {k : Fin 32} {kind : Nat} (h : Sound s) : Sound (s.latchOut k kind) := h.setFio.outRefresh

theorem execFieldLinkFrame_sound {dt : Nat} {toField ok : Bool} {x : DiagIn} (h : Sound s) :
    SoundNext (execFieldLinkFrame dt toField ok x s) := by
  simp only [execFieldLinkFrame]
  refine .ite h.advance.next (.ite h.advance.next (.ite h.advance.setFio.next ?_))
  exact .ite (Sound.ite h.advance.setFio.outRefresh.setFio h.advance.setFio.outRefresh).next h.advance.setFio.next

theorem execFieldLinkFault_sound {dt : Nat} (h : Sound s) : SoundNext (execFieldLinkFault dt s) :=
  .ite h.advance.next (.ite h.advance.setFio.outRefresh.post.doorSwitch.next h.advance.next)

theorem Sound.inputsBack (h : Sound s) : Sound s.inputsBack := .ite h.setFio.post h

theorem execInputSample_sound {dt : Nat} {bank : Fin 6} {mv : Vector Int 8} (h : Sound s) :
    SoundNext (execInputSample dt bank mv s) :=
  .ite h.advance.next (.ite h.advance.next h.advance.setFio.noteIf.inputsBack.next)

theorem execCounterEdge_sound {dt : Nat} {i : Fin 8} {high : Bool} (h : Sound s) : SoundNext (execCounterEdge dt i high s) :=
  .ite h.advance.next (.ite h.advance.next h.advance.setFio.noteIf.next)

theorem execCounterGateEnd_sound {dt : Nat} {i : Fin 8} (h : Sound s) : SoundNext (execCounterGateEnd dt i s) :=
  .ite h.advance.next (.ite h.advance.setFio.next h.advance.next)

theorem counterConfigHandler_sound {q : Letter} {t : State} (h : Sound t) : Sound (counterConfigHandler.run q t).2 :=
  .iteSnd h (.iteSnd h h.setFio)

theorem outSetHandler_sound {q : Letter} {t : State} (h : Sound t) : Sound (outSetHandler.run q t).2 := h.setFio

theorem inReadHandler_sound {q : Letter} {t : State} (h : Sound t) : Sound (inReadHandler.run q t).2 := h

theorem Sound.restoreGroup {g : Nat} (h : Sound s) : Sound (s.restoreGroup g) := (h.kept (by rfl)).outRefresh.post

theorem outRestoreHandler_sound {q : Letter} {t : State} (h : Sound t) : Sound (outRestoreHandler.run q t).2 :=
  .iteSnd (.iteSnd h (.iteSnd h.restoreGroup h)) (.iteSnd h (.iteSnd h h.setFio))

theorem execOutputDiagCheck_sound {dt : Nat} {k : Fin 32} {mv : Nat} {temp : Int} (h : Sound s) :
    SoundNext (execOutputDiagCheck dt k mv temp s) := by
  simp only [execOutputDiagCheck]
  refine .ite h.advance.next (.ite h.advance.next ?_)
  refine .ite (.ite h.advance.setFio.next h.advance.setFio.latchOut.post.next) ?_
  exact .ite h.advance.setFio.setFio.next (.ite h.advance.setFio.setFio.post.next h.advance.setFio.next)

theorem execOverload_sound {dt : Nat} {x : OverIn} (h : Sound s) : SoundNext (execOverload dt x s) :=
  .ite h.advance.next (.ite h.advance.latchOut.post.next h.advance.next)

theorem execDriverOvertemp_sound {dt : Nat} {k : Fin 32} {temp : Int} (h : Sound s) :
    SoundNext (execDriverOvertemp dt k temp s) :=
  .ite h.advance.next (.ite h.advance.setFio.latchOut.post.next h.advance.setFio.next)

theorem execGroupOvercurrent_sound {dt : Nat} {x : GroupOverIn} (h : Sound s) : SoundNext (execGroupOvercurrent dt x s) := by
  simp only [execGroupOvercurrent]
  refine .ite h.advance.next (.ite h.advance.next ?_)
  split
  · exact .ite h.advance.latchOut.post.next h.advance.next
  · exact h.advance.next

theorem Sound.shedOne {g : Nat} (h : Sound s) : Sound (s.shedOne g) := by
  unfold State.shedOne
  split
  · exact h.setFio
  · exact .ite h.setFio h.setFio.setFio.outRefresh.post

theorem execVfieldSample_sound {dt mv : Nat} (h : Sound s) : SoundNext (execVfieldSample dt mv s) := by
  unfold execVfieldSample
  extract_lets +onlyGivenNames _
  refine .ite h.advance.next ?_
  extract_lets +onlyGivenNames _ _ _ _ t u _ v
  have ht : Sound t := h.advance.setFio
  have hu : Sound u := .ite ht.post (.ite ht.post ht)
  have hv : Sound v := .ite hu.shedOne (.ite hu.setFio hu)
  exact .ite hv.setFio.post.next (.ite hv.setFio.inputsBack.next hv.next)

theorem execFieldShed_sound {dt : Nat} (h : Sound s) : SoundNext (execFieldShed dt s) := by
  simp only [execFieldShed]
  refine .ite h.advance.next ?_
  split
  · exact .ite h.advance.shedOne.next h.advance.next
  · exact h.advance.next

theorem execFieldRestored_sound {dt : Nat} (h : Sound s) : SoundNext (execFieldRestored dt s) := by
  simp only [execFieldRestored]
  refine .ite h.advance.next (.ite h.advance.next ?_)
  split
  · exact h.advance.setFio.restoreGroup.next
  split
  · exact (h.kept (by rfl)).restoreGroup.next
  · exact h.advance.next

theorem execStandbyIdleExpiry_sound {dt : Nat} (h : Sound s) : SoundNext (execStandbyIdleExpiry dt s) :=
  .ite h.advance.next (.ite h.advance.setFio.outRefresh.next h.advance.next)

theorem Sound.standbyTick (h : Sound s) : Sound s.standbyTick := .ite h h.setFio.outRefresh

theorem Sound.counterTick (h : Sound s) : Sound s.counterTick := h.setFio

theorem Sound.fioTick (h : Sound s) : Sound s.fioTick := (Sound.ite h.counterTick.setFio h.counterTick).standbyTick

theorem Sound.invAct (h : Sound s) : Sound s.invAct := h.setFio

theorem Sound.linkOffClear (h : Sound s) : Sound s.linkOffClear := h.setFio

/-! #### Group time -/

theorem Sound.shiftTimers {mv : Postmark → Postmark} (h : Sound s) : Sound (s.shiftTimers mv) := h.kept (by rfl)

theorem Sound.stepTime {d : Int} (h : Sound s) : Sound (s.stepTime d) := h.shiftTimers.ring (by rfl) fun hwf => hwf

theorem Sound.setGt {t : GtSt} (h : Sound s) : Sound (s.setGt t) := h.kept (by rfl)

theorem Sound.groupSteer {l g : Nat} {busB : Bool} {t : Nat} (h : Sound s) : Sound (s.groupSteer l g busB t) := by
  simp only [State.groupSteer]
  split
  · exact .ite h.setGt h.setGt.post
  · exact h.setGt
  · exact .ite h.setGt (.ite h.setGt.stepTime.post h.setGt)
  · exact h.setGt

/-! #### The group -/

theorem Sound.setGroup {g : GroupSt} (h : Sound s) : Sound (s.setGroup g) := h.kept (by rfl)

theorem Sound.leaveGroup {st : Status} {detail further : Nat} (h : Sound s) : Sound (s.leaveGroup st detail further) :=
  h.setGroup.complete.complete

theorem Sound.numberTwin (h : Sound s) : Sound s.numberTwin := h.post.leaveGroup

theorem Sound.groupWordBad {w : Nat} (h : Sound s) : Sound (s.groupWordBad w) := .ite (h.kept (by rfl)) h

theorem Sound.groupRead (h : Sound s) : Sound s.groupRead.2 :=
  ((h.foldl fun h => h.eccCorrect).foldl fun h => h.eccFound).eccClear

theorem Sound.followDigest (h : Sound s) : Sound s.followDigest := by
  simp only [State.followDigest]
  split
  · exact .ite h.setGroup.post h
  · exact .ite (.ite h.setGroup.post.setGroup.complete h.setGroup.post) (.ite h.setGroup h.setGroup)
  · exact h

theorem Sound.closeSlots (h : Sound s) : Sound s.closeSlots := by
  simp only [State.closeSlots]
  refine .ite (Sound.ite h.setGroup.followDigest h.setGroup).setGroup.setGroup.completeAt.completeAt ?_
  exact (Sound.ite h.setGroup.followDigest h.setGroup).setGroup

theorem execReferenceDigest_sound {dt : Nat} (h : Sound s) : SoundNext (execReferenceDigest dt s) :=
  .ite h.advance.next (.ite h.advance.next h.advance.closeSlots.next)

theorem Sound.sealTables {k : Nat} (h : Sound s) : Sound (s.sealTables k) :=
  .ite (Sound.ite h.setGroup.post h.setGroup).post (.ite h.setGroup.post h.setGroup)

theorem Sound.seal {k old : Nat} {a b : Option Postmark} {first : Bool} (h : Sound s) : Sound (s.seal k old a b first) :=
  .ite h.sealTables.groupRead.setGroup.noteIf.post h.sealTables.groupRead.setGroup.noteIf

theorem Sound.busRound {b : Fin 2} {had otherHad : Bool} (h : Sound s) : Sound (s.busRound b had otherHad) :=
  .ite h (.ite (.ite h.setGroup.post h.setGroup) (.ite h.setGroup h))

theorem Sound.strokeByState {k old : Nat} {a b : Option Postmark} (h : Sound s) : Sound (s.strokeByState k old a b) := by
  simp only [State.strokeByState]
  split
  · exact h.setGroup
  · exact .ite h.setGroup.seal.setGroup.complete h.setGroup.seal.setGroup
  · exact h.seal
  · exact h.seal
  · exact h.seal
  · exact h.setGroup

theorem Sound.lateClose (h : Sound s) : Sound s.lateClose := .ite h h.closeSlots

theorem Sound.validStroke {x : StrokeIn} {own : Bool} {a b : Option Postmark} {busB : Bool} {t : Postmark} (h : Sound s) :
    Sound (s.validStroke x own a b busB t) := by
  unfold State.validStroke
  extract_lets +onlyGivenNames _ _ u v _ _ _ _ w _ _
  have hu : Sound u := .ite h.lateClose h.lateClose.setGroup
  have hv : Sound v := .ite hu hu.busRound.busRound
  have hw : Sound w := hv.setGroup.strokeByState
  exact .ite hw.setGroup.setGt hw.setGroup.groupSteer

theorem Sound.strokeIn {x : StrokeIn} (h : Sound s) : Sound (s.strokeIn x) := by
  simp only [State.strokeIn]
  split
  · exact h
  · exact .ite h.groupDiscard (.ite (.ite h.leaveGroup h.groupDiscard) h.validStroke)

theorem Sound.yieldBell {x : StrokeIn} (h : Sound s) : Sound (s.yieldBell x) := h.setGroup.post

theorem Sound.strokeFrom {x : StrokeIn} (h : Sound s) : Sound (s.strokeFrom x) := by
  simp only [State.strokeFrom]
  split
  · exact h
  · exact .ite h.yieldBell.strokeIn (.ite h.groupDiscard h.strokeIn)

theorem execBellStroke_sound {dt : Nat} {x : StrokeIn} (h : Sound s) : SoundNext (execBellStroke dt x s) :=
  .ite h.advance.next (.ite h.advance.strokeFrom.next h.advance.next)

theorem execBellYielded_sound {dt : Nat} {x : StrokeIn} (h : Sound s) : SoundNext (execBellYielded dt x s) :=
  .ite h.advance.next (.ite h.advance.strokeFrom.next h.advance.next)

theorem execBellStrokeTx_sound {dt : Nat} (h : Sound s) : SoundNext (execBellStrokeTx dt s) := by
  simp only [execBellStrokeTx]
  refine .ite h.advance.next ?_
  exact .ite (Sound.ite h.advance.lateClose.validStroke h.advance.lateClose).next h.advance.next

theorem Sound.takeBell {k : Nat} (h : Sound s) : Sound (s.takeBell k) := h.setGroup.post

theorem execBellMissing_sound {dt : Nat} (h : Sound s) : SoundNext (execBellMissing dt s) := by
  simp only [execBellMissing]
  refine .ite h.advance.next (.ite h.advance.next ?_)
  refine .ite (Sound.ite h.advance.setGt.post h.advance.setGt).takeBell.next ?_
  exact (Sound.ite h.advance.setGt.post h.advance.setGt).next

theorem execStatusSlotTx_sound {dt : Nat} {x : CarIn} (h : Sound s) : SoundNext (execStatusSlotTx dt x s) :=
  .ite h.advance.next (.ite h.advance.next h.advance.setGroup.next)

theorem execSlotLateCancel_sound {dt : Nat} (h : Sound s) : SoundNext (execSlotLateCancel dt s) :=
  .ite h.advance.next (.ite h.advance.setGroup.next h.advance.next)

theorem Sound.slotBad {car cause : Nat} (h : Sound s) : Sound (s.slotBad car cause) := h.post

theorem execStatusSlotRx_sound {dt : Nat} {busB : Bool} {sender : Fin 64} {qual : Fin 4096} {data : List Byte}
    (h : Sound s) : SoundNext (execStatusSlotRx dt busB sender qual data s) := by
  simp only [execStatusSlotRx]
  refine .ite h.advance.next (.ite h.advance.next ?_)
  refine .ite h.advance.groupDiscard.next (.ite h.advance.numberTwin.next ?_)
  refine .ite h.advance.freeUpTo.slotBad.next (.ite h.advance.slotBad.next ?_)
  exact .ite h.advance.slotBad.next (.ite h.advance.slotBad.next h.advance.setGroup.next)

theorem execCarNumberTwin_sound {dt : Nat} {x : TwinIn} (h : Sound s) : SoundNext (execCarNumberTwin dt x s) := by
  simp only [execCarNumberTwin]
  refine .ite h.advance.next (.ite (Sound.ite h.advance.twinPost.leaveGroup h.advance).next ?_)
  refine .ite (Sound.ite h.advance.twinPost.numberTwin h.advance).next ?_
  exact (Sound.ite h.advance.numberTwin h.advance).next

theorem Sound.requestFrame {cancel busB : Bool} {panel sender data : Nat} (h : Sound s) :
    Sound (s.requestFrame cancel busB panel sender data) :=
  .ite h (.ite h.groupDiscard h.setGroup)

theorem execRequestFrame_sound {dt : Nat} {busB : Bool} {panel : Fin 4096} {sender : Fin 64} {data : BitVec 64}
    (h : Sound s) : SoundNext (execRequestFrame dt busB panel sender data s) :=
  h.advance.requestFrame.next

theorem execCancelFrame_sound {dt : Nat} {busB : Bool} {panel : Fin 4096} {sender : Fin 64} {data : BitVec 64}
    (h : Sound s) : SoundNext (execCancelFrame dt busB panel sender data s) :=
  h.advance.requestFrame.next

theorem execCallFrameTxDrop_sound {dt : Nat} (h : Sound s) : SoundNext (execCallFrameTxDrop dt s) :=
  .ite h.advance.next (.ite h.advance.next h.advance.setGroup.next)

theorem execJoinListenTimeout_sound {dt : Nat} (h : Sound s) : SoundNext (execJoinListenTimeout dt s) := by
  simp only [execJoinListenTimeout]
  refine .ite h.advance.next ?_
  split
  · exact h.advance.next
  · exact .ite h.advance.setGroup.takeBell.next h.advance.next

theorem execJoinClaim_sound {dt : Nat} (h : Sound s) : SoundNext (execJoinClaim dt s) := by
  simp only [execJoinClaim]
  refine .ite h.advance.next ?_
  split
  · exact h.advance.next
  · exact .ite h.advance.next (.ite h.advance.numberTwin.next h.advance.freeWord.setGroup.next)

theorem Sound.allBusesLost (h : Sound s) : Sound s.allBusesLost := .ite h.leaveGroup (.ite h.leaveGroup h.setGroup.post)

theorem execGroupBusLost_sound {dt : Nat} {bus : Fin 2} (h : Sound s) : SoundNext (execGroupBusLost dt bus s) := by
  simp only [execGroupBusLost]
  refine .ite h.advance.next ?_
  exact .ite h.advance.next (Sound.ite h.advance.setGroup.post.allBusesLost h.advance.setGroup.post).next

theorem execResyncRequest_sound {dt : Nat} {car : Fin 64} (h : Sound s) : SoundNext (execResyncRequest dt car s) := by
  simp only [execResyncRequest]
  refine .ite h.advance.next (.ite (Sound.ite h.advance.groupDiscard h.advance).next ?_)
  exact .ite h.advance.setGroup.next h.advance.next

theorem execResyncData_sound {dt : Nat} {sender car : Fin 64} {data : List Byte} (h : Sound s) :
    SoundNext (execResyncData dt sender car data s) := by
  simp only [execResyncData]
  refine .ite h.advance.next (.ite h.advance.next (.ite h.advance.groupDiscard.next ?_))
  split
  · exact .ite h.advance.setGroup.next h.advance.next
  · exact h.advance.next

theorem execResyncReplay_sound {dt : Nat} (h : Sound s) : SoundNext (execResyncReplay dt s) := by
  simp only [execResyncReplay]
  refine .ite h.advance.next ?_
  split
  · exact h.advance.next
  split
  · exact h.advance.next
  refine .ite h.advance.next ?_
  split
  · exact h.advance.setGroup.next
  · exact .ite h.advance.setGroup.next h.advance.setGroup.next

/-! #### The letters of the group -/

theorem groupJoinHandler_sound {q : Letter} {t : State} (h : Sound t) : Sound (groupJoinHandler.run q t).2 := by
  unfold groupJoinHandler handler
  dsimp -zeta only
  extract_lets +onlyGivenNames _ _ _
  refine .iteSnd h (.iteSnd h ?_)
  split
  · exact h
  · exact h.setGroup

theorem groupLeaveHandler_sound {q : Letter} {t : State} (h : Sound t) : Sound (groupLeaveHandler.run q t).2 :=
  .iteSnd h (.iteSnd h.setGroup h.setGroup)

theorem Sound.setTable {len : List Byte → Nat} {bad : List Byte → Option Nat} {put : List Byte → GroupSt → GroupSt}
    {l : Letter}
    (h : Sound s) : Sound (setTable len bad put l s).2 := by
  simp only [Sys2Proof.Machine.setTable]
  split
  · exact h.eccRead
  refine .iteSnd h ?_
  split
  · exact h
  · exact h.eccRead.setGroup

theorem policySetHandler_sound {q : Letter} {t : State} (h : Sound t) : Sound (policySetHandler.run q t).2 :=
  .iteSnd h h.setTable

theorem flightSetHandler_sound {q : Letter} {t : State} (h : Sound t) : Sound (flightSetHandler.run q t).2 :=
  .iteSnd h h.setTable

theorem callHandler_sound {opc : Nat} {cancel : Bool} {q : Letter} {t : State} (h : Sound t) :
    Sound ((callHandler opc cancel).run q t).2 :=
  .iteSnd (.iteSnd h (.iteSnd h (h.kept (by rfl)))) (.iteSnd h h.setGroup)

/-! #### The hoist stage -/

theorem Sound.sumCheck {i : Vector Int 3} (h : Sound s) : Sound (s.sumCheck i) := .ite h.post h

theorem Sound.clarkePark {i : Vector Int 3} {theta : Nat} (h : Sound s) : Sound (s.clarkePark i theta) := h.kept (by rfl)

theorem Sound.curSlots {angle : Nat} (h : Sound s) : Sound (s.curSlots angle).1 :=
  h.foldlFst fun h => .iteFst h.slotCompute h

theorem Sound.curCommit {lim : Bool} {cs : List (Fin 16 × Commit)} (h : Sound s) : Sound (s.curCommit lim cs) :=
  (h.foldl fun h => h.setSlot).foldl fun h => .ite h.setSlot h

theorem Sound.modulate {i : Vector Int 3} {cs : List (Fin 16 × Commit)} (h : Sound s) :
    Sound (s.modulate i cs) := by
  unfold State.modulate
  extract_lets th c n f u m al be d t
  have ht : Sound t := h.curCommit
  clear_value t
  exact ht.kept (by rfl)

theorem execCurrentSample_sound {dt : Nat} {x : CurIn} (h : Sound s) : SoundNext (execCurrentSample dt x s) := by
  simp only [execCurrentSample]
  refine .ite h.advance.next (.ite h.advance.next ?_)
  exact (h.advance.encRun.sdRun.sdRun.sdRun.kept (by rfl)).sumCheck.clarkePark.curSlots.modulate.capStep.next

theorem execOvercurrent_sound {dt : Nat} {k : Fin 3} {bits : List Bool} (h : Sound s) :
    SoundNext (execOvercurrent dt k bits s) :=
  .ite h.advance.next h.advance.sdRun.next

/-! #### The lock -/

theorem Sound.setLock {l : LockSt} (h : Sound s) : Sound (s.setLock l) := h.kept (by rfl)

theorem Sound.lockTick (h : Sound s) : Sound s.lockTick := h.setLock

theorem Sound.snapshot {i : List Byte} (h : Sound s) : Sound (s.snapshot i) := h.setLock

theorem Sound.sampleTaps {i : List Byte} {mv : Vector Nat 12} (h : Sound s) : Sound (s.sampleTaps i mv) :=
  .ite h h.setLock.noteIf

theorem Sound.delaySteps {i : List Byte} (h : Sound s) : Sound (s.delaySteps i) := h.setLock

theorem Sound.bypassStep {i : List Byte} (h : Sound s) : Sound (s.bypassStep i) := (h.foldl fun h => h.post).setLock

theorem Sound.bridgeFail (h : Sound s) : Sound s.bridgeFail := h.setLock.post.complete

theorem Sound.bridgeStart {i : List Byte} (h : Sound s) : Sound (s.bridgeStart i) := .ite h.setLock h

theorem Sound.bridgeStep {i : List Byte} (h : Sound s) : Sound (s.bridgeStep i) := by
  simp only [State.bridgeStep]
  split
  · exact h.bridgeStart
  refine .ite h.bridgeStart.setLock.complete ?_
  exact .ite (.ite h.bridgeStart.setLock.post.bridgeFail h.bridgeStart.setLock.post) h.bridgeStart.setLock

theorem Sound.ucmStep {i : List Byte} {p : Int} (h : Sound s) : Sound (s.ucmStep i p) := by
  unfold State.ucmStep
  extract_lets +onlyGivenNames _ _
  refine .ite h.setLock ?_
  extract_lets +onlyGivenNames _ _ _ _ _ t
  have ht : Sound t := by
    unfold t
    split
    · exact h
    · exact .ite (Sound.ite (.ite h.setLock h) (Sound.ite h.setLock h).post).setLock (.ite h.setLock h)
  refine .ite ht.setLock ?_
  split
  · exact ht.setLock
  · exact ht

theorem Sound.termStep (h : Sound s) : Sound s.termStep := h.setLock

theorem Sound.permitStep (h : Sound s) : Sound s.permitStep := h.setLock

theorem Sound.stoTestEnd {st : Status} {detail further : Nat} (h : Sound s) : Sound (s.stoTestEnd st detail further) :=
  h.setLock.complete

theorem Sound.gateStep (h : Sound s) : Sound s.gateStep := by
  unfold State.gateStep
  extract_lets +onlyGivenNames _ t _ _ _ _ _ _ _ _ _ _ _
  have ht : Sound t := by
    unfold t
    split
    · exact .ite h.setLock.stoTestEnd h
    · exact h
  exact (Sound.ite ht.setLock ht.setLock.post).kept (by rfl)

theorem Sound.reMatrix (h : Sound s) : Sound s.reMatrix := by
  unfold State.reMatrix
  extract_lets +onlyGivenNames _ t
  have ht : Sound t := by
    unfold t
    split
    · exact h.termStep.bridgeStart
    · exact h.termStep
  exact ht.permitStep.gateStep.doorSwitch.doorPermitCheck

theorem Sound.evaluate {x : EvalIn} (h : Sound s) : Sound (s.evaluate x) := by
  unfold State.evaluate
  extract_lets +onlyGivenNames _ _ _ _ t _ _ u
  have ht : Sound t := by
    unfold t
    split
    · exact h.setLock.setLock.termStep
    · exact h.setLock.setLock.sampleTaps.setLock.snapshot.delaySteps.termStep.bypassStep.bridgeStep.ucmStep
  have hu : Sound u := by
    unfold u
    split <;> exact ht.permitStep.setLock
  exact hu.gateStep.doorSwitch.doorPermitCheck

theorem execInterlockEvaluation_sound {dt : Nat} {x : EvalIn} (h : Sound s) : SoundNext (execInterlockEvaluation dt x s) :=
  .ite h.advance.next (.ite h.advance.evaluate.next h.advance.next)

theorem execBridgeFail_sound {dt : Nat} (h : Sound s) : SoundNext (execBridgeFail dt s) := by
  simp only [execBridgeFail]
  refine .ite h.advance.next ?_
  split
  · exact .ite h.advance.bridgeFail.reMatrix.next h.advance.next
  · exact h.advance.next

theorem execLockDiscrepancy_sound {dt : Nat} {k : Fin 16} (h : Sound s) : SoundNext (execLockDiscrepancy dt k s) := by
  simp only [execLockDiscrepancy]
  refine .ite h.advance.next ?_
  split
  · exact h.advance.next
  · exact .ite h.advance.setLock.post.reMatrix.next h.advance.next

theorem execDelayElementExpiry_sound {dt : Nat} {k : Fin 16} (h : Sound s) : SoundNext (execDelayElementExpiry dt k s) := by
  simp only [execDelayElementExpiry]
  refine .ite h.advance.next ?_
  split
  · exact h.advance.next
  · exact .ite h.advance.setLock.reMatrix.next h.advance.next

theorem execLockDisagree_sound {dt : Nat} (h : Sound s) : SoundNext (execLockDisagree dt s) := by
  unfold execLockDisagree
  extract_lets +onlyGivenNames _
  refine .ite h.advance.next ?_
  refine .ite ?_ h.advance.next
  extract_lets +onlyGivenNames t
  have ht : Sound t := by
    unfold t
    split
    · exact h.advance.post
    · exact h.advance
  exact ht.setLock.reMatrix.next

theorem execSafetyChainOpen_sound {dt : Nat} {k : Fin 12} (h : Sound s) : SoundNext (execSafetyChainOpen dt k s) := by
  simp only [execSafetyChainOpen]
  refine .ite h.advance.next ?_
  split
  · exact h.advance.next
  · exact .ite h.advance.noteWake.setLock.post.bypassStep.reMatrix.next h.advance.next

theorem Sound.imageFails {n : Nat} (h : Sound s) : Sound (s.imageFails n) := h.setLock.post

theorem execLockImageCheck_sound {dt : Nat} {bad1 bad2 : Bool} (h : Sound s) :
    SoundNext (execLockImageCheck dt bad1 bad2 s) := by
  unfold execLockImageCheck
  extract_lets +onlyGivenNames _
  refine .ite h.advance.next (.ite h.advance.next ?_)
  extract_lets +onlyGivenNames t u
  have ht : Sound t := .ite h.advance.imageFails h.advance
  have hu : Sound u := .ite ht.imageFails ht
  exact (Sound.ite hu.reMatrix hu).next

theorem lockLoadHandler_sound {q : Letter} {t : State} (h : Sound t) : Sound (lockLoadHandler.run q t).2 := by
  unfold lockLoadHandler handler
  dsimp -zeta only
  extract_lets +onlyGivenNames _
  refine .iteSnd h ?_
  extract_lets +onlyGivenNames _
  split
  · exact h.eccRead
  extract_lets +onlyGivenNames _ _
  refine .iteSnd h.eccRead ?_
  split
  · exact h.eccRead
  · exact h.eccRead.setLock

theorem lockCommitHandler_sound {q : Letter} {t : State} (h : Sound t) : Sound (lockCommitHandler.run q t).2 := by
  unfold lockCommitHandler handler
  dsimp -zeta only
  refine .iteSnd h (.iteSnd h ?_)
  split
  · exact h
  · exact .iteSnd h h.setLock

theorem Sound.switchImage {b : List Byte} (h : Sound s) : Sound (s.switchImage b) := h.setLock

theorem execLockCommitted_sound {dt : Nat} {bad : Bool} (h : Sound s) : SoundNext (execLockCommitted dt bad s) := by
  simp only [execLockCommitted]
  refine .ite h.advance.next ?_
  split
  · exact h.advance.next
  refine .ite h.advance.next (.ite h.advance.setLock.complete.next ?_)
  exact .ite h.advance.setLock.complete.next h.advance.switchImage.post.complete.next

theorem lockTestHandler_sound {q : Letter} {t : State} (h : Sound t) : Sound (lockTestHandler.run q t).2 := by
  unfold lockTestHandler handler
  dsimp -zeta only
  refine .iteSnd h ?_
  split
  · exact h
  · exact .iteSnd (.iteSnd h h) (.iteSnd h (.iteSnd h h.setLock))

theorem execStoTestStep_sound {dt : Nat} (h : Sound s) : SoundNext (execStoTestStep dt s) := by
  simp only [execStoTestStep]
  refine .ite h.advance.next ?_
  split
  · refine .ite h.advance.next (.ite h.advance.setLock.post.stoTestEnd.gateStep.next ?_)
    exact .ite h.advance.setLock.gateStep.next h.advance.setLock.stoTestEnd.gateStep.next
  · exact h.advance.next

theorem execStoTestDue_sound {dt : Nat} (h : Sound s) : SoundNext (execStoTestDue dt s) := by
  simp only [execStoTestDue]
  refine .ite h.advance.next ?_
  split
  · exact .ite h.advance.setLock.post.next h.advance.next
  · exact h.advance.next

theorem Sound.causeClear {v : Nat} (h : Sound s) : Sound (s.causeClear v) := .ite h h.setLock.post

theorem Sound.imageLoad {img : Option (List Byte)} (h : Sound s) : Sound (s.imageLoad img) := by
  unfold State.imageLoad
  split
  · exact h
  · exact h.switchImage

/-! #### The lanes -/

theorem Sound.setLane {l : LaneSt} (h : Sound s) : Sound (s.setLane l) := h.kept (by rfl)

theorem Sound.gapBegins (h : Sound s) : Sound s.gapBegins := h.kept (by rfl)

theorem Sound.sealCut (h : Sound s) : Sound s.sealCut := .ite h.setLane h

theorem execParcelSeal_sound {dt : Nat} {units : Fin 512} (h : Sound s) : SoundNext (execParcelSeal dt units s) := by
  simp only [execParcelSeal]
  refine .ite h.advance.next ?_
  split
  · exact h.advance.next
  · exact .ite h.advance.eccClear.setLane.next h.advance.next

theorem Sound.sealTick (h : Sound s) : Sound s.sealTick := (Sound.ite h.setLane.post h).setLane

theorem Sound.heartbeat {arrives : Bool} (h : Sound s) : Sound (s.heartbeat arrives) := by
  simp only [State.heartbeat]
  split
  · exact h
  refine .ite h ?_
  split
  · exact .ite (.ite h.setLane.post h.setLane) h.setLane
  · exact h.setLane

theorem Sound.wdogTick {service : Bool} (h : Sound s) : Sound (s.wdogTick service) := .ite h.setLane h

theorem Sound.laneTick {arrives service : Bool} (h : Sound s) : Sound (s.laneTick arrives service) :=
  h.heartbeat.sealTick.wdogTick.setLane.flushDeferred

theorem execParcelStale_sound {dt : Nat} (h : Sound s) : SoundNext (execParcelStale dt s) := by
  simp only [execParcelStale]
  refine .ite h.advance.next ?_
  split
  · exact h.advance.next
  · exact .ite h.advance.setLane.post.post.next h.advance.next

theorem Sound.countFault {b : Bool} (h : Sound s) : Sound (s.countFault b) := h.setLane

theorem Sound.afterFault {b : Bool} (h : Sound s) : Sound (s.afterFault b) := .ite h.setLane.post h.setLane

theorem Sound.noLane {why : Nat} (h : Sound s) : Sound (s.noLane why) := by
  simp only [State.noLane]
  refine Sound.doorSwitch ?_
  refine Sound.gapBegins ?_
  refine .ite (.ite h.setLane.post h.setLane.post.afterFault) ?_
  exact (Sound.ite h.setLane.post h.setLane.post.afterFault).afterFault

theorem Sound.watchDrop (h : Sound s) : Sound s.watchDrop := .ite h.setLane.complete h.setLane

theorem Sound.laneFails {b : Bool} (h : Sound s) : Sound (s.laneFails b) :=
  (Sound.ite h.sealCut.countFault.gapBegins.setLane h.sealCut.countFault.gapBegins.noLane).watchDrop

theorem Sound.laneWord {word : Option Nat} (h : Sound s) : Sound (s.laneWord word) := by
  unfold State.laneWord
  split
  · exact h.eccFound
  · exact h

theorem execLaneFault_sound {dt : Nat} {x : LaneFaultIn} (h : Sound s) : SoundNext (execLaneFault dt x s) := by
  simp only [execLaneFault]
  refine .ite h.advance.next (.ite h.advance.next ?_)
  split
  · exact .ite h.advance.laneWord.post.laneFails.next h.advance.next
  split
  · refine .ite h.advance.next ?_
    refine .ite h.advance.laneWord.post.countFault.setLane.afterFault.complete.flushDeferred.next ?_
    exact h.advance.laneWord.post.countFault.noLane.next
  · exact h.advance.next

theorem execWdogExpired_sound {dt : Nat} (h : Sound s) : SoundNext (execWdogExpired dt s) := by
  simp only [execWdogExpired]
  refine .ite h.advance.next ?_
  split
  · exact .ite h.advance.post.laneFails.next h.advance.next
  · exact h.advance.next

theorem Sound.replayRead {n j : Nat} (h : Sound s) : Sound (s.replayRead n j).2 := by
  induction n generalizing s j with
  | zero => exact h
  | succ n ih => exact .iteSnd h.eccRead (ih h.eccRead)

theorem Sound.takeLoad {k : Nat} {replayBad : Bool} {x : Bool × Parcel} (h : Sound s) :
    Sound (s.takeLoad k replayBad x).2 := .iteSnd h (.iteSnd h.eccRead h.eccRead.replayRead)

theorem Sound.takeDecision {x : Handover} {bad0 bad1 replayBad : Bool} {errs : List Nat} (h : Sound s) :
    Sound (s.takeDecision x bad0 bad1 replayBad errs).2 := by
  unfold State.takeDecision
  refine .iteSnd h (.iteSnd h ?_)
  extract_lets hd pick t u
  have hu : Sound u := (Sound.foldl h fun h => h.putHard).eccRead.eccRead
  split
  · exact hu
  next l _ =>
  have hl : Sound (u.takeLoad x.epoch replayBad l).2 := hu.takeLoad
  split <;> rename_i heq <;> rw [heq] at hl
  · exact hl
  split
  · exact hl
  next v _ y _ =>
  have hy : Sound (v.takeLoad x.epoch replayBad y).2 := Sound.takeLoad hl
  split <;> rename_i heq' <;> rw [heq'] at hy <;> exact hy

theorem Sound.grantRole {b kind : Bool} {reason : Nat} {hand : Handover} {len : Nat} (h : Sound s) :
    Sound (s.grantRole b kind reason hand len) :=
  h.setLane

theorem Sound.failAll (h : Sound s) : Sound s.failAll := (h.kept (by rfl)).foldl fun h => h.finalReceipt

theorem Sound.stopLetters (h : Sound s) : Sound s.stopLetters :=
  .ite (h.foldl fun h => .ite h.post5 h).post5 (h.foldl fun h => .ite h.post5 h)

theorem Sound.takeoverStop {reason : Nat} (h : Sound s) : Sound (s.takeoverStop reason) :=
  (h.setLane.post.failAll.kept (by rfl)).stopLetters

theorem execTakeover_sound {dt : Nat} {bad0 bad1 : Bool} {replay : ReplayIn} (h : Sound s) :
    SoundNext (execTakeover dt bad0 bad1 replay s) := by
  unfold execTakeover
  extract_lets t
  have ht : Sound t := h.advance
  clear_value t
  refine .ite ht.next ?_
  split
  · exact ht.next
  next hand _ =>
  extract_lets dest d x n due reason
  have hd : Sound d.2 := ht.takeDecision
  clear_value dest d
  cases dest with
  | none => exact ht.next
  | some b =>
    refine .ite ht.next ?_
    extract_lets faulted t1 lane t2 t3
    have h2 : Sound t2 := hd.grantRole.setLane
    have h3 : Sound t3 := .ite h2.afterFault h2
    clear_value t3
    clear_value x
    cases x with
    | ok p => exact h3.setLane.post.flushDeferred.next
    | error r => exact h3.post.takeoverStop.next

theorem execStandbyReady_sound {dt : Nat} {laneB : Bool} {failed : Fin 4} (h : Sound s) :
    SoundNext (execStandbyReady dt laneB failed s) := by
  simp only [execStandbyReady]
  refine .ite h.advance.next (.ite h.advance.next ?_)
  exact .ite h.advance.setLane.post.next (.ite h.advance.setLane.post.next h.advance.next)

theorem execStileFault_sound {dt : Nat} (h : Sound s) : SoundNext (execStileFault dt s) := by
  simp only [execStileFault]
  exact .ite h.advance.next (.ite h.advance.next h.advance.sealCut.setLane.post.gapBegins.doorSwitch.next)

theorem watchChangeHandler_sound {q : Letter} {t : State} (h : Sound t) : Sound (watchChangeHandler.run q t).2 :=
  .iteSnd h (.iteSnd h h.setLane)

theorem watchSetHandler_sound {q : Letter} {t : State} (h : Sound t) : Sound (watchSetHandler.run q t).2 := h.setFld.setFld

theorem execWatchDue_sound {dt : Nat} (h : Sound s) : SoundNext (execWatchDue dt s) :=
  .ite h.advance.next (.ite h.advance.setLane.next h.advance.next)

theorem execWatchChangeStart_sound {dt : Nat} (h : Sound s) : SoundNext (execWatchChangeStart dt s) := by
  simp only [execWatchChangeStart]
  refine .ite h.advance.next ?_
  split
  · exact h.advance.next
  refine .ite h.advance.next ?_
  exact .ite h.advance.watchDrop.next (.ite h.advance.setLane.gapBegins.next h.advance.next)

theorem execWatchChanged_sound {dt : Nat} (h : Sound s) : SoundNext (execWatchChanged dt s) := by
  simp only [execWatchChanged]
  refine .ite h.advance.next ?_
  split
  · exact .ite h.advance.next h.advance.grantRole.setLane.post.complete.flushDeferred.next
  · exact h.advance.next

theorem execWatchSkipped_sound {dt : Nat} (h : Sound s) : SoundNext (execWatchSkipped dt s) := by
  simp only [execWatchSkipped]
  refine .ite h.advance.next ?_
  split
  · exact h.advance.next
  · exact .ite h.advance.setLane.post.next h.advance.next

theorem Sound.laneReset {forget : Bool} (h : Sound s) : Sound (s.laneReset forget) := by
  unfold State.laneReset
  split
  · exact h.setLane
  · exact h

theorem Sound.tkstopClear {v : Nat} (h : Sound s) : Sound (s.tkstopClear v) := .ite h.setLane.post h

/-! #### Arrival of letters -/

theorem Sound.intake {port : Fin 6} {src : Addr} {len : Nat} {b : List Byte} (h : Sound s) :
    Sound (s.intake port src len b) := by
  unfold State.intake
  extract_lets op16 opc cls n total no info k l q w
  have hno (st : Status) (d : Nat) : Sound (no st d s) := h.boxRefuse
  clear_value no info w
  refine .ite (hno _ _) (.ite (hno _ _) ?_)
  cases info with
  | none => exact hno _ _
  | some i =>
    exact .ite (hno _ _) (.ite (hno _ _) (.ite (hno _ _) (.ite (hno _ _) (.ite (h.kept (by rfl)).admitHeld
      (.ite (hno _ _) (.ite (hno _ _) (.ite (hno _ _) (.ite (hno _ _) h.enqueue))))))))

theorem execLetterArrival_sound {dt : Nat} {port : Fin 6} {bytes : List Byte} (h : Sound s) :
    SoundNext (execLetterArrival dt port bytes s) :=
  .ite h.advance.next (Sound.ite h.advance.intake h.advance).next

theorem Sound.hostRegWrite {a : Nat} {b : List Byte} (h : Sound s) : Sound (s.hostRegWrite a b) :=
  .ite (h.kept (by rfl)) (.ite (h.kept (by rfl)) h)

theorem execInboxWrite_sound {dt : Nat} {offset : Fin 65536} {bytes : List Byte} (h : Sound s) :
    SoundNext (execInboxWrite dt offset bytes s) := by
  simp only [execInboxWrite]
  refine .ite h.advance.next (.ite (Sound.ite h.advance.hostRegWrite h.advance).next ?_)
  exact .ite h.advance.next (.ite (h.kept (by rfl)).next (h.kept (by rfl)).next)

theorem execHpPost_sound {dt : Nat} {length : Fin 8192} (h : Sound s) : SoundNext (execHpPost dt length s) := by
  unfold execHpPost
  extract_lets +onlyGivenNames _
  refine .ite h.advance.next (.ite h.advance.next (.ite (h.kept (by rfl)).next ?_))
  extract_lets +onlyGivenNames _ _ t _ _ u
  have ht : Sound t.2 := h.advance.freeUpTo
  have hu : Sound u := ht.kept (by rfl)
  exact hu.intake.next

theorem execHpTake_sound {dt : Nat} {take : Bool} (h : Sound s) : SoundNext (execHpTake dt take s) :=
  .ite h.advance.next (Sound.ite (h.kept (by rfl)) h.advance).next

theorem execHpEvidxWrite_sound {dt : Nat} {rd : Fin 512} (h : Sound s) : SoundNext (execHpEvidxWrite dt rd s) := by
  unfold execHpEvidxWrite
  extract_lets t
  have ht : Sound t := h.advance
  refine .ite ht.next (Sound.next ?_)
  split
  · next hup =>
    obtain ⟨-, hunread⟩ := Bool.and_eq_true_iff.1 hup
    refine ht.ring (by rfl) fun hwf => ?_
    simp only [EvSt.wf, EvSt.unread, Bool.and_eq_true, decide_eq_true_eq] at hwf hunread ⊢
    obtain ⟨⟨⟨hrecs, -⟩, hwr⟩, -⟩ := hwf
    exact ⟨⟨⟨hrecs, rd.isLt⟩, hwr⟩, decide_eq_true hunread⟩
  · exact ht

theorem Sound.reasmDrop {c : Fin 3} {sender : Nat} (h : Sound s) : Sound (s.reasmDrop c sender) := h.kept (by rfl)

theorem Sound.reasmDiscard {c : Fin 3} {sender : Nat} (h : Sound s) : Sound (s.reasmDiscard c sender) :=
  h.reasmDrop.deadLetter

theorem Sound.reasmAdd {r : Reasm} {last : Bool} {data : List Byte} (h : Sound s) : Sound (s.reasmAdd r last data) :=
  .ite h.reasmDrop.intake (h.kept (by rfl))

theorem execCanLetterSegment_sound {dt : Nat} {ctrl : Fin 3} {sender : Fin 64} {dest : Fin 4096} {data : List Byte}
    (h : Sound s) : SoundNext (execCanLetterSegment dt ctrl sender dest data s) := by
  unfold execCanLetterSegment
  refine .ite h.advance.next (.ite h.advance.next ?_)
  extract_lets ctl first last idx rest found late t old u
  have ht : Sound t := .ite h.advance.reasmDiscard h.advance
  have hu : Sound u := .ite ht.reasmDiscard ht
  refine .ite ?_ ?_
  · exact .ite hu.deadLetter.next (.ite hu.deadLetter.next hu.reasmAdd.next)
  · clear hu u
    clear_value old t
    cases old with
    | none => exact ht.next
    | some r => exact .ite ht.reasmAdd.next ht.reasmDiscard.next

theorem execCanReassemblyTimeout_sound {dt : Nat} {ctrl : Fin 3} {sender : Fin 64} (h : Sound s) :
    SoundNext (execCanReassemblyTimeout dt ctrl sender s) := by
  simp only [execCanReassemblyTimeout]
  refine .ite h.advance.next ?_
  split
  · exact (Sound.ite h.advance.reasmDiscard h.advance).next
  · exact h.advance.next

theorem Sound.uartScan {n : Nat} {b : List Byte} (h : Sound s) : Sound (State.uartScan n b s) := by
  induction n generalizing b s with
  | zero => exact h.kept (by rfl)
  | succ n ih =>
    rw [State.uartScan]
    exact .ite (h.kept (by rfl)) (ih h.intake)

theorem Sound.uartDrop (h : Sound s) : Sound s.uartDrop := (h.kept (by rfl)).deadLetter

theorem execUartLetter_sound {dt : Nat} {bytes : List Byte} (h : Sound s) : SoundNext (execUartLetter dt bytes s) :=
  .ite h.advance.next ((Sound.ite h.advance.uartDrop h.advance).kept (by rfl)).uartScan.next

theorem execUartGapTimeout_sound {dt : Nat} (h : Sound s) : SoundNext (execUartGapTimeout dt s) :=
  .ite h.advance.next (Sound.ite h.advance.uartDrop h.advance).next

theorem Sound.endSession (h : Sound s) : Sound s.endSession := h.kept (by rfl)

theorem Sound.sessionChallenge {l : Letter} (h : Sound s) : Sound (s.sessionChallenge l).2 := h.freeWord.kept (by rfl)

theorem Sound.sessionProve {l : Letter} (h : Sound s) : Sound (s.sessionProve l).2 := by
  simp only [State.sessionProve]
  split
  · exact .iteSnd (h.kept (by rfl)) (h.kept (by rfl)).tagFailure
  · exact h.tagFailure

theorem Sound.sessionClose {l : Letter} (h : Sound s) : Sound (s.sessionClose l).2 := by
  unfold State.sessionClose
  split
  · exact h
  · exact .iteSnd h h.endSession

theorem sessionHandler_sound {q : Letter} {t : State} (h : Sound t) : Sound (sessionHandler.run q t).2 := by
  unfold sessionHandler handler
  dsimp -zeta only
  refine .iteSnd h.sessionClose (.iteSnd h ?_)
  split
  · exact h
  · exact .iteSnd h.sessionChallenge h.sessionProve

theorem execSessionTimeout_sound {dt : Nat} (h : Sound s) : SoundNext (execSessionTimeout dt s) := by
  simp only [execSessionTimeout]
  refine .ite h.advance.next ?_
  split
  · exact (Sound.ite h.advance.endSession h.advance).next
  · exact h.advance.next

theorem execSessionLockoutEnd_sound {dt : Nat} (h : Sound s) : SoundNext (execSessionLockoutEnd dt s) := by
  simp only [execSessionLockoutEnd]
  refine .ite h.advance.next ?_
  split
  · exact (Sound.ite (h.kept (by rfl)) h.advance).next
  · exact h.advance.next

/-! #### The car link -/

theorem Sound.setLink {k : LinkSt} (h : Sound s) : Sound (s.setLink k) := h.kept (by rfl)

theorem Sound.segmentSent (h : Sound s) : Sound s.segmentSent := by
  unfold State.segmentSent
  split
  · exact h
  · exact .ite (h.kept (by rfl)).setLink h.setLink

theorem Sound.rxBreak (h : Sound s) : Sound s.rxBreak := by
  unfold State.rxBreak
  split
  · exact h
  · exact .ite h.setLink.setLink h.setLink.deadLetter

theorem Sound.rxSegment {x : LinkIn} (h : Sound s) : Sound (s.rxSegment x) := by
  simp only [State.rxSegment]
  refine .ite h.rxBreak ?_
  split
  · exact .ite h.rxBreak h
  refine .ite (Sound.ite h.rxBreak h).setLink.rxBreak (.ite (Sound.ite h.rxBreak h).setLink.setLink ?_)
  exact .ite (Sound.ite h.rxBreak h).setLink (Sound.ite h.rxBreak h).setLink.intake

theorem Sound.linkOff (h : Sound s) : Sound s.linkOff := h.setLink

theorem Sound.linkFail {detail : Nat} (h : Sound s) : Sound (s.linkFail detail) := h.linkOff.complete

theorem Sound.linkDown {st : Nat} (h : Sound s) : Sound (s.linkDown st) := by
  unfold State.linkDown
  extract_lets +onlyGivenNames _ _ _ t _ _ u _ v
  have ht : Sound t := .ite h.rxBreak (h.rxBreak.kept (by rfl))
  have hu : Sound u := ht.setLink.post
  have hv : Sound v := hu.kept (by rfl)
  split
  · exact .ite hv.endSession hv
  · exact hv

theorem Sound.linkUp (h : Sound s) : Sound s.linkUp := h.setLink.post.complete

theorem Sound.linkSend (h : Sound s) : Sound s.linkSend := (Sound.ite h.segmentSent h).setLink

theorem execCarLinkCycle_sound {x : CycleIn} (h : Sound s) : SoundNext (execCarLinkCycle x s) := by
  unfold execCarLinkCycle
  extract_lets +onlyGivenNames _
  refine .ite h.advance.next ?_
  extract_lets +onlyGivenNames _
  refine .ite h.advance.next ?_
  refine .ite (Sound.ite h.advance.linkDown h.advance.rxBreak).linkOff.complete.complete.next ?_
  refine .ite h.advance.next ?_
  extract_lets +onlyGivenNames _ _ _ _ t
  have ht : Sound t := by
    unfold t
    refine .ite (Sound.ite h.advance.setLink h.advance.setLink.rxBreak).setLink ?_
    exact .ite h.advance.setLink.linkUp h.advance.setLink
  exact ht.linkSend.next

theorem execCarLinkDown_sound {dt : Nat} (h : Sound s) : SoundNext (execCarLinkDown dt s) :=
  .ite h.advance.next (Sound.ite h.advance.linkDown h.advance).next

theorem Sound.linkTime {x : LinkIn} (h : Sound s) : Sound (s.linkTime x) :=
  .ite h.setLink (.ite (.ite h.setLink.stepTime.post h.setLink) h.setLink)

theorem Sound.linkData {x : LinkIn} (h : Sound s) : Sound (s.linkData x) := by
  simp only [State.linkData]
  exact .ite (.ite (h.kept (by rfl)) (.ite (h.kept (by rfl)).post (h.kept (by rfl)).setLink)) h.noteIf.setLink

theorem execCarLinkFrameRx_sound {dt : Nat} {rx : LinkFrameIn} (h : Sound s) : SoundNext (execCarLinkFrameRx dt rx s) := by
  unfold execCarLinkFrameRx
  extract_lets +onlyGivenNames _
  refine .ite h.advance.next ?_
  extract_lets +onlyGivenNames _ _ _ _ _
  refine .ite h.advance.next (.ite (Sound.ite h.advance.setLink.linkFail h.advance.setLink).next ?_)
  refine .ite h.advance.linkFail.next ?_
  extract_lets +onlyGivenNames _ _ _ _ t
  have ht : Sound t := by
    unfold t
    refine .ite (Sound.ite h.advance.setLink.rxBreak h.advance.setLink).linkData.linkTime ?_
    exact (Sound.ite h.advance.setLink.rxBreak h.advance.setLink).linkData
  exact ht.rxSegment.next

theorem linkModeHandler_sound {q : Letter} {t : State} (h : Sound t) : Sound (linkModeHandler.run q t).2 :=
  .iteSnd (.iteSnd h h.setLink) (.iteSnd h (.iteSnd h h.setLink))

theorem execPhyStatusPoll_sound {dt : Nat} {up : Bool} (h : Sound s) : SoundNext (execPhyStatusPoll dt up s) :=
  .ite h.advance.next h.advance.setLink.next

theorem execLinkPhyTimeout_sound {dt : Nat} (h : Sound s) : SoundNext (execLinkPhyTimeout dt s) :=
  .ite h.advance.next (Sound.ite h.advance.linkFail h.advance).next

theorem execLinkSyncTimeout_sound {dt : Nat} (h : Sound s) : SoundNext (execLinkSyncTimeout dt s) :=
  .ite h.advance.next (Sound.ite h.advance.linkFail h.advance).next

theorem Sound.blindStop (h : Sound s) : Sound s.blindStop := h.orderStop

theorem Sound.blindMove {level : Int} {f : BitVec 16} {addr : Word} {segs : List Byte} (h : Sound s) :
    Sound (s.blindMove level f addr segs) := by
  unfold State.blindMove
  split
  · exact .ite h (.ite h.blindStop (Sound.ite h.storeBytes h).setLink.post5)
  · exact .ite h h.blindStop
  · exact h

theorem execBlindLevelling_sound {dt : Nat} {f : BitVec 16} {addr : Word} {segs : List Byte} (h : Sound s) :
    SoundNext (execBlindLevelling dt f addr segs s) := by
  simp only [execBlindLevelling]
  refine .ite h.advance.next (.ite h.advance.next (.ite h.advance.setLink.next ?_))
  split
  · exact h.advance.setLink.setLink.post.blindStop.next
  · exact h.advance.setLink.setLink.post.blindMove.next

theorem execLinkOpenOnLoss_sound {dt : Nat} (h : Sound s) : SoundNext (execLinkOpenOnLoss dt s) :=
  .ite h.advance.next (.ite h.advance.setLink.setDoor.openSoon.next h.advance.next)

theorem execLinkDoorHoldExpiry_sound {dt : Nat} (h : Sound s) : SoundNext (execLinkDoorHoldExpiry dt s) := by
  simp only [execLinkDoorHoldExpiry]
  refine .ite h.advance.next ?_
  split
  · exact h.advance.next
  · exact .ite h.advance.next (Sound.ite h.advance.setLink.closeSoon h.advance.setLink).next

theorem Sound.linkTick (h : Sound s) : Sound s.linkTick := by
  unfold State.linkTick
  extract_lets +onlyGivenNames _ _ _ _ _ _ _ _ t
  have ht : Sound t := .ite h.setLink.complete.orderStop.setDoor h.setLink
  refine .ite ht (.ite ht.setLink ?_)
  refine .ite ?_ ht
  split
  · exact ht.setLink.blindStop
  · exact ht

/-! #### The mills -/

theorem Sound.setMill {m : Fin 4} {q : MillSt} (h : Sound s) : Sound (s.setMill m q) := h.kept (by rfl)

theorem Sound.millTrap {m : Fin 4} {cause adr : Nat} (h : Sound s) : Sound (s.millTrap m cause adr) := h.setMill.post

theorem Sound.millRaise {m : Fin 4} {k : Nat} (h : Sound s) : Sound (s.millRaise m k) := .ite h.setMill h

theorem Sound.millRaiseW {m : Fin 4} {k : Nat} (h : Sound s) : Sound (s.millRaiseW m k) := .ite h.setMill h

theorem Sound.millSticky {m : Fin 4} {k n : Nat} (h : Sound s) : Sound (s.millSticky m k n) :=
  .ite h (Sound.ite h.setMill.post h.setMill).millRaiseW

theorem Sound.millStickyIf {c : Bool} {m : Fin 4} {k n : Nat} (h : Sound s) : Sound (s.millStickyIf c m k n) :=
  .ite h.millSticky h

theorem Sound.millPutWindow {m : Fin 4} {w : Nat} {v : Word} (h : Sound s) : Sound (s.millPutWindow m w v) :=
  .ite (.ite (h.kept (by rfl)) h) (.ite h.setMill h)

theorem Sound.millFetch {m : Fin 4} (h : Sound s) : Sound (fetchEnd (s.millFetch m)) := by
  unfold State.millFetch
  extract_lets q a e w imm
  split
  · exact h
  · split
    · rw [fetchEnd_decode]
      exact h
    · split
      · exact h.eccRead
      · rw [fetchEnd_decode]
        exact h.eccRead.setMill

theorem execMillEventEntry_sound {m : Fin 4} (h : Sound s) : SoundNext (execMillEventEntry m s) := by
  have hfetch : Sound (fetchEnd (s.millFetch m)) := h.millFetch
  simp only [execMillEventEntry]
  refine .ite h.next ?_
  split
  · next heq =>
    rw [heq] at hfetch
    exact (Sound.millTrap hfetch).next
  · exact (Sound.ite h h.setMill).next

theorem execMillTickStart_sound {dt : Nat} (h : Sound s) : SoundNext (execMillTickStart dt s) :=
  .ite h.advance.next (.ite h.advance.next (h.kept (by rfl)).next)

theorem Sound.millOverrun {m : Fin 4} (h : Sound s) : Sound (s.millOverrun m) := .ite h.setMill h.setMill.post.millRaise

theorem Sound.millTick (h : Sound s) : Sound s.millTick := .ite h.millOverrun.millOverrun.millOverrun.millOverrun h

theorem millStartHandler_sound {q : Letter} {t : State} (h : Sound t) : Sound (millStartHandler.run q t).2 :=
  .iteSnd h h.setMill

theorem millStopHandler_sound {q : Letter} {t : State} (h : Sound t) : Sound (millStopHandler.run q t).2 :=
  .iteSnd h h.setMill

theorem millFetchHandler_sound {q : Letter} {t : State} (h : Sound t) : Sound (millFetchHandler.run q t).2 :=
  .iteSnd h (h.kept (by rfl))

theorem Sound.millFlagsClear {m : Fin 4} {v : Nat} (h : Sound s) : Sound (s.millFlagsClear m v) := h.setMill

theorem Sound.millSig {m : Fin 4} {v : Nat} (h : Sound s) : Sound (s.millSig m v) := .ite h.millRaise h

/-! #### Resets and boot -/

theorem Sound.setPwr {p : PwrSt} (h : Sound s) : Sound (s.setPwr p) := h.kept (by rfl)

theorem Sound.setFlash {f : FlashSt} (h : Sound s) : Sound (s.setFlash f) := h.kept (by rfl)

theorem Sound.moduleReset {cause : Nat} {phase : Phase} (_ : Sound s) : Sound (s.moduleReset cause phase) :=
  Sound.of_reset (by rfl)

theorem execPowerOnReset_sound {dt : Nat} (_ : Sound s) : SoundNext (execPowerOnReset dt s) :=
  Sound.next (Sound.of_reset (by rfl))

theorem execBrownOut_sound {dt vlog vkeep : Nat} (h : Sound s) : SoundNext (execBrownOut dt vlog vkeep s) :=
  .ite h.advance.setPwr.moduleReset.next h.advance.next

theorem execResetPin_sound {dt : Nat} (h : Sound s) : SoundNext (execResetPin dt s) := h.advance.moduleReset.next

theorem execSupplyStable_sound {dt : Nat} {x : SupplyIn} (h : Sound s) : SoundNext (execSupplyStable dt x s) :=
  .ite h.advance.next (.ite h.advance.setPwr.next h.advance.setPwr.next)

theorem execModuleResetSequence_sound {dt : Nat} {straps : Vector (BitVec 2) 3} (h : Sound s) :
    SoundNext (execModuleResetSequence dt straps s) := by
  simp only [execModuleResetSequence]
  exact .ite h.advance.next (.ite (h.kept (by rfl)).setPwr.next (h.kept (by rfl)).setPwr.setLane.post.next)

theorem Sound.loadRecord {r : List (Nat × Word)} (h : Sound s) : Sound (s.loadRecord r) := by
  have hput (a : Nat) (o : Option Nat) {t : State} (ht : Sound t) :
      Sound (match o with | some v => t.setFld a 8 8 v | none => t) := by
    cases o
    · exact ht
    · exact ht.setFld
  unfold State.loadRecord
  extract_lets f s1 put s2 period c q s3
  have h1 : Sound s1 := h.kept (by rfl)
  have h2 : Sound s2 := hput _ _ (hput _ _ (hput _ _ h1))
  have h3 : Sound s3 := h2.kept (by rfl)
  exact .ite h3.post h3

theorem Sound.checkTick (h : Sound s) : Sound s.checkTick := .ite (h.kept (by rfl)).setFld.post (h.kept (by rfl))

theorem Sound.loadImage {img : Option (List Byte)} {bad : Bool} (h : Sound s) : Sound (s.loadImage img bad) := by
  unfold State.loadImage
  split
  · exact h
  · exact .ite h.imageFails h.imageLoad

theorem Sound.mainsShed (h : Sound s) : Sound s.mainsShed := h.foldl fun h => .ite h.setPwr.outRefresh.post h

theorem Sound.bootEvents (h : Sound s) : Sound s.bootEvents := by
  unfold State.bootEvents
  extract_lets +onlyGivenNames _ _ t u _
  have ht : Sound t := by
    unfold t
    split
    · exact h.post.post
    · exact h.post
  have hu : Sound u := by
    unfold u
    split
    · exact ht.post
    · exact ht
  exact (Sound.ite hu.post hu).setPwr.setFlash

theorem Sound.bootMains (h : Sound s) : Sound s.bootMains := .ite h.post.mainsShed h

theorem Sound.bootLanes {aFails : Bool} (h : Sound s) : Sound (s.bootLanes aFails) := .ite h.setLane h

theorem Sound.postStored {q : List Queued} (h : Sound s) : Sound (s.postStored q) := (h.kept (by rfl)).admitHeld

theorem Sound.senseStart (h : Sound s) : Sound s.senseStart := by
  unfold State.senseStart
  extract_lets +onlyGivenNames _ t
  have ht : Sound t := by
    unfold t
    refine .ite (.ite (.ite h h.encStart) (Sound.ite h h.encStart).encStart) ?_
    exact (Sound.ite (.ite h h.encStart) (Sound.ite h h.encStart).encStart).encStart
  exact ht.kept (by rfl)

theorem Sound.bootFrom {b : Fin 2} {fallback imageBad aFails : Bool} (h : Sound s) :
    Sound (s.bootFrom b fallback imageBad aFails) := by
  unfold State.bootFrom
  extract_lets +onlyGivenNames _ _ _ _ _ _ _ t _ _
  have ht : Sound t := by
    unfold t
    exact .ite h.loadRecord.checkTick.senseStart.setFlash.setPwr.post h.loadRecord.checkTick.senseStart.setFlash.setPwr
  exact (Sound.ite ht.post ht).loadImage.bootLanes.bootEvents.bootMains.postStored

theorem Sound.recover {aFails : Bool} (h : Sound s) : Sound (s.recover aFails) :=
  h.loadRecord.checkTick.senseStart.setPwr.bootLanes.post.bootEvents.bootMains

theorem execBoot_sound {dt : Nat} {imageBad aFails : Bool} (h : Sound s) : SoundNext (execBoot dt imageBad aFails s) := by
  simp only [execBoot]
  refine .ite h.advance.next ?_
  split
  · exact h.advance.setFlash.bootFrom.next
  · exact h.advance.setFlash.recover.next

theorem execBootDone_sound {dt : Nat} (h : Sound s) : SoundNext (execBootDone dt s) :=
  .ite h.advance.setPwr.post.next h.advance.next

theorem moduleResetHandler_sound {q : Letter} {t : State} (h : Sound t) : Sound (moduleResetHandler.run q t).2 := by
  unfold moduleResetHandler handler
  dsimp -zeta only
  refine .iteSnd h (.iteSnd h.setPwr ?_)
  split
  · exact h
  · exact h.laneReset

theorem Sound.resetIfDue {port : Fin 6} (h : Sound s) : Sound (s.resetIfDue port) := .ite h.setPwr.portSent.moduleReset h

/-! #### Images and configuration -/

theorem configSaveHandler_sound {q : Letter} {t : State} (h : Sound t) : Sound (configSaveHandler.run q t).2 := by
  unfold configSaveHandler handler
  dsimp -zeta only
  split
  · exact h
  · exact .iteSnd h (.iteSnd h h.freeUpTo.setFlash)

theorem execConfigSaveDone_sound {dt : Nat} {ok : Bool} (h : Sound s) : SoundNext (execConfigSaveDone dt ok s) := by
  simp only [execConfigSaveDone]
  refine .ite h.advance.next ?_
  split
  · exact h.advance.next
  · exact .ite h.advance.setFlash.complete.next h.advance.setFlash.complete.next

theorem imageWriteHandler_sound {q : Letter} {t : State} (h : Sound t) : Sound (imageWriteHandler.run q t).2 :=
  .iteSnd h (.iteSnd h (.iteSnd h (h.kept (by rfl)).setFlash))

theorem execFlashProgramDone_sound {dt : Nat} (h : Sound s) : SoundNext (execFlashProgramDone dt s) :=
  .ite h.advance.next h.advance.setFlash.next

theorem imageVerifyHandler_sound {q : Letter} {t : State} (h : Sound t) : Sound (imageVerifyHandler.run q t).2 :=
  .iteSnd h h.setFlash

theorem execImageVerifyDone_sound {dt : Nat} (h : Sound s) : SoundNext (execImageVerifyDone dt s) := by
  simp only [execImageVerifyDone]
  refine .ite h.advance.next ?_
  split
  · exact h.advance.next
  split
  · exact h.advance.setFlash.complete.next
  · exact h.advance.setFlash.setFlash.complete.next

theorem imageActivateHandler_sound {q : Letter} {t : State} (h : Sound t) : Sound (imageActivateHandler.run q t).2 :=
  .iteSnd h h.setFlash

theorem Sound.keyctl {v : Nat} (h : Sound s) : Sound (s.keyctl v) := h.setFlash

theorem lcTransitionHandler_sound {q : Letter} {t : State} (h : Sound t) : Sound (lcTransitionHandler.run q t).2 :=
  .iteSnd h (.iteSnd h (.iteSnd h (.iteSnd h (.iteSnd h h.setFlash))))

theorem execLcRecordWritten_sound {dt : Nat} (h : Sound s) : SoundNext (execLcRecordWritten dt s) := by
  simp only [execLcRecordWritten]
  refine .ite h.advance.next ?_
  split
  · exact h.advance.next
  · exact h.advance.setFlash.complete.portSent.moduleReset.next

/-! #### The letters of the loop engine -/

theorem loopConfigHandler_sound {q : Letter} {t : State} (h : Sound t) : Sound (loopConfigHandler.run q t).2 := by
  unfold loopConfigHandler handler
  dsimp -zeta only
  extract_lets +onlyGivenNames _ _ _
  refine .iteSnd h (.iteSnd h.setSlot ?_)
  extract_lets +onlyGivenNames _
  split
  · exact h.eccRead
  extract_lets +onlyGivenNames _ _
  split
  · exact h.eccRead
  refine .iteSnd h.eccRead ?_
  split
  · exact h.eccRead
  · exact h.eccRead.setSlot

theorem loopModeHandler_sound {q : Letter} {t : State} (h : Sound t) : Sound (loopModeHandler.run q t).2 :=
  .iteSnd h (.iteSnd h (.iteSnd h (.iteSnd h h.setSlot)))

theorem coefBankHandler_sound {q : Letter} {t : State} (h : Sound t) : Sound (coefBankHandler.run q t).2 := by
  unfold coefBankHandler handler
  dsimp -zeta only
  extract_lets +onlyGivenNames _ _ _ _
  refine .iteSnd h (.iteSnd h ?_)
  extract_lets +onlyGivenNames _
  split
  · exact h.eccRead
  extract_lets +onlyGivenNames _ _
  split
  · exact h.eccRead
  extract_lets +onlyGivenNames _
  split
  · exact h.eccRead
  · exact .iteSnd h.eccRead.setSlot h.eccRead.setSlot

theorem Sound.regionSets {mask : Nat} {t : List (Int × Nat)} (h : Sound s) : Sound (s.regionSets mask t).2 := by
  simp only [State.regionSets]
  refine h.foldlSnd fun h => ?_
  refine h.foldlSnd fun h => ?_
  split
  · exact h
  split
  · exact h.eccRead
  split <;> exact h.eccRead

theorem schedSetHandler_sound {q : Letter} {t : State} (h : Sound t) : Sound (schedSetHandler.run q t).2 := by
  unfold schedSetHandler handler
  dsimp -zeta only
  extract_lets +onlyGivenNames _ _ _
  refine .iteSnd h (.iteSnd (h.kept (by rfl)) ?_)
  extract_lets +onlyGivenNames _ _ _
  split
  · exact h.eccRead
  extract_lets +onlyGivenNames _
  split
  · exact h.eccRead
  extract_lets +onlyGivenNames _ _
  split
  · exact h.eccRead.regionSets
  · exact h.eccRead.regionSets
  · exact (h.eccRead.regionSets.kept (by rfl)).loadBanks

theorem injectHandler_sound {q : Letter} {t : State} (h : Sound t) : Sound (injectHandler.run q t).2 :=
  .iteSnd h (.iteSnd h h.setSlot)

theorem captureHandler_sound {q : Letter} {t : State} (h : Sound t) : Sound (captureHandler.run q t).2 :=
  .iteSnd h (.iteSnd h (h.kept (by rfl)))

theorem Sound.coefWrite {i : Fin 16} {b : Bool} {k : Nat} {v : Int} {t : State} (h : Sound s)
    (hwrite : s.coefWrite i b k v = .ok t) : Sound t := by
  unfold State.coefWrite at hwrite
  extract_lets q live c sec at hwrite
  clear_value live c
  (repeat' split at hwrite) <;> cases hwrite <;> exact h.setSlot

theorem Sound.loopAfter {a old v : Nat} (h : Sound s) : Sound (s.loopAfter a old v) :=
  .ite (.ite h.setSlot h) (.ite (.ite (h.kept (by rfl)) h) (.ite (h.kept (by rfl)) h))

/-! #### Power -/

theorem powerModeHandler_sound {q : Letter} {t : State} (h : Sound t) : Sound (powerModeHandler.run q t).2 := by
  unfold powerModeHandler handler
  dsimp -zeta only
  split
  · exact h
  · exact h.setPwr

theorem Sound.parkLink (h : Sound s) : Sound s.parkLink := by
  simp only [State.parkLink]
  refine .ite h (.ite (Sound.ite h.linkDown h.rxBreak).linkOff.complete.complete.setPwr ?_)
  exact (Sound.ite h.linkDown h.rxBreak).linkOff.complete.complete.setPwr.post

theorem Sound.parkCan {c : Fin 3} (h : Sound s) : Sound (s.parkCan c) := .ite h.setPwr.canState h.setPwr

theorem Sound.parkBlocks (h : Sound s) : Sound s.parkBlocks := h.parkLink.parkCan.parkCan.parkCan.doorSwitch

theorem Sound.sleepBlocks (h : Sound s) : Sound s.sleepBlocks := h.setPwr.setFio.outRefresh

theorem Sound.unparkCan {c : Fin 3} (h : Sound s) : Sound (s.unparkCan c) := .ite h.canState h

theorem Sound.unpark (h : Sound s) : Sound s.unpark :=
  .ite h.unparkCan.unparkCan.unparkCan.setPwr.post5 h.unparkCan.unparkCan.unparkCan

theorem Sound.unsleep (h : Sound s) : Sound s.unsleep := (h.laneReset.kept (by rfl)).setPwr.setFio.outRefresh

theorem Sound.wake {src : Nat} (h : Sound s) : Sound (s.wake src) := by
  simp only [State.wake]
  refine .ite h (.ite h.setPwr.moduleReset ?_)
  refine .ite (.ite h.setPwr.setPwr.post.unsleep h.setPwr.setPwr.post) ?_
  exact (Sound.ite h.setPwr.setPwr.post.unsleep h.setPwr.setPwr.post).unpark

theorem execWake_sound {dt : Nat} {src : Fin 14} (h : Sound s) : SoundNext (execWake dt src s) := by
  simp only [execWake]
  refine .ite h.advance.next ?_
  exact .ite h.advance.next (.ite h.advance.wake.next h.advance.freeUpTo.wake.next)

theorem execPowerModeEntry_sound {dt : Nat} (h : Sound s) : SoundNext (execPowerModeEntry dt s) := by
  unfold execPowerModeEntry
  extract_lets +onlyGivenNames _
  refine .ite h.advance.next ?_
  split
  · exact h.advance.next
  refine .ite h.advance.next ?_
  extract_lets +onlyGivenNames _ t u v
  have ht : Sound t := h.advance.setPwr
  have hu : Sound u := .ite ht.parkBlocks ht
  have hv : Sound v := .ite hu.sleepBlocks hu
  exact (Sound.ite hv hv.wake).next

theorem Sound.idleTick (h : Sound s) : Sound s.idleTick := by
  unfold State.idleTick
  refine .ite ?_ h.setPwr
  split
  · exact h
  · exact h.setPwr

theorem execIdleTimeout_sound {dt : Nat} (h : Sound s) : SoundNext (execIdleTimeout dt s) := by
  simp only [execIdleTimeout]
  refine .ite h.advance.next ?_
  split
  · exact .ite h.advance.setPwr.post5.next h.advance.next
  · exact h.advance.next

theorem execMainsLoss_sound {dt : Nat} {vlog : Vector Nat 4} {vkeep : Nat} {low : Vector Bool 4} (h : Sound s) :
    SoundNext (execMainsLoss dt vlog vkeep low s) := by
  simp only [execMainsLoss]
  refine .ite ?_ h.advance.next
  refine .ite h.advance.setPwr.next ?_
  exact .ite h.advance.setPwr.wake.next h.advance.setPwr.post.wake.mainsShed.next

theorem execMainsRestored_sound {dt vlog : Nat} {x : MainsIn} (h : Sound s) : SoundNext (execMainsRestored dt vlog x s) :=
  .ite (.ite h.advance.setPwr.next h.advance.setPwr.post.next) h.advance.next

theorem execVkeepLow_sound {dt : Nat} {mv : Vector Nat 4} (h : Sound s) : SoundNext (execVkeepLow dt mv s) :=
  .ite h.advance.next (.ite h.advance.setPwr.setPwr.post.next h.advance.setPwr.next)

theorem execVkeepRecovered_sound {dt : Nat} {mv : Vector Nat 4} (h : Sound s) : SoundNext (execVkeepRecovered dt mv s) :=
  .ite h.advance.next h.advance.setPwr.next

theorem execRescueAutoStart_sound {dt : Nat} (h : Sound s) : SoundNext (execRescueAutoStart dt s) := by
  simp only [execRescueAutoStart]
  refine .ite h.advance.next ?_
  split
  · exact .ite h.advance.setPwr.post5.next h.advance.next
  · exact h.advance.next

theorem Sound.rescueGo {i : Nat} {level : Int} (h : Sound s) : Sound (s.rescueGo i level) :=
  h.setPwr.setRamp.post.post5.post5

theorem rescueStartHandler_sound {q : Letter} {t : State} (h : Sound t) : Sound (rescueStartHandler.run q t).2 := by
  unfold rescueStartHandler handler
  dsimp -zeta only
  refine .iteSnd h (.iteSnd h (.iteSnd h (.iteSnd h ?_)))
  split
  · exact h
  · exact h.rescueGo

theorem Sound.rescueEnd {st : Status} {detail further stat : Nat} (h : Sound s) :
    Sound (s.rescueEnd st detail further stat) := by
  unfold State.rescueEnd
  split
  · exact h
  · exact h.setPwr.complete.post5

theorem execRescueLevelCheck_sound {dt : Nat} (h : Sound s) : SoundNext (execRescueLevelCheck dt s) := by
  simp only [execRescueLevelCheck]
  refine .ite h.advance.next ?_
  split
  · exact h.advance.next
  split
  · exact h.advance.next
  · exact h.advance.rescueEnd.next
  · exact .ite h.advance.rescueEnd.next (.ite h.advance.rescueEnd.next h.advance.next)

theorem execClockFault_sound {dt : Nat} {source : Fin 3} (h : Sound s) : SoundNext (execClockFault dt source s) :=
  .ite h.advance.setPwr.post.next h.advance.setPwr.moduleReset.next

theorem execEncPwrFault_sound {dt ma : Nat} (h : Sound s) : SoundNext (execEncPwrFault dt ma s) :=
  .ite h.advance.next (.ite h.advance.setPwr.post.next h.advance.next)

theorem Sound.encPower (h : Sound s) : Sound s.encPower := by
  simp only [State.encPower]
  refine .ite h.setPwr ?_
  split
  · exact h
  · exact h.setPwr

theorem execOvertemp_sound {dt : Nat} {fieldDie : Bool} {temp : Int} (h : Sound s) :
    SoundNext (execOvertemp dt fieldDie temp s) :=
  .ite h.advance.next (Sound.ite h.advance.setPwr.post h.advance.setPwr).next

/-! #### Reading registers -/

theorem Sound.readReg {a : Nat} (h : Sound s) : Sound (s.readReg a).2 := by
  unfold State.readReg
  refine .iteSnd (h.kept (by rfl)) ?_
  split
  · exact h.kept (by rfl)
  · exact h

theorem Sound.readClear {a : Nat} (h : Sound s) : Sound (s.readClear a) := by
  unfold State.readClear
  refine .ite (h.kept (by rfl)) (.ite h (.ite ?can (.ite ?mill ?rest)))
  case can => exact .ite h.setCan (.ite h.setCan h)
  case mill => exact .ite h.setMill (.ite h.setMill h)
  case rest =>
    split
    · exact h.kept (by rfl)
    · exact h.ring (by rfl) fun hwf => hwf
    · exact h.kept (by rfl)
    · exact h.setGroup
    · exact h.setGroup
    · exact h.setLock
    · exact h.setLane
    · exact h.setFio
    · exact h.setLink
    · exact h

/-! #### Writing registers -/

theorem Sound.writeHi {a v m : Nat} (h : Sound s) : Sound (s.writeHi a v m).2 := by
  unfold State.writeHi
  extract_lets lo p u
  have hu : Sound u := h.kept (by rfl)
  exact .iteSnd hu (.iteSnd hu hu.setPair)

theorem Sound.writeLand {new m : Nat} (h : Sound s) : Sound (s.writeLand new m).2 := by
  unfold State.writeLand
  extract_lets k t e u ws ls rising
  refine .iteSnd h.setReg (.iteSnd h ?_)
  have hu : Sound u := h.eccRead
  split
  · exact hu
  · exact .iteSnd (Sound.kept (hu.setReg (a := 0x40824) (v := new)) (by rfl)) hu

theorem Sound.afterWrite {a old new m : Nat} (h : Sound s) : Sound (s.afterWrite a old new m) := by
  unfold State.afterWrite
  refine .ite (.ite h.setFlash h) (.ite (.ite h.setFlash h) ?_)
  refine .ite (.ite h.setFlash h) (.ite (.ite h.encDisable (.ite h.encEnable h)) ?_)
  refine .ite (.ite (h.kept (by rfl)) (.ite (h.kept (by rfl)) h)) ?_
  exact .ite h.sdSwitch.sdSwitch.sdSwitch (.ite h.encPower (.ite h.invAct h.loopAfter))

theorem Sound.writeSpecial {a v m : Nat} (h : Sound s) : SoundWrite (s.writeSpecial a v m) := by
  unfold State.writeSpecial
  extract_lets w k b c
  refine .ite ?stage <| .ite ?keyctl <| .ite ?coef <| .ite ?trip <| .ite ?enc <| .ite ?door <| .ite ?cause <|
    .ite ?user <| .ite ?tkstop <| .ite ?flags <| .ite ?sig <| .ite ?link <| .ite ?canLock <| .ite ?resetCause .none
  case stage => exact Sound.written h.setFlash
  case keyctl => exact .ite (Sound.written h) (Sound.written h.keyctl)
  case coef =>
    split
    · exact Sound.written h
    split
    · exact Sound.written h
    · next hwrite => exact Sound.written (h.coefWrite hwrite)
  case trip => exact Sound.written (.iteSnd (.iteSnd (h.kept (by rfl)) h) h)
  case enc => exact Sound.written (.iteSnd (.iteSnd h.encFaultClear h) h)
  case door => exact Sound.written (.iteSnd (.iteSnd h.setDoor h) h)
  case cause => exact Sound.written h.causeClear
  case user => exact Sound.written h.setLock
  case tkstop => exact Sound.written (.ite h.tkstopClear h)
  case flags => exact Sound.written h.millFlagsClear
  case sig => exact Sound.written h.millSig
  case link => exact Sound.written (.ite h.linkOffClear h)
  case canLock => exact Sound.written h.lockWrite
  case resetCause => exact Sound.written h.setPwr

theorem Sound.writeEffect {a new v m : Nat} (h : Sound s) : Sound (s.writeEffect a new v m).2 := by
  unfold State.writeEffect
  split
  · next heq => exact h.writeSpecial _ heq
  · exact .iteSnd (h.kept (by rfl)) (.iteSnd h.writeHi (.iteSnd h.writeLand (.iteSnd h h.setReg.afterWrite)))

theorem Sound.writeReg {a v m : Nat} (h : Sound s) : Sound (s.writeReg a v m).2 := by
  unfold State.writeReg
  refine .iteSnd h (.iteSnd h ?_)
  split
  · exact h
  · exact .iteSnd h h.writeEffect

theorem Sound.writeWord {a v : Nat} (h : Sound s) : Sound (s.writeWord a v).2 := by
  unfold State.writeWord
  split
  · exact h
  split
  · exact h.eccFound
  · exact (h.foldl fun h => h.eccCorrect).storeBytes

theorem Sound.writeAt {a v m : Nat} (h : Sound s) : Sound (s.writeAt a v m).2 := .iteSnd h.writeReg h.writeWord

theorem Sound.readAt {a : Nat} (h : Sound s) : Sound (readEnd (s.readAt a)) := by
  unfold State.readAt
  extract_lets e
  split
  · split
    · exact h
    · exact h.readReg
  · split
    · exact h.eccRead.groupWordBad
    · exact h.eccRead

theorem regReadHandler_sound {q : Letter} {t : State} (h : Sound t) : Sound (regReadHandler.run q t).2 := by
  have hread : Sound (readEnd (t.readAt (u32 q.payload 0))) := h.readAt
  simp only [regReadHandler]
  split <;> rename_i heq <;> rw [heq] at hread
  · exact hread
  · exact .ite (Sound.readClear hread) hread

theorem regWriteHandler_sound {q : Letter} {t : State} (h : Sound t) : Sound (regWriteHandler.run q t).2 := by
  show Sound (writeReply 0 _).2
  rw [writeReply_state]
  exact h.writeAt

theorem regModifyHandler_sound {q : Letter} {t : State} (h : Sound t) : Sound (regModifyHandler.run q t).2 := by
  have hread : Sound (readEnd (t.readAt (u32 q.payload 0))) := h.readAt
  simp only [regModifyHandler]
  split <;> rename_i heq <;> rw [heq] at hread
  · exact hread
  · refine .iteSnd ?_ ?_ <;> rw [writeReply_state]
    · exact h.writeAt
    · exact Sound.writeAt hread

/-- The row of a register write keeps a state sound. -/
theorem Sound.writeRow {f : Head} {a : Nat} {v : Word} (h : Sound s) : Sound (s.writeRow f a v) :=
  h.serve regWriteHandler_sound

/-! #### Letters to memory -/

theorem nopHandler_sound {q : Letter} {t : State} (h : Sound t) : Sound (nopHandler.run q t).2 := h

theorem identifyHandler_sound {q : Letter} {t : State} (h : Sound t) : Sound (identifyHandler.run q t).2 := h

theorem Sound.readMem {a n : Nat} (h : Sound s) : Sound (lastState (s.readMem a n)) := by
  unfold State.readMem
  extract_lets e
  split
  · exact h.eccRead.groupWordBad
  · exact h.eccRead

theorem tableReadHandler_sound {q : Letter} {t : State} (h : Sound t) : Sound (tableReadHandler.run q t).2 := by
  have hread : Sound (lastState (t.readMem (u32 q.payload 0) (u32 q.payload 4))) := h.readMem
  simp only [tableReadHandler, handler]
  split <;> rename_i heq <;> rw [heq] at hread <;> exact hread

theorem tableCheckHandler_sound {q : Letter} {t : State} (h : Sound t) : Sound (tableCheckHandler.run q t).2 := by
  have hread : Sound (lastState (t.readMem (u32 q.payload 0) (u32 q.payload 4))) := h.readMem
  simp only [tableCheckHandler, handler]
  split <;> rename_i heq <;> rw [heq] at hread <;> exact hread

theorem Sound.writeMem {a : Nat} {bs : List Byte} (h : Sound s) : Sound (s.writeMem a bs).2 := by
  simp only [State.writeMem]
  refine .iteSnd h ?_
  split
  · exact h
  refine .iteSnd h ?_
  split
  · exact h.eccFound
  · exact (h.foldl fun h => h.eccCorrect).storeBytes

theorem tableWriteHandler_sound {q : Letter} {t : State} (h : Sound t) : Sound (tableWriteHandler.run q t).2 := h.writeMem

theorem tableFillHandler_sound {q : Letter} {t : State} (h : Sound t) : Sound (tableFillHandler.run q t).2 := h.writeMem

theorem abortHandler_sound {q : Letter} {t : State} (h : Sound t) : Sound (abortHandler.run q t).2 := h

/-! #### ABORT -/

theorem Sound.haltDoor (h : Sound s) : Sound s.haltDoor := (Sound.ite h.orderStop h).setDoor.doorTo

theorem Sound.haltRescue (h : Sound s) : Sound s.haltRescue := by
  simp only [State.haltRescue]
  split
  · exact (Sound.ite (h.kept (by rfl)).orderStop (h.kept (by rfl))).setPwr.post5
  · exact .ite (h.kept (by rfl)).orderStop (h.kept (by rfl))

theorem Sound.haltAction {a : Action} (h : Sound s) : Sound (s.haltAction a).2 := by
  cases a with
  | move => exact h.setRamp.untail.orderStop
  | home => exact h.orderStop
  | tail => exact h.setRamp
  | doorOpen | doorClose => exact h.haltDoor
  | inject => exact h.setSlot
  | groupJoin | groupLeave => exact h.setGroup
  | lockCommit => exact h.setLock
  | lockTest2 =>
    dsimp only [State.haltAction]
    exact h.setLock.gateStep
  | watchChange => exact h.setLane
  | canTx => exact h.abortTx
  | linkStart => exact h.linkOff
  | linkStop => exact h.setLink
  | rescue => exact h.haltRescue
  | stop | doorStop | lockTest1 => exact h
  | capture | configSave | imageVerify | lcTransition => exact h.kept (by rfl)

theorem Sound.abortReceipt {q : AbortReq} {st : Status} {detail further : Nat} {pm : Postmark} (h : Sound s) :
    Sound (s.abortReceipt q st detail further pm) :=
  .ite (Sound.ite h.deadLetter h).finalReceipt ((Sound.ite h.deadLetter h).kept (by rfl))

theorem Sound.abortOne {q : AbortReq} (h : Sound s) : Sound (s.abortOne q) := by
  unfold State.abortOne
  split
  · exact h.abortReceipt
  split
  · split
    · exact h.abortReceipt
    · exact h.haltAction.completeIf.abortReceipt
  · split
    · exact h.abortReceipt
    split <;> exact h.abortReceipt

theorem execAbortTakesEffect_sound {dt : Nat} (h : Sound s) : SoundNext (execAbortTakesEffect dt s) :=
  .ite h.advance.next ((h.kept (by rfl)).foldl fun h => h.abortOne).next

/-! #### The door stage -/

theorem Sound.hallStep (h : Sound s) : Sound s.hallStep := .ite h h.setDoor

theorem Sound.brushless {x : DoorIn} (h : Sound s) : Sound (s.brushless x) := h.hallStep.setDoor

theorem Sound.brushed (h : Sound s) : Sound s.brushed := h.setDoor

theorem Sound.stepperDuty {v : Int} (h : Sound s) : Sound (s.stepperDuty v) := h.setDoor

theorem Sound.stepperCount (h : Sound s) : Sound s.stepperCount := h.setDoor

theorem Sound.legacyCount (h : Sound s) : Sound s.legacyCount := h.setDoor

theorem Sound.legacyZero {v : Int} (h : Sound s) : Sound (s.legacyZero v) := h.setDoor

theorem Sound.doorHeat {x : DoorIn} (h : Sound s) : Sound (s.doorHeat x) := .ite h.setDoor h.setDoor

theorem Sound.doorModulate {x : DoorIn} (h : Sound s) : Sound (s.doorModulate x) := by
  unfold State.doorModulate
  split
  · exact h.brushless
  · exact h.stepperCount.stepperDuty
  · exact h.brushed
  · exact h.legacyZero.stepperDuty
  · exact h

theorem execDoorModulatorUpdate_sound {dt : Nat} {x : DoorIn} (h : Sound s) :
    SoundNext (execDoorModulatorUpdate dt x s) := by
  unfold execDoorModulatorUpdate
  extract_lets +onlyGivenNames _
  refine .ite h.advance.next (.ite h.advance.next ?_)
  extract_lets +onlyGivenNames t _ _ u v
  have ht : Sound t := h.advance.encRun
  have hu : Sound u := ht.setDoor.doorHeat
  have hv : Sound v := .ite hu.legacyCount hu
  exact (Sound.ite hv.doorModulate hv.setDoor).next

theorem execLegacyStep_sound {dt : Nat} {x : LegacyIn} (h : Sound s) : SoundNext (execLegacyStep dt x s) :=
  .ite h.advance.next (.ite h.advance.next h.advance.setDoor.next)

/-! #### Mill instructions -/

theorem Sound.millPointer {m : Fin 4} {n : Fin 8} {p : Nat} {fold : Bool} (h : Sound s) : Sound (s.millPointer m n p fold) :=
  h.setMill.millStickyIf

/-! #### Ticks and events of memory and ring -/

theorem Sound.tickBlocks {x : TickIn} (h : Sound s) : Sound (s.tickBlocks x) := by
  unfold State.tickBlocks
  extract_lets s1 s2 s3 mills s4 s5 s6 s7
  have h1 : Sound s1 := h.senseLatch
  have h3 : Sound s3 := (Sound.ite h1.doorPre.rampTicks.loopTick.doorPost h1.doorSwitch).fioTick.lockTick.millTick
  clear_value s3
  have h4 : Sound s4 := h3.kept (by rfl)
  have h5 : Sound s5 := h4.laneTick
  have h7 : Sound s7 := (Sound.ite h5.linkTick h5).idleTick
  clear_value s7
  exact h7.kept (by rfl)

theorem execServoTick_sound {dt : Nat} {x : TickIn} (h : Sound s) : SoundNext (execServoTick dt x s) :=
  .ite h.advance.next (h.kept (by rfl)).tickBlocks.next

theorem execEncFault_sound {dt : Nat} {k : Fin 3} {samples : List EncSample} {lineOk : Bool} (h : Sound s) :
    SoundNext (execEncFault dt k samples lineOk s) :=
  .ite h.advance.next (.ite h.advance.next h.advance.encRun.encLine.next)

theorem Sound.canWordBad {c : Fin 3} {o : Nat} (h : Sound s) : Sound (s.canWordBad c o) := by
  unfold State.canWordBad
  extract_lets +onlyGivenNames _
  refine .ite ?_ ?_
  · extract_lets +onlyGivenNames _
    split
    · exact h.setCan.endTx
    · exact .ite h.setCan h
  · refine .ite ?_ h
    extract_lets +onlyGivenNames _
    split
    · exact h.setCan
    · exact h

theorem Sound.scrubAct {w : Nat} (h : Sound s) : Sound (s.scrubAct w) := by
  unfold State.scrubAct
  refine .ite ?_ (.ite h.millTrap (.ite h.canWordBad (.ite h.memUncorr h.groupWordBad)))
  split
  · exact h.post.laneFails
  · exact h

theorem execScrubberPass_sound {dt addr : Nat} {error : Fin 3} (h : Sound s) :
    SoundNext (execScrubberPass dt addr error s) := by
  simp only [execScrubberPass]
  refine .ite h.advance.next (.ite h.advance.putHard.eccFound.scrubAct.next ?_)
  exact .ite h.advance.eccCorrect.next h.advance.next

theorem execEvtLost_sound {dt : Nat} (h : Sound s) : SoundNext (execEvtLost dt s) := by
  unfold execEvtLost
  extract_lets t
  have ht : Sound t := h.advance
  refine .ite ht.next (.ite (Sound.next ?_) ht.next)
  exact ht.post.ring (by rfl) fun hwf => hwf

end Operations

end Sys2Proof.Machine

/-! ### The mills -/

namespace Sys2Proof.Machine

section Mill

variable {m : Fin 4} {s : State}

theorem Sound.millLoad {y : Bool} {w : Nat} (h : Sound s) : Sound (endState (s.millLoad m y w)) := by
  unfold State.millLoad
  extract_lets seen a e
  split
  · exact h
  · split <;> exact h.eccRead

theorem Sound.millStore {y : Bool} {w : Nat} {v : Word} (h : Sound s) : Sound (endState (s.millStore m y w v)) := by
  unfold State.millStore
  extract_lets a e
  split
  · exact h.millPutWindow
  · split
    · exact h.eccRead
    · exact h.eccRead.storeBytes

/-! #### Outcomes of an instruction -/

theorem Sound.aluOut {d : Option (Fin 16)} {sat c : Bool} {x : Int} (h : Sound s) : Sound (aluOut m d sat x c s).state :=
  h.millStickyIf

theorem Sound.logicOut {d : Fin 16} {w : Word} {c : Bool} (h : Sound s) : Sound (logicOut d w c s).state := h.kept (by rfl)

theorem Sound.accOut {ac : Fin 4} {sat : Bool} {x : Int} (h : Sound s) : Sound (accOut m ac sat x s).state :=
  h.setMill.millStickyIf.millStickyIf

theorem Sound.loadOut {d : Fin 16} {y : Bool} {w : Nat} (h : Sound s) : Sound (loadOut m d y w s).state := by
  have hload : Sound (endState (s.millLoad m y w)) := h.millLoad
  unfold Machine.loadOut
  split <;> rename_i heq <;> rwa [heq] at hload

theorem Sound.storeOut {d : Fin 16} {y : Bool} {w : Nat} (h : Sound s) : Sound (storeOut m d y w s).state := by
  have hstore : Sound (endState (s.millStore m y w (s.mill.mill[m].data[d]))) := h.millStore
  unfold Machine.storeOut
  split <;> rename_i heq <;> rwa [heq] at hstore

/-- An access through an address register, given what the access does at the generated address. -/
theorem Sound.eaOut {y : Bool} {e : MillEa} {f : Nat → State → MillOut} (h : Sound s) (hf : ∀ {a}, Sound (f a s).state) :
    Sound (eaOut m y e f s).state := by
  unfold Machine.eaOut
  split
  · exact h
  · next a p fold _ =>
    have ha : Sound (f a s).state := hf
    split
    · next heq =>
      rw [heq] at ha
      exact Sound.millPointer ha
    · exact ha

/-- An access at an absolute address, given what it does. -/
theorem Sound.absOut {y : Bool} {a : Nat} {f : Nat → State → MillOut} (h : Sound s) (hf : Sound (f a s).state) :
    Sound (absOut y a f s).state := by
  by_cases hout : (if y then 0x5FFF else 0x63FF) < a
  · rw [Machine.absOut, absEa, if_pos hout]
    exact h
  · rwa [absOut_ok f s (Nat.not_lt.1 hout)]

theorem Sound.dualOut {ac : Fin 4} {sat neg : Bool} {x y : MillEa} (h : Sound s) :
    Sound (dualOut m ac sat neg x y s).state := by
  unfold Machine.dualOut
  extract_lets q
  split
  · exact h
  split
  · exact h
  next _ ax px fx _ _ ay py fy _ =>
  have hx : Sound (endState (s.millLoad m false ax)) := h.millLoad
  split <;> rename_i hloadx <;> rw [hloadx] at hx
  · exact hx
  next vx t =>
  have hy : Sound (endState (t.millLoad m true ay)) := Sound.millLoad hx
  split <;> rename_i hloady <;> rw [hloady] at hy
  · exact hy
  next vy u =>
  have hu : Sound u := hy
  exact hu.millPointer.millPointer.accOut

/-- Either of two outcomes. -/
theorem Sound.iteOut {c : Prop} {_ : Decidable c} {o o' : MillOut} (h : Sound o.state) (h' : Sound o'.state) :
    Sound (if c then o else o').state := by
  split <;> assumption

theorem Sound.millFinish {stall n : Nat} {old : MillSt} {o : MillOut} (h : Sound o.state) :
    Sound (State.millFinish m stall n old o) := by
  cases o with
  | trap => exact Sound.millTrap h
  | seq | jump | skip | halt => exact Sound.setMill h

/-- A row keeps a state sound if each outcome of its instructions does. -/
theorem Sound.mill1 {stall : Nat} {pick : MillOp → Option (State → MillOut)} (h : Sound s)
    (hpick : ∀ {o f t}, pick o = some f → Sound t → Sound (f t).state) : SoundNext (s.mill1 m stall pick) := by
  have hfetch : Sound (fetchEnd (s.millFetch m)) := h.millFetch
  refine Sound.next ?_
  unfold State.millRow
  extract_lets q
  refine Sound.ite h ?_
  split
  · next heq =>
    rw [heq] at hfetch
    exact Sound.millTrap hfetch
  next o n t heq =>
  rw [heq] at hfetch
  have ht : Sound t := hfetch
  split
  · exact h
  · next f hf => exact Sound.ite h (Sound.ite ht.millTrap (Sound.millFinish (hpick hf ht.setMill)))

end Mill

end Sys2Proof.Machine

/-! ### Every command -/

namespace Sys2Proof.Machine

/-- Whatever state a command leads to from a sound one is sound. -/
theorem exec_sound {c : Instr} {s : State} (h : Sound s) : SoundNext (exec c s) := by
  cases c with
  | sysBgenWrite | sysTickWrite | letterBudgetWrite | letterShareWrite | positionHiWrite | encFaultClear | ssi0ConfigWrite
  | senseLandCountWrite | loopBankWrite | coefWrite | notchEnWrite | hoistKWrite | hoistTripClear | cogAddrWrite
  | loopMillWrite | loopCapselWrite | doorFaultClear | doorPositionWrite | lockCauseClear | laneTkstopWrite | millFlagsClear
  | millSigWrite | millEvvecWrite | fioLinkoffClear | canLockWrite | canBitTimingWrite | groupCfgWrite | sysKeyctlWrite
  | encPwrRestore =>
    exact h.writeRow.next
  | millNop | millHalt | millMov | millMovi | millMovu | millMovl | millMovad | millB | millRet =>
    refine h.mill1 fun hf ht => ?_
    split at hf <;> cases hf
    exact ht
  | millMovai | millSetb | millSetl | millMovda | millEndl | millClrf =>
    refine h.mill1 fun hf ht => ?_
    split at hf <;> cases hf
    exact ht.setMill
  | millAdd | millSub | millNeg | millAbs | millCmp | millShl | millAddl | millCmpl =>
    refine h.mill1 fun hf ht => ?_
    split at hf <;> cases hf
    exact ht.aluOut
  | millMin | millMax | millAnd | millOr | millXor | millNot | millAndl | millAsr | millLsr =>
    refine h.mill1 fun hf ht => ?_
    split at hf <;> cases hf
    exact ht.logicOut
  | millMpy | millMac | millMsu | millClra | millAccld | millAccadd =>
    refine h.mill1 fun hf ht => ?_
    split at hf <;> cases hf
    exact ht.accOut
  | millMacxy | millMsuxy =>
    refine h.mill1 fun hf ht => ?_
    split at hf <;> cases hf
    exact ht.dualOut
  | millExt =>
    refine h.mill1 fun hf ht => ?_
    split at hf <;> cases hf
    exact ht.millStickyIf
  | millLdx | millLdy =>
    refine h.mill1 fun hf ht => ?_
    split at hf <;> cases hf
    exact ht.eaOut ht.loadOut
  | millStx | millSty =>
    refine h.mill1 fun hf ht => ?_
    split at hf <;> cases hf
    exact ht.eaOut ht.storeOut
  | millLdxa | millLdya =>
    refine h.mill1 fun hf ht => ?_
    split at hf <;> cases hf
    exact ht.absOut ht.loadOut
  | millStxa | millStya =>
    refine h.mill1 fun hf ht => ?_
    split at hf <;> cases hf
    exact ht.absOut ht.storeOut
  | millCall | millRte =>
    refine h.mill1 fun hf ht => ?_
    split at hf <;> cases hf
    exact Sound.iteOut ht ht
  | millLoop =>
    refine h.mill1 fun hf ht => ?_
    split at hf <;> cases hf
    exact Sound.iteOut ht (Sound.iteOut ht (Sound.iteOut ht ht.setMill))
  | powerOnReset => exact execPowerOnReset_sound h
  | brownOut => exact execBrownOut_sound h
  | resetPin => exact execResetPin_sound h
  | supplyStable => exact execSupplyStable_sound h
  | moduleResetSequence => exact execModuleResetSequence_sound h
  | boot => exact execBoot_sound h
  | bootDone => exact execBootDone_sound h
  | servoTick => exact execServoTick_sound h
  | parcelSeal => exact execParcelSeal_sound h
  | currentSample => exact execCurrentSample_sound h
  | overcurrent => exact execOvercurrent_sound h
  | loopSat => exact execLoopSat_sound h
  | brakePickEnd => exact execBrakePickEnd_sound h
  | letterArrival => exact execLetterArrival_sound h
  | hpPost => exact execHpPost_sound h
  | hpTake => exact execHpTake_sound h
  | hpEvidxWrite => exact execHpEvidxWrite_sound h
  | canLetterSegment => exact execCanLetterSegment_sound h
  | canReassemblyTimeout => exact execCanReassemblyTimeout_sound h
  | uartLetter => exact execUartLetter_sound h
  | uartGapTimeout => exact execUartGapTimeout_sound h
  | nop => exact (h.serve nopHandler_sound).next
  | identify => exact (h.serve identifyHandler_sound).next
  | regRead => exact (h.serve regReadHandler_sound).next
  | regWrite => exact (h.serve regWriteHandler_sound).next
  | regModify => exact (h.serve regModifyHandler_sound).next
  | moduleReset | moduleResetLane => exact (h.serve moduleResetHandler_sound).resetIfDue.next
  | configSave => exact (h.serve configSaveHandler_sound).next
  | tableWrite => exact (h.serve tableWriteHandler_sound).next
  | tableRead => exact (h.serve tableReadHandler_sound).next
  | tableCheck => exact (h.serve tableCheckHandler_sound).next
  | tableFill => exact (h.serve tableFillHandler_sound).next
  | moveRun => exact (h.serve moveRunHandler_sound).next
  | moveTrap => exact (h.serve moveTrapHandler_sound).next
  | moveTail => exact (h.serve moveTailHandler_sound).next
  | moveStop => exact (h.serve moveStopHandler_sound).next
  | setLimits => exact (h.serve setLimitsHandler_sound).next
  | home => exact (h.serve homeHandler_sound).next
  | gearSet => exact (h.serve gearSetHandler_sound).next
  | doorMode => exact (h.serve doorModeHandler_sound).next
  | doorOpen => exact (h.serve doorOpenHandler_sound).next
  | doorClose => exact (h.serve doorCloseHandler_sound).next
  | doorStop => exact (h.serve doorStopHandler_sound).next
  | doorLimits => exact (h.serve doorLimitsHandler_sound).next
  | loopConfig => exact (h.serve loopConfigHandler_sound).next
  | loopMode => exact (h.serve loopModeHandler_sound).next
  | coefBank => exact (h.serve coefBankHandler_sound).next
  | schedSet => exact (h.serve schedSetHandler_sound).next
  | inject => exact (h.serve injectHandler_sound).next
  | capture => exact (h.serve captureHandler_sound).next
  | groupJoin => exact (h.serve groupJoinHandler_sound).next
  | groupLeave => exact (h.serve groupLeaveHandler_sound).next
  | policySet => exact (h.serve policySetHandler_sound).next
  | flightSet => exact (h.serve flightSetHandler_sound).next
  | callEnter | callCancel => exact (h.serve callHandler_sound).next
  | lockLoad => exact (h.serve lockLoadHandler_sound).next
  | lockCommit => exact (h.serve lockCommitHandler_sound).next
  | lockTestBridge | lockTestSto => exact (h.serve lockTestHandler_sound).next
  | watchChange => exact (h.serve watchChangeHandler_sound).next
  | watchSet => exact (h.serve watchSetHandler_sound).next
  | millStartTick | millStartOnce => exact (h.serve millStartHandler_sound).next
  | millStop => exact (h.serve millStopHandler_sound).next
  | millFetch => exact (h.serve millFetchHandler_sound).next
  | outSet => exact (h.serve outSetHandler_sound).next
  | inRead => exact (h.serve inReadHandler_sound).next
  | outRestoreGroup | outRestoreChannel => exact (h.serve outRestoreHandler_sound).next
  | counterConfig => exact (h.serve counterConfigHandler_sound).next
  | canMode => exact (h.serve canModeHandler_sound).next
  | canFilter => exact (h.serve canFilterHandler_sound).next
  | canTx => exact (h.serve canTxHandler_sound).next
  | canCancel => exact (h.serve canCancelHandler_sound).next
  | canRead => exact (h.serve canReadHandler_sound).next
  | linkModeStart | linkModeStop => exact (h.serve linkModeHandler_sound).next
  | powerMode => exact (h.serve powerModeHandler_sound).next
  | rescueStart => exact (h.serve rescueStartHandler_sound).next
  | imageWrite => exact (h.serve imageWriteHandler_sound).next
  | imageVerify => exact (h.serve imageVerifyHandler_sound).next
  | imageActivate => exact (h.serve imageActivateHandler_sound).next
  | lcTransition => exact (h.serve lcTransitionHandler_sound).next
  | abort => exact (h.serve abortHandler_sound).next
  | abortTakesEffect => exact execAbortTakesEffect_sound h
  | sessionOpenChallenge | sessionOpenProve | sessionOpenClose => exact (h.serve sessionHandler_sound).next
  | sessionTimeout => exact execSessionTimeout_sound h
  | sessionLockoutEnd => exact execSessionLockoutEnd_sound h
  | limitStop => exact execLimitStop_sound h
  | homeRearmEnd => exact execHomeRearmEnd_sound h
  | homeCapture => exact execHomeCapture_sound h
  | homeAdjust => exact execHomeAdjust_sound h
  | homeSearchExhausted => exact execHomeSearchExhausted_sound h
  | homeLimit => exact execHomeLimit_sound h
  | encFault => exact execEncFault_sound h
  | encAbsAngleSet => exact execEncAbsAngleSet_sound h
  | encZSync => exact execEncZSync_sound h
  | ssiRead => exact execSsiRead_sound h
  | sdFault => exact execSdFault_sound h
  | positionMismatch => exact execPositionMismatch_sound h
  | doorModulatorUpdate => exact execDoorModulatorUpdate_sound h
  | legacyStep => exact execLegacyStep_sound h
  | doorObstructed => exact execDoorObstructed_sound h
  | doorStall => exact execDoorStall_sound h
  | doorOpenTimeout => exact execDoorOpenTimeout_sound h
  | doorCloseTimeout => exact execDoorCloseTimeout_sound h
  | doorReopen => exact execDoorReopen_sound h
  | doorHoldExpiry => exact execDoorHoldExpiry_sound h
  | doorNudge => exact execDoorNudge_sound h
  | stageFault => exact execStageFault_sound h
  | interlockEvaluation => exact execInterlockEvaluation_sound h
  | bridgeFail => exact execBridgeFail_sound h
  | lockDiscrepancy => exact execLockDiscrepancy_sound h
  | delayElementExpiry => exact execDelayElementExpiry_sound h
  | lockDisagree => exact execLockDisagree_sound h
  | safetyChainOpen => exact execSafetyChainOpen_sound h
  | lockImageCheck => exact execLockImageCheck_sound h
  | lockCommitted => exact execLockCommitted_sound h
  | stoTestStep => exact execStoTestStep_sound h
  | stoTestDue => exact execStoTestDue_sound h
  | laneFault => exact execLaneFault_sound h
  | wdogExpired => exact execWdogExpired_sound h
  | takeover => exact execTakeover_sound h
  | parcelStale => exact execParcelStale_sound h
  | standbyReady => exact execStandbyReady_sound h
  | stileFault => exact execStileFault_sound h
  | watchDue => exact execWatchDue_sound h
  | watchChangeStart => exact execWatchChangeStart_sound h
  | watchChanged => exact execWatchChanged_sound h
  | watchSkipped => exact execWatchSkipped_sound h
  | millTickStart => exact execMillTickStart_sound h
  | millEventEntry => exact execMillEventEntry_sound h
  | bellStrokeTx => exact execBellStrokeTx_sound h
  | bellStroke => exact execBellStroke_sound h
  | statusSlotTx => exact execStatusSlotTx_sound h
  | slotLateCancel => exact execSlotLateCancel_sound h
  | statusSlotRx => exact execStatusSlotRx_sound h
  | carNumberTwin => exact execCarNumberTwin_sound h
  | referenceDigest => exact execReferenceDigest_sound h
  | requestFrame => exact execRequestFrame_sound h
  | cancelFrame => exact execCancelFrame_sound h
  | callFrameTxDrop => exact execCallFrameTxDrop_sound h
  | joinListenTimeout => exact execJoinListenTimeout_sound h
  | joinClaim => exact execJoinClaim_sound h
  | bellMissing => exact execBellMissing_sound h
  | bellYielded => exact execBellYielded_sound h
  | groupBusLost => exact execGroupBusLost_sound h
  | resyncRequest => exact execResyncRequest_sound h
  | resyncData => exact execResyncData_sound h
  | resyncReplay => exact execResyncReplay_sound h
  | canFrameRx => exact execCanFrameRx_sound h
  | canTxChoice => exact execCanTxChoice_sound h
  | canTxEnd => exact execCanTxEnd_sound h
  | twin => exact execTwin_sound h
  | busOff => exact execBusOff_sound h
  | busOffRecoveryStart => exact execBusOffRecoveryStart_sound h
  | busRecovered => exact execBusRecovered_sound h
  | canIntegrationDone => exact execCanIntegrationDone_sound h
  | carLinkCycle => exact execCarLinkCycle_sound h
  | carLinkFrameRx => exact execCarLinkFrameRx_sound h
  | carLinkDown => exact execCarLinkDown_sound h
  | phyStatusPoll => exact execPhyStatusPoll_sound h
  | linkPhyTimeout => exact execLinkPhyTimeout_sound h
  | linkSyncTimeout => exact execLinkSyncTimeout_sound h
  | blindLevelling => exact execBlindLevelling_sound h
  | linkOpenOnLoss => exact execLinkOpenOnLoss_sound h
  | linkDoorHoldExpiry => exact execLinkDoorHoldExpiry_sound h
  | fieldLinkFrame => exact execFieldLinkFrame_sound h
  | fieldLinkFault => exact execFieldLinkFault_sound h
  | inputSample => exact execInputSample_sound h
  | counterEdge => exact execCounterEdge_sound h
  | counterGateEnd => exact execCounterGateEnd_sound h
  | outputDiagCheck => exact execOutputDiagCheck_sound h
  | overload => exact execOverload_sound h
  | driverOvertemp => exact execDriverOvertemp_sound h
  | groupOvercurrent => exact execGroupOvercurrent_sound h
  | vfieldSample => exact execVfieldSample_sound h
  | fieldShed => exact execFieldShed_sound h
  | fieldRestored => exact execFieldRestored_sound h
  | standbyIdleExpiry => exact execStandbyIdleExpiry_sound h
  | scrubberPass => exact execScrubberPass_sound h
  | evtLost => exact execEvtLost_sound h
  | mainsLoss => exact execMainsLoss_sound h
  | mainsRestored => exact execMainsRestored_sound h
  | vkeepLow => exact execVkeepLow_sound h
  | rescueAutoStart => exact execRescueAutoStart_sound h
  | rescueLevelCheck => exact execRescueLevelCheck_sound h
  | powerModeEntry => exact execPowerModeEntry_sound h
  | wake => exact execWake_sound h
  | idleTimeout => exact execIdleTimeout_sound h
  | clockFault => exact execClockFault_sound h
  | encPwrFault => exact execEncPwrFault_sound h
  | overtemp => exact execOvertemp_sound h
  | flashProgramDone => exact execFlashProgramDone_sound h
  | sdValid => exact execSdValid_sound h
  | vkeepRecovered => exact execVkeepRecovered_sound h
  | inboxWrite => exact execInboxWrite_sound h
  | configSaveDone => exact execConfigSaveDone_sound h
  | imageVerifyDone => exact execImageVerifyDone_sound h
  | lcRecordWritten => exact execLcRecordWritten_sound h

/-- Settles O56: an idle step leaves the state, and any other makes the front command of the queue. -/
theorem stepKeepsStatesSound : Obligations.StepKeepsStatesSound := by
  intro s t hs hstep
  cases hqueue : s.pending with
  | nil =>
    rw [step, hqueue] at hstep
    cases hstep
    exact hs
  | cons c rest =>
    rw [step, hqueue] at hstep
    have hrest : Sound { s with pending := rest } := Sound.kept hs (by rfl)
    exact exec_sound hrest t hstep

end Sys2Proof.Machine
